-- ==== Sys2Proof/Word.lean ====
section
/-! DEFINITION. The machine's word types and the one association list that every file of registers and
every memory of the state is written with. -/

namespace Sys2Proof

abbrev Byte := BitVec 8
abbrev W32 := BitVec 32
abbrev W64 := BitVec 64

/-- A finite map from numbers to values, kept as a list whose keys rise strictly and whose values all
differ from the default (the canonical form of `Sys2Proof.Machine.Sparse.wf`). A key that is not
listed reads as the default. -/
abbrev Sparse (α : Type) := List (Nat × α)

end Sys2Proof
end

