-- ==== Sys2Proof/Config.lean ====
section
/-! DEFINITION. The values that the spec leaves open. Each is a constant with no body, applied to a counter
that the state advances (`State.free`) or to the operands it depends on, so that nothing can be proved of it. -/

namespace Sys2Proof.Config

/-- A free 64-bit value (assumption log 3): the answer of firmware, of another module or of a measurement,
and every value an engine writes for which the spec gives none. -/
opaque freeWord : Nat → BitVec 64

/-- A free string of bytes (assumption log 3): an SPDM message, an encoded bitstream. -/
opaque freeBytes : Nat → List (BitVec 8)

/-- A free number (assumption log 3): an instant or a choice that the spec leaves open. -/
opaque freeNat : Nat → Nat

/-- A free truth value (assumption log 3): whether an outside check passes. -/
opaque freeBool : Nat → Bool

/-- A byte of text that lies on another module, by its address and the tick of its fetch (assumption log 6). -/
opaque remoteText : Nat → Nat → BitVec 8

/-- What another module answers to a request for a line, at a tick, of an issue (assumption log 6): 1 it refuses by its
export table, 2 it meets an uncorrectable error, 3 it lacks the atomic operation, and it performs it otherwise. -/
opaque remoteReply : Nat → Nat → Nat → Nat

/-- Whether the two links from a module of the pod to another are up at a tick (22 R395, assumption log 6). -/
opaque relayUp : Nat → Nat → Nat → Bool

/-- The entry of a stack's footprint predictor for a line and the first sector asked for (18 R325, assumption log 100). -/
opaque predictorEntry : Nat → Nat → Nat

/-- The firmware's version, major in bits [31:16] and minor in bits [15:0] (21 R378, assumption log 21). -/
opaque fwVersion : BitVec 32

/-- The number of a halt code in an error record (21 Table 21-7, assumption log 21). -/
opaque haltCode : Nat → Nat

/-- The management offset of a setting of firmware (21 R380, assumption log 21). -/
opaque settingOffset : Nat → Nat

/-- A byte of the image that a boot slot left the factory with (assumption log 21). -/
opaque factoryByte : Nat → BitVec 8

/-- Whether the two signatures of an image header verify under the slot's root key (21 R383, assumption log 21). -/
opaque imageVerified : List (BitVec 8) → Bool

/-- The measurement of the ROM (21 R384, assumption log 23). -/
opaque romDigest : List (BitVec 8)

/-- The measurement of the fuse configuration, by the fuse minimum `MINSVN` (21 R384, assumption log 23). -/
opaque fuseDigest : Nat → List (BitVec 8)

/-- The PFC priority that the host port honours (21 R379, assumption log 79). -/
opaque pfcPriority : Nat

/-- Whether an access to a frame of another module misses that module's memory-side cache, by its address and tick (22 Table
22-3, assumption log 6). -/
opaque remoteMiss : Nat → Nat → Bool

/-- Whether a frame of another module lies beside the other die of that module than the one its request arrives at (22 R395,
assumption log 6). -/
opaque remoteFar : Nat → Nat → Bool

/-- The die of a scale-up port (22 R403, assumption log 64). -/
opaque portDie : Nat → Nat

/-- The credits of a scale-up port toward a target, in flits (22 R392, R403, assumption log 64). -/
opaque credits : Nat → Nat

/-- The bitstream that a codec (HEVC Main 10, else AV1 Main) makes of a picture, given as its luma lines and its lines of
Cb and Cr pairs; the number stands for what the encoder chooses and keeps (20 R364, assumption log 75). -/
opaque bitstream : Nat → Bool → List (List Nat) → List (List (Nat × Nat)) → List (BitVec 8)

/-- How many entries the line buffer of an encode session holds, less one (20 R365, assumption log 75). -/
opaque lineBuffer : Nat → Nat

end Sys2Proof.Config
end

