-- ==== Sys2Proof/Machine/Sparse.lean ====
section
/-! DEFINITION. Reading and writing the sparse lists that hold registers and memories, and small helpers on
lists and numbers. -/

namespace Sys2Proof.Machine

open Sys2Proof

/-- The value of a key; `d` is what an unlisted key reads as. -/
def Sparse.get {α : Type} (d : α) : Sparse α → Nat → α
  | [], _ => d
  | (k', v) :: r, k => if k = k' then v else Sparse.get d r k

/-- Removes a key. -/
def Sparse.drop {α : Type} : Sparse α → Nat → Sparse α
  | [], _ => []
  | (k', v) :: r, k => if k = k' then Sparse.drop r k else (k', v) :: Sparse.drop r k

/-- Writes a key. Writing the default removes the entry, so that equal maps are equal lists. -/
def Sparse.put {α : Type} [DecidableEq α] (d : α) : Sparse α → Nat → α → Sparse α
  | [], k, v => if v = d then [] else [(k, v)]
  | (k', v') :: r, k, v =>
    if k' < k then (k', v') :: Sparse.put d r k v
    else if v = d then Sparse.drop ((k', v') :: r) k
    else if k = k' then (k, v) :: r
    else (k, v) :: (k', v') :: r

/-- The canonical form: keys strictly rising above a bound, no default value listed. -/
def Sparse.wfFrom {α : Type} [DecidableEq α] (d : α) : Nat → Sparse α → Bool
  | _, [] => true
  | b, (k, v) :: r => b ≤ k && v ≠ d && Sparse.wfFrom d (k + 1) r

/-- The canonical form of a sparse list. -/
def Sparse.wf {α : Type} [DecidableEq α] (d : α) (m : Sparse α) : Bool := Sparse.wfFrom d 0 m

/-- Memory in its one canonical form: an unlisted address reads as 0. -/
def Memory.wf (m : List Host.Cell) : Bool := Sparse.wf (0 : Byte) m

/-- One byte of a memory. -/
def Memory.byte (m : List Host.Cell) (a : Nat) : Byte := Sparse.get (0 : Byte) m a

/-- Writes one byte of a memory. -/
def Memory.setByte (m : List Host.Cell) (a : Nat) (b : Byte) : List Host.Cell := Sparse.put (0 : Byte) m a b

/-- The `n` bytes from an address. -/
def Memory.bytes (m : List Host.Cell) (a : Nat) : Nat → List Byte
  | 0 => []
  | n + 1 => Memory.byte m a :: Memory.bytes m (a + 1) n

/-- Writes consecutive bytes. -/
def Memory.setBytes (m : List Host.Cell) (a : Nat) : List Byte → List Host.Cell
  | [] => m
  | b :: bs => Memory.setBytes (Memory.setByte m a b) (a + 1) bs

/-- Writes a list of addressed bytes, in order. -/
def Memory.setCells (m : List Host.Cell) : List (Nat × Byte) → List Host.Cell
  | [] => m
  | (a, b) :: r => Memory.setCells (Memory.setByte m a b) r

/-- Replaces the element at an index. -/
def setAt {α : Type} (l : List α) (i : Nat) (v : α) : List α := l.set i v

/-- Applies a function at an index. -/
def modAt {α : Type} (f : α → α) : List α → Nat → List α
  | [], _ => []
  | x :: r, 0 => f x :: r
  | x :: r, i + 1 => x :: modAt f r i

/-- Applies a function to the elements that satisfy a test. -/
def updWhere {α : Type} (p : α → Bool) (f : α → α) (l : List α) : List α :=
  l.map (fun x => if p x then f x else x)

/-- The lane numbers of a group. -/
def laneIds : List Nat := List.range 32

/-- Whether a lane is in a mask. -/
def inMask (m : W32) (i : Nat) : Bool := m.getLsbD i

/-- The mask of the lanes that satisfy a test. -/
def maskOf (p : Nat → Bool) : W32 :=
  laneIds.foldl (fun m i => if p i then m ||| (1#32 <<< i) else m) 0#32

/-- The lanes of a mask, ascending. -/
def lanesOf (m : W32) : List Nat := laneIds.filter (fun i => m.getLsbD i)

/-- The value of a bit field of a word. -/
def field (w : W64) (hi lo : Nat) : Nat := w.toNat / 2 ^ lo % 2 ^ (hi + 1 - lo)

/-- A 64-bit word of a number. -/
def w64 (n : Nat) : W64 := BitVec.ofNat 64 n

/-- A 32-bit word of a number. -/
def w32 (n : Nat) : W32 := BitVec.ofNat 32 n

/-- The bytes of a 32-bit value, least significant first (00 R2). -/
def bytes32 (v : W32) : List Byte := (List.range 4).map (fun i => BitVec.ofNat 8 (v.toNat / 2 ^ (8 * i)))

/-- The bytes of a 64-bit value, least significant first (00 R2). -/
def bytes64 (v : W64) : List Byte := (List.range 8).map (fun i => BitVec.ofNat 8 (v.toNat / 2 ^ (8 * i)))

/-- The bytes of a number in a given width, least significant first (00 R2). -/
def leOf (n v : Nat) : List Byte := (List.range n).map (fun i => BitVec.ofNat 8 (v / 2 ^ (8 * i)))

/-- The number that a list of bytes holds, least significant first (00 R2). -/
def leVal : List Byte → Nat
  | [] => 0
  | b :: r => b.toNat + 256 * leVal r

/-- The signed value of a number of a given width. -/
def signed (w n : Nat) : Int := if 2 ^ (w - 1) ≤ n % 2 ^ w then (n % 2 ^ w : Int) - (2 ^ w : Int) else (n % 2 ^ w : Int)

/-- An integer modulo 2^w. -/
def wrapNat (w : Nat) (v : Int) : Nat := (v % (2 ^ w : Int)).toNat

/-- The largest element of a list of numbers, 0 for none. -/
def maxOf (l : List Nat) : Nat := l.foldl max 0

/-- The smallest element of a list of numbers. -/
def minOf? : List Nat → Option Nat
  | [] => none
  | x :: r => some (r.foldl min x)

end Sys2Proof.Machine
end

