-- ==== Sys2Proof/Syntax.lean ====
section
/-! DEFINITION. The syntax: one constructor of `Instr` for each row of the operation table, with the
instruction fields of Tables 2-2, 2-6, 2-7, 10-8 and 18-7, and for the module's events the objects
they name. -/

namespace Sys2Proof

/-- The fields of an F64 or L96 instruction (02 R29, Table 2-2). `lit` is the third word of an L96
instruction (02 R33); it is absent in F64. -/
structure Full where
  as  : Bool
  dst : Byte
  sa  : Byte
  sb  : Byte
  sc  : Byte
  gp  : BitVec 6
  gn  : Bool
  la  : BitVec 4
  mod : BitVec 6
  lit : Option W32
  deriving DecidableEq, Repr

/-- The fields of a C32 instruction beside its opcode (02 R37, Table 2-6). -/
structure Comp where
  as  : Bool
  dst : Byte
  src : Byte
  gp  : BitVec 3
  gn  : Bool
  mod : BitVec 2
  deriving DecidableEq, Repr

/-- The compact opcodes (03 R55 and the marks of Tables 3-2 to 3-4). -/
inductive COp where
  | iadd | isub | imul | imin | imax | shl | shr | sar | and | or
  | xor | andn | rol | fadd | fsub | fmul | fmin | fmax | hadd2 | badd2
  | qadd4 | qmul4 | pand | por | pxor | wadd | wsub | wmul | wmin | wmax
  deriving DecidableEq, Repr

/-- One half of a P64 pair (02 R38, Table 2-7): the fields of Table 2-6, the marker apart. -/
structure Half where
  op  : COp
  dst : Byte
  src : Byte
  gp  : BitVec 3
  gn  : Bool
  mod : BitVec 2
  deriving DecidableEq, Repr

/-- The states of the module's time base, in the code order of `TIMESTAT` (01 Table 1-7, 00 Table 0-6). -/
inductive TimeState where
  | unlocked | locked | holdover | unsynced
  deriving DecidableEq, Repr

/-- The role of a host session, fixed at key exchange (21 R380). -/
inductive Role where
  | operator
  | tenant (t : Nat)
  deriving DecidableEq, Repr

/-- What an EHP message shows beside its operation (21 R380, Table 21-5): its session and sequence
number, whether its AES-256-GCM tag verifies, and whether its reserved fields are zero. -/
structure Ehp where
  session : Nat
  seq     : Nat
  tagOk   : Bool
  clean   : Bool
  deriving DecidableEq, Repr

/-- A firmware capability with its hidden tag (21 R367, Table 21-1). -/
structure Capability where
  tag   : Bool
  otype : Byte
  perm  : BitVec 4
  len   : Nat
  base  : Nat
  deriving DecidableEq, Repr

/-- What a request from another module asks of this one (22 R392, R396, R399). `other` is an atomic
code that Table 7-3 does not define. -/
inductive RemoteOp where
  | load (len : Nat)
  | store (bytes : List Byte)
  | atom (op : BitVec 3) (ty : BitVec 2) (v : W64)
  | cas (wide : Bool) (cmp new : W64)
  | join
  | other
  deriving DecidableEq, Repr

/-- A request as a target module receives it (22 R394 to R396). -/
structure RemoteReq where
  src    : Nat
  tag    : Nat
  tenant : Nat
  addr   : Nat
  op     : RemoteOp
  deriving DecidableEq, Repr

/-- What an event of the module is about: the objects it names and the data it brings. An event's
constructor in `Instr` says which fields it reads; the others keep their defaults. -/
structure Subject where
  obj   : Nat := 0
  sub   : Nat := 0
  aux   : Nat := 0
  val   : W64 := 0
  bytes : List Byte := []
  flag  : Bool := false
  flag2 : Bool := false
  nats  : List Nat := []
  pcs   : List (Option W64) := []
  ts    : TimeState := .unlocked
  role  : Role := .operator
  cap   : Capability := { tag := false, otype := 0, perm := 0, len := 0, base := 0 }
  ehp   : Ehp := { session := 0, seq := 0, tagOk := false, clean := false }
  reqs  : List RemoteReq := []
  deriving DecidableEq, Repr

/-- The operations and events of the part, one constructor for each row of the table. A lane, sequencer
or row-program instruction carries its fields. An event of the module carries none: what it is about
stands in the state's `ev : Subject` when the event is taken, and its docstring says in which fields. -/
inductive Instr where
  /-- P64_PAIR (02 R40). Two compact halves issue together, read all sources first and retire together. -/
  | p64Pair (as : Bool) (h0 h1 : Half)
  /-- IADD (05 R76). Integer add, wrapping or saturating. -/
  | iadd (f : Full)
  /-- ISUB (05 R76). Integer subtract. -/
  | isub (f : Full)
  /-- IMUL (05 R76). Integer multiply, low half. -/
  | imul (f : Full)
  /-- IMULH (05 R76). Integer multiply, high half. -/
  | imulh (f : Full)
  /-- IMAD (05 R78). Integer multiply-add, wrapping. -/
  | imad (f : Full)
  /-- IMADW (05 R78). 32-by-32 multiply added to a 64-bit value. -/
  | imadw (f : Full)
  /-- IDIV (05 R77). Truncating integer division without traps. -/
  | idiv (f : Full)
  /-- IREM (05 R77). Integer remainder. -/
  | irem (f : Full)
  /-- IMIN (05 R76). Integer minimum. -/
  | imin (f : Full)
  /-- IMAX (05 R76). Integer maximum. -/
  | imax (f : Full)
  /-- IABS (05 R76). Integer absolute value. -/
  | iabs (f : Full)
  /-- INEG (05 R76). Integer negation. -/
  | ineg (f : Full)
  /-- SHL (05 R79). Shift left. -/
  | shl (f : Full)
  /-- SHR (05 R79). Logical shift right. -/
  | shr (f : Full)
  /-- SAR (05 R79). Arithmetic shift right. -/
  | sar (f : Full)
  /-- ROL (05 R79). Rotate left. -/
  | rol (f : Full)
  /-- AND (05 R79). Bitwise AND. -/
  | and (f : Full)
  /-- OR (05 R79). Bitwise OR. -/
  | or (f : Full)
  /-- XOR (05 R79). Bitwise XOR. -/
  | xor (f : Full)
  /-- ANDN (05 R79). a AND NOT b. -/
  | andn (f : Full)
  /-- NOT (05 R79). Bitwise NOT. -/
  | not (f : Full)
  /-- LEA (05 R81). Computes the effective address of a memory operand without access. -/
  | lea (f : Full)
  /-- SEL (05 R80). Selects a or b by a predicate. -/
  | sel (f : Full)
  /-- MOV (05 R80). Copies a value among general, k and queue registers. -/
  | mov (f : Full)
  /-- MOVI (05 R80). Writes a sign-extended immediate. -/
  | movi (f : Full)
  /-- CLZ (05 R79). Counts leading zeros. -/
  | clz (f : Full)
  /-- POPC (05 R79). Counts one bits. -/
  | popc (f : Full)
  /-- BREV (05 R79). Reverses bit order. -/
  | brev (f : Full)
  /-- ICMP (05 R82). Integer comparison into a predicate. -/
  | icmp (f : Full)
  /-- PSET (05 R83). Sets a predicate to 0 or 1. -/
  | pset (f : Full)
  /-- PAND (05 R83). Predicate AND. -/
  | pand (f : Full)
  /-- POR (05 R83). Predicate OR. -/
  | por (f : Full)
  /-- PXOR (05 R83). Predicate XOR. -/
  | pxor (f : Full)
  /-- PNOT (05 R83). Predicate NOT. -/
  | pnot (f : Full)
  /-- PMOV (05 R83). Predicate copy. -/
  | pmov (f : Full)
  /-- CVT (05 R84). Converts between integer and floating types. -/
  | cvt (f : Full)
  /-- FADD (05 R85). F32 add, rounded once. -/
  | fadd (f : Full)
  /-- FSUB (05 R85). F32 subtract. -/
  | fsub (f : Full)
  /-- FMUL (05 R85). F32 multiply. -/
  | fmul (f : Full)
  /-- FFMA (05 R85). F32 fused multiply-add. -/
  | ffma (f : Full)
  /-- FMIN (05 R86). F32 minimum with NaN handling. -/
  | fmin (f : Full)
  /-- FMAX (05 R86). F32 maximum with NaN handling. -/
  | fmax (f : Full)
  /-- FCMP (05 R87). Quiet F32 comparison into a predicate. -/
  | fcmp (f : Full)
  /-- FRCP (05 R90). Correctly rounded reciprocal. -/
  | frcp (f : Full)
  /-- FRSQ (05 R90). Correctly rounded reciprocal square root. -/
  | frsq (f : Full)
  /-- FSQRT (05 R90). Correctly rounded square root. -/
  | fsqrt (f : Full)
  /-- FEXP2 (05 R90). Correctly rounded 2^a. -/
  | fexp2 (f : Full)
  /-- FLOG2 (05 R90). Correctly rounded base-2 logarithm. -/
  | flog2 (f : Full)
  /-- FSIN (05 R90). Correctly rounded sine. -/
  | fsin (f : Full)
  /-- FCOS (05 R90). Correctly rounded cosine. -/
  | fcos (f : Full)
  /-- FCLASS (05 R88). Classifies an F32 encoding. -/
  | fclass (f : Full)
  /-- FRND (05 R89). Rounds to an integral F32 value. -/
  | frnd (f : Full)
  /-- HADD2 (05 R92). Packed F16 add. -/
  | hadd2 (f : Full)
  /-- HFMA2 (05 R92). Packed F16 fused multiply-add. -/
  | hfma2 (f : Full)
  /-- BADD2 (05 R92). Packed B16 add. -/
  | badd2 (f : Full)
  /-- BFMA2 (05 R92). Packed B16 fused multiply-add. -/
  | bfma2 (f : Full)
  /-- QADD4 (05 R92). Packed 8-bit float add. -/
  | qadd4 (f : Full)
  /-- QMUL4 (05 R92). Packed 8-bit float multiply. -/
  | qmul4 (f : Full)
  /-- QCVT (05 R93). Converts four F16 values to 8-bit floats. -/
  | qcvt (f : Full)
  /-- BMM8 (06 R98). GF(2) 8x8 bit-matrix product. -/
  | bmm8 (f : Full)
  /-- BMO8 (06 R98). Boolean 8x8 bit-matrix product. -/
  | bmo8 (f : Full)
  /-- BSCAT (06 R99). Scatters low bits to mask positions. -/
  | bscat (f : Full)
  /-- BGATH (06 R99). Gathers mask-position bits to low bits. -/
  | bgath (f : Full)
  /-- BPERM (06 R100). Permutes 64 bits by a 384-bit index table. -/
  | bperm (f : Full)
  /-- BFX (06 R101). Extracts a bit field. -/
  | bfx (f : Full)
  /-- BFI (06 R102). Inserts a bit field. -/
  | bfi (f : Full)
  /-- FSHL (06 R103). Funnel shift left. -/
  | fshl (f : Full)
  /-- FSHR (06 R103). Funnel shift right. -/
  | fshr (f : Full)
  /-- MATCH (06 R104). Masks of participating lanes with equal keys. -/
  | matchLanes (f : Full)
  /-- VOTE (06 R105). Quorum vote over participating lanes. -/
  | vote (f : Full)
  /-- VOTE_MASK (06 R105). Ballot mask of participating lanes. -/
  | voteMask (f : Full)
  /-- VOTE_CNT (06 R105). Count of participating lanes with pa true. -/
  | voteCnt (f : Full)
  /-- SHFL (06 R106). Cross-lane shuffle by select, shift, rotate or swizzle. -/
  | shfl (f : Full)
  /-- REDUX (06 R107). Reduction or prefix over participating lanes. -/
  | redux (f : Full)
  /-- WADD (06 R109). Element-wise spectral add. -/
  | wadd (f : Full)
  /-- WSUB (06 R109). Element-wise spectral subtract. -/
  | wsub (f : Full)
  /-- WMUL (06 R109). Element-wise spectral multiply. -/
  | wmul (f : Full)
  /-- WFMA (06 R109). Element-wise spectral fused multiply-add. -/
  | wfma (f : Full)
  /-- WMIN (06 R109). Element-wise spectral minimum. -/
  | wmin (f : Full)
  /-- WMAX (06 R109). Element-wise spectral maximum. -/
  | wmax (f : Full)
  /-- WEXP (06 R110). Element-wise correctly rounded e^a. -/
  | wexp (f : Full)
  /-- WSCL (06 R109). Scales a spectral register by a scalar. -/
  | wscl (f : Full)
  /-- WBCST (06 R111). Broadcasts a 32-bit pattern to every active element. -/
  | wbcst (f : Full)
  /-- WSET (06 R111). Replaces one element. -/
  | wset (f : Full)
  /-- WGET (06 R111). Reads one element. -/
  | wget (f : Full)
  /-- WSUM (06 R112). Pairwise F32 sum of active elements. -/
  | wsum (f : Full)
  /-- WCMP (06 R113). Element-wise comparison mask. -/
  | wcmp (f : Full)
  /-- WSEL (06 R113). Element-wise select by mask. -/
  | wsel (f : Full)
  /-- WCVT (06 R114). Converts elements between F32 and N32. -/
  | wcvt (f : Full)
  /-- WFRES (06 R117). Computes the dielectric Fresnel reflection block. -/
  | wfres (f : Full)
  /-- WPACK (06 R115). Packs eight elements to F16 into four registers. -/
  | wpack (f : Full)
  /-- WLEN (06 R116). Returns the packet width. -/
  | wlen (f : Full)
  /-- MUEL_F (06 R118). Applies a Fresnel block to a Stokes quad. -/
  | muelF (f : Full)
  /-- MUEL_G (06 R118). Applies a general Mueller block to a Stokes quad. -/
  | muelG (f : Full)
  /-- MUEL_ROT (06 R118). Rotates a Stokes quad's reference frame. -/
  | muelRot (f : Full)
  /-- FSPLAT_W (20 R358). Checks and sends a spectral splat to a camera pixel. -/
  | fsplatW (f : Full)
  /-- LD_G (07 R125). Global scalar load. -/
  | ldG (f : Full)
  /-- LD_L (07 R125). Local-store scalar load. -/
  | ldL (f : Full)
  /-- LD_V (07 R125). Vault scalar load. -/
  | ldV (f : Full)
  /-- ST_G (07 R125). Global scalar store. -/
  | stG (f : Full)
  /-- ST_L (07 R125). Local-store scalar store. -/
  | stL (f : Full)
  /-- ST_V (07 R125). Vault scalar store. -/
  | stV (f : Full)
  /-- LDV (07 R127). Loads a run of registers. -/
  | ldv (f : Full)
  /-- STV (07 R127). Stores a run of registers. -/
  | stv (f : Full)
  /-- LDW (07 R128). Loads spectral elements as raw words. -/
  | ldw (f : Full)
  /-- STW (07 R128). Stores spectral elements as raw words. -/
  | stw (f : Full)
  /-- TLD (07 R129). Tile load, matchable by Conjunction. -/
  | tld (f : Full)
  /-- TST (07 R129). Tile store, matchable or elidable by Conjunction. -/
  | tst (f : Full)
  /-- ATOM (07 R132). Atomic read-modify-write returning the old value or a status. -/
  | atom (f : Full)
  /-- ATOM_CAS (07 R133). Atomic compare-and-swap. -/
  | atomCas (f : Full)
  /-- CWB (07 R131). Writes back a line's dirty sectors. -/
  | cwb (f : Full)
  /-- CINV (07 R131). Writes back and drops a line from L1. -/
  | cinv (f : Full)
  /-- PREF (07 R131). Prefetches a line into L1 with a lease. -/
  | pref (f : Full)
  /-- FENCE (07 R140). Waits for earlier accesses and device time by scope. -/
  | fence (f : Full)
  /-- TXBEGIN (07 R141). Opens a transaction for the participating lanes. -/
  | txbegin (f : Full)
  /-- TXCOMMIT (07 R144). Commits an open transaction or reports none open. -/
  | txcommit (f : Full)
  /-- TXABORT (07 R144). Aborts the transaction with an explicit code. -/
  | txabort (f : Full)
  /-- TXSTAT (07 R145). Reads the transaction status word. -/
  | txstat (f : Full)
  /-- BRA (09 R168). Relative branch. -/
  | bra (f : Full)
  /-- BRX (09 R169). Indirect branch. -/
  | brx (f : Full)
  /-- CALL (09 R168). Relative call saving the return address. -/
  | call (f : Full)
  /-- RET (09 R169). Return to an address in a pair. -/
  | ret (f : Full)
  /-- JENR (09 R170). Enrols participating lanes in a rejoin mask. -/
  | jenr (f : Full)
  /-- JARR (09 R171). Arrives at a rejoin mask, parking or releasing lanes. -/
  | jarr (f : Full)
  /-- JSTR (09 R170). Strikes participating lanes from a mask. -/
  | jstr (f : Full)
  /-- JCLR (09 R170). Clears a mask and releases its lanes. -/
  | jclr (f : Full)
  /-- YIELD (09 R175). Makes the lane not ready until another address issues. -/
  | yield (f : Full)
  /-- NAP (09 R176). Parks lanes for a number of nanoseconds. -/
  | nap (f : Full)
  /-- EXIT (09 R177). Ends enabled lanes and strikes them from masks. -/
  | exit (f : Full)
  /-- SPAWN (09 R179). Pushes continuation records to the pool. -/
  | spawn (f : Full)
  /-- CONT (09 R179). Pushes continuation records and ends the lanes. -/
  | cont (f : Full)
  /-- JOIN (09 R180). Decrements a join counter; all but the last arrival end. -/
  | join (f : Full)
  /-- BAR_TEAM (09 R182). Team barrier over all live groups. -/
  | barTeam (f : Full)
  /-- BAR_NUM_MEET (09 R183). Arrives at a numbered barrier and waits. -/
  | barNumMeet (f : Full)
  /-- BAR_NUM_POST (09 R183). Arrives at a numbered barrier and goes on. -/
  | barNumPost (f : Full)
  /-- BAR_NUM_WAIT (09 R183). Waits on a numbered barrier without arriving. -/
  | barNumWait (f : Full)
  /-- BAR_TREE (09 R184). Barrier over the teams of a route tag. -/
  | barTree (f : Full)
  /-- TRAP (09 R186). Raises a trap with an immediate detail. -/
  | trap (f : Full)
  /-- FWCALL (09 R187). Requests a firmware service and waits for its answer. -/
  | fwcall (f : Full)
  /-- RDSR (09 R188). Reads a system register. -/
  | rdsr (f : Full)
  /-- WRSR (09 R188). Writes a system register that has no row of its own. -/
  | wrsr (f : Full)
  /-- WRSR_MSEQPC (10 R199). Writing MSEQPC starts an idle or halted sequencer. -/
  | wrsrMseqpc (f : Full)
  /-- WRSR_TEXBASE (11 R228). Writing TEXBASE sets the descriptor table and empties the descriptor cache. -/
  | wrsrTexbase (f : Full)
  /-- CLOCK_TIME (09 R189). Reads the device time base. -/
  | clockTime (f : Full)
  /-- CLOCK_CYC (09 R189). Reads the core cycle count. -/
  | clockCyc (f : Full)
  /-- BKPT (09 R186). Breakpoint trap when a debug session is attached. -/
  | bkpt (f : Full)
  /-- NOP (09 R189). Takes an issue slot with no effect. -/
  | nop (f : Full)
  /-- QBIND (09 R191). Binds a queue register to an engine port. -/
  | qbind (f : Full)
  /-- QSTAT (09 R193). Reads a queue's status word. -/
  | qstat (f : Full)
  /-- QFLUSH (09 R194). Waits for taken entries and discards held ones. -/
  | qflush (f : Full)
  /-- MBAR (10 R201). Votes the operand format and meets the sequencer at a barrier. -/
  | mbar (f : Full)
  /-- TSMP_W (11 R230). Spectral texture sample. -/
  | tsmpW (f : Full)
  /-- TUPS (11 R230). Spectral upsampling of RGB. -/
  | tups (f : Full)
  /-- TSMP_F (11 R230). Flat texture sample. -/
  | tsmpF (f : Full)
  /-- TFET (11 R230). Raw texel fetch. -/
  | tfet (f : Full)
  /-- TQRY (11 R230). Queries a texture descriptor field. -/
  | tqry (f : Full)
  /-- LSPRES (11 R222). Reads a local-store line's presence bit. -/
  | lspres (f : Full)
  /-- TCOPY (13 R254). Supplies a slice of a collective linear copy. -/
  | tcopy (f : Full)
  /-- TCOPY_2D (13 R254). Supplies a slice of a collective 2D copy. -/
  | tcopy2d (f : Full)
  /-- TCSTAT (13 R260). Reads the team's copy status. -/
  | tcstat (f : Full)
  /-- BOBJ_INIT (13 R252). Initialises a barrier object. -/
  | bobjInit (f : Full)
  /-- BOBJ_EXPECT (13 R252). Arrives at a barrier object announcing expected bytes. -/
  | bobjExpect (f : Full)
  /-- BOBJ_WAIT (13 R252). Waits until a barrier object's phase bit differs from P. -/
  | bobjWait (f : Full)
  /-- ROW_COPY (18 R333). Row command copying source rows. -/
  | rowCopy (f : Full)
  /-- ROW_FILL (18 R333). Row command filling rows with a pattern. -/
  | rowFill (f : Full)
  /-- ROW_AND (18 R333). Row command AND of two sources. -/
  | rowAnd (f : Full)
  /-- ROW_OR (18 R333). Row command OR of two sources. -/
  | rowOr (f : Full)
  /-- ROW_XOR (18 R333). Row command XOR of two sources. -/
  | rowXor (f : Full)
  /-- ROW_NOT (18 R333). Row command NOT of a source. -/
  | rowNot (f : Full)
  /-- ROW_MAJ (18 R333). Row command majority of three sources. -/
  | rowMaj (f : Full)
  /-- ROW_ALLB (18 R338). Enters or leaves all-bank mode on a pseudo-channel. -/
  | rowAllb (f : Full)
  /-- ROW_BCST (18 R340). Broadcasts 16 F16 values into a VB register of every bank. -/
  | rowBcst (f : Full)
  /-- ROW_MAC (18 R340). Runs a single-step multiply-accumulate program over rows. -/
  | rowMac (f : Full)
  /-- ROW_SADD (18 R333). Row command F16 scale-and-add. -/
  | rowSadd (f : Full)
  /-- ROW_RDACC (18 R340). Reads the near-bank accumulators to memory. -/
  | rowRdacc (f : Full)
  /-- ROW_PROG (18 R340). Loads and runs a near-bank step list. -/
  | rowProg (f : Full)
  /-- ROW_WAIT (18 R345). Stalls until few enough of the team's row commands remain. -/
  | rowWait (f : Full)
  /-- IADD_C32 (02 R37). Compact IADD. -/
  | iaddC32 (c : Comp)
  /-- ISUB_C32 (02 R37). Compact ISUB. -/
  | isubC32 (c : Comp)
  /-- IMUL_C32 (02 R37). Compact IMUL. -/
  | imulC32 (c : Comp)
  /-- IMIN_C32 (02 R37). Compact IMIN. -/
  | iminC32 (c : Comp)
  /-- IMAX_C32 (02 R37). Compact IMAX. -/
  | imaxC32 (c : Comp)
  /-- SHL_C32 (02 R37). Compact SHL. -/
  | shlC32 (c : Comp)
  /-- SHR_C32 (02 R37). Compact SHR. -/
  | shrC32 (c : Comp)
  /-- SAR_C32 (02 R37). Compact SAR. -/
  | sarC32 (c : Comp)
  /-- AND_C32 (02 R37). Compact AND. -/
  | andC32 (c : Comp)
  /-- OR_C32 (02 R37). Compact OR. -/
  | orC32 (c : Comp)
  /-- XOR_C32 (02 R37). Compact XOR. -/
  | xorC32 (c : Comp)
  /-- ANDN_C32 (02 R37). Compact ANDN. -/
  | andnC32 (c : Comp)
  /-- ROL_C32 (02 R37). Compact ROL. -/
  | rolC32 (c : Comp)
  /-- FADD_C32 (02 R37). Compact FADD. -/
  | faddC32 (c : Comp)
  /-- FSUB_C32 (02 R37). Compact FSUB. -/
  | fsubC32 (c : Comp)
  /-- FMUL_C32 (02 R37). Compact FMUL. -/
  | fmulC32 (c : Comp)
  /-- FMIN_C32 (02 R37). Compact FMIN. -/
  | fminC32 (c : Comp)
  /-- FMAX_C32 (02 R37). Compact FMAX. -/
  | fmaxC32 (c : Comp)
  /-- HADD2_C32 (02 R37). Compact HADD2. -/
  | hadd2C32 (c : Comp)
  /-- BADD2_C32 (02 R37). Compact BADD2. -/
  | badd2C32 (c : Comp)
  /-- QADD4_C32 (02 R37). Compact E4M3 QADD4. -/
  | qadd4C32 (c : Comp)
  /-- QMUL4_C32 (02 R37). Compact E4M3 QMUL4. -/
  | qmul4C32 (c : Comp)
  /-- PAND_C32 (02 R37). Compact PAND. -/
  | pandC32 (c : Comp)
  /-- POR_C32 (02 R37). Compact POR. -/
  | porC32 (c : Comp)
  /-- PXOR_C32 (02 R37). Compact PXOR. -/
  | pxorC32 (c : Comp)
  /-- WADD_C32 (02 R37). Compact WADD. -/
  | waddC32 (c : Comp)
  /-- WSUB_C32 (02 R37). Compact WSUB. -/
  | wsubC32 (c : Comp)
  /-- WMUL_C32 (02 R37). Compact WMUL. -/
  | wmulC32 (c : Comp)
  /-- WMIN_C32 (02 R37). Compact WMIN. -/
  | wminC32 (c : Comp)
  /-- WMAX_C32 (02 R37). Compact WMAX. -/
  | wmaxC32 (c : Comp)
  /-- MMA (10 R206). Sequencer multiply-accumulate of two slots into a tile. -/
  | mma (t : BitVec 3) (a b : BitVec 2) (ka kb : Bool)
  /-- MZERO (10 R208). Zeroes a tile and marks it valid. -/
  | mzero (t : BitVec 3)
  /-- MLDA (10 R204). Loads an A operand block from the vault into a slot. -/
  | mlda (s : BitVec 2) (a b : BitVec 5)
  /-- MLDB (10 R204). Loads a B operand block from the vault into a slot. -/
  | mldb (s : BitVec 2) (a b : BitVec 5)
  /-- MUNPIN (10 R208). Empties a slot and releases its pins. -/
  | munpin (s : BitVec 3)
  /-- MST_F32 (10 R209). Stores a tile to the vault as F32. -/
  | mstF32 (t : BitVec 3) (a b c : BitVec 5)
  /-- MST_B16 (10 R209). Stores a tile to the vault rounded to B16. -/
  | mstB16 (t : BitVec 3) (a b c : BitVec 5)
  /-- MST_Q (10 R209). Pushes a tile to the MSEQ.RES queue. -/
  | mstQ (t : BitVec 3)
  /-- MSPARSE (10 R208). Reads and resets the skip count. -/
  | msparse (d : BitVec 5)
  /-- MLOOP (10 R210). Decrements a counter and branches while nonzero. -/
  | mloop (n : BitVec 5) (o : BitVec 16)
  /-- MBRA_AL (10 R210). Unconditional sequencer branch. -/
  | mbraAl (o : BitVec 16)
  /-- MBRA_Z (10 R210). Sequencer branch when a register is zero. -/
  | mbraZ (a : BitVec 5) (o : BitVec 16)
  /-- MBRA_NZ (10 R210). Sequencer branch when a register is nonzero. -/
  | mbraNz (a : BitVec 5) (o : BitVec 16)
  /-- MSET_I (10 R210). Sets a sequencer register or its 16-bit slice from an immediate. -/
  | msetI (d : BitVec 5) (sh : BitVec 2) (imm : BitVec 16)
  /-- MSET_Q (10 R210). Pops an MSEQ.OPND entry into a sequencer register. -/
  | msetQ (d : BitVec 5)
  /-- MSET_R (10 R210). Pushes a sequencer register to MSEQ.RES. -/
  | msetR (a : BitVec 5)
  /-- MADDX (10 R210). Adds two sequencer registers and an immediate. -/
  | maddx (d a b : BitVec 5) (imm : BitVec 11)
  /-- MWAIT (10 R211). Sequencer arrival at a numbered barrier, then wait. -/
  | mwait (b : BitVec 4) (c : BitVec 6)
  /-- MSIG (10 R211). Sequencer arrival at a numbered barrier without waiting. -/
  | msig (b : BitVec 4) (c : BitVec 6)
  /-- MACB (18 R342). Row-program broadcast multiply-accumulate over chunks. -/
  | macb (v : BitVec 3) (c0 : BitVec 6) (n : BitVec 5)
  /-- MACE (18 R342). Row-program element-wise multiply-accumulate over chunks. -/
  | mace (v : BitVec 3) (c0 : BitVec 6) (n : BitVec 5)
  /-- STEP_LOOP (18 R342). Row-program loop step decrementing LC. -/
  | stepLoop (t : BitVec 5)
  /-- ISSUE_CYCLE (08 R152). Each cycle each partition chooses the next ready group in residency-age order and issues from up to two of its program counters for the compute and address streams. -/
  | issueCycle
  /-- YIELD_EXPIRE (09 R175). A yielded lane becomes ready again after 8 issue cycles of its group if no other address has issued first. Subject: group in `obj`, lane in `sub`. -/
  | yieldExpire
  /-- LONG_LATENCY_RETIRE (02 R35). A long-latency instruction's result retires into its destination, unless a later writer in its window has replaced it, and waiting readers proceed. Subject: group in `obj`, lane in `sub`. -/
  | longLatencyRetire
  /-- FAULT_RESOLVE (21 R376). Firmware takes the next fault-queue entry and maps a demand page, hands it to a debug session, holds a sync refusal, or declares it unhandled. Subject: die in `obj`. -/
  | faultResolve
  /-- LANE_REPLAY (07 R137). After a fault is resolved the group resumes and re-executes the trapping instruction on the lanes of TRAPMASK only. Subject: group in `obj`. -/
  | laneReplay
  /-- GROUP_PREEMPT (08 R163). A group stops issuing at an instruction boundary, drains its in-flight work as Table 8-3 gives, and is saved as a context image. Subject: group in `obj`. -/
  | groupPreempt
  /-- GROUP_RESTORE (08 R165). A saved team is restored into partitions of the recorded numbers, or the restore is refused and its grid ends. Subject: team in `obj`. -/
  | groupRestore
  /-- CORE_STRUCTURE_UNCORRECTABLE (08 R166). An uncorrectable error in the runahead log, issue buffers or conflict table ends every team on the core with a core-error status. Subject: core in `obj`. -/
  | coreStructureUncorrectable
  /-- NAP_WAKE (09 R176). A napping lane becomes runnable when the device time reaches its nap deadline. Subject: group in `obj`, lane in `sub`. -/
  | napWake
  /-- TIMEBASE_FIRST_LOCK (00 R11). At first 1588 lock the count steps forward to the 1588 time and goes LOCKED, or holds still and goes UNSYNCED if the 1588 time is behind. Subject: src in `val`. -/
  | timebaseFirstLock
  /-- TIMEBASE_SOURCE_LOST (00 R11). Loss of the 1588 source moves LOCKED to HOLDOVER, or keeps UNSYNCED running at the last rate. -/
  | timebaseSourceLost
  /-- TIMEBASE_SOURCE_REGAINED (00 R11). When the 1588 source returns in HOLDOVER the module goes LOCKED if within 20 ns, else UNSYNCED with rate correction only. Subject: src in `val`. -/
  | timebaseSourceRegained
  /-- HOLDOVER_TIMEOUT (00 R11). After 100 ms without the 1588 source a module in HOLDOVER moves to UNSYNCED. -/
  | holdoverTimeout
  /-- UNSYNCED_CONVERGE (00 R11). An UNSYNCED count that comes within 20 ns of the 1588 time resumes rate corrections and goes LOCKED. Subject: src in `val`. -/
  | unsyncedConverge
  /-- PEER_STATE_UPDATE (22 R398). A peer module's time-base state arrives on a link's management channel and gates domain requests to that peer. Subject: peer in `obj`, st in `ts`. -/
  | peerStateUpdate
  /-- L1_LEASE_EXPIRE (17 R310). When the device time reaches a line's lease expiry the line moves from LIVE to LAPSED and can serve no hit. Subject: core in `obj`, line in `sub`. -/
  | l1LeaseExpire
  /-- DIRTY_WRITEBACK_TIMER (11 R225). A dirty L1 sector is written to its home no later than 256 cycles after the store that first dirtied it. Subject: core in `obj`, line in `sub`. -/
  | dirtyWritebackTimer
  /-- FETCH_AT_HOME (17 R309). A fetch reaching a home returns the line's bytes and grants a lease, clipped to the pending time in HOLD. Subject: core in `obj`, addr in `sub`. -/
  | fetchAtHome
  /-- WRITE_AT_HOME (17 R309). A write reaching a home is performed at once when no live lease exists, or is queued in HOLD until the latest expiry. Subject: party in `obj`, addr in `sub`, bytes in `bytes`. -/
  | writeAtHome
  /-- HOLD_RELEASE (17 R309). When a home's time reaches the pending time, its queued writes are performed in arrival order with that completion time. Subject: line in `obj`. -/
  | holdRelease
  /-- TX_ABORT_RESUME (07 R143). At the next instruction boundary after an abort, buffered stores are discarded and every lane of the set resumes after TXBEGIN with pd false. Subject: group in `obj`. -/
  | txAbortResume
  /-- TX_COMMIT_PERFORM (17 R319). At the commit time every buffered store and atomic write of a committed transaction is performed at once. Subject: group in `obj`. -/
  | txCommitPerform
  /-- PAGE_WALK (15 R287). A TLB miss takes a die page walker, one walk per page in flight, and its result serves every waiting miss. Subject: die in `obj`, tenant in `sub`, va in `val`. -/
  | pageWalk
  /-- TLB_INVALIDATE (15 R287). A firmware invalidation of a mapping completes after every access that used the old translation has been performed. Subject: tenant in `obj`, va in `val`. -/
  | tlbInvalidate
  /-- SEQUENCER_ISSUE (10 R203). While RUNNING the sequencer issues its next instruction in order after checking it fully, halting on the first failed check. Subject: team in `obj`. -/
  | sequencerIssue
  /-- MMA_RETIRE (10 R206). An MMA leaves the array after its cycles, updates the tile, sets sequencer flags and empties its non-kept slots. Subject: team in `obj`. -/
  | mmaRetire
  /-- MST_PERFORMED (10 R209). An accumulator store completes its writes and adds its byte count to the named barrier object. Subject: team in `obj`. -/
  | mstPerformed
  /-- TREE_PHASE_COMPLETE (13 R262). A route tag's phase completes 40 cycles after the arrival that equals its participants, releasing every waiting team. Subject: die in `obj`, tag in `sub`. -/
  | treePhaseComplete
  /-- COPY_FORM (13 R254). When every live group has supplied its slice and their writes are complete, the engine reads the descriptor, checks it and forms the copy. Subject: team in `obj`. -/
  | copyForm
  /-- COPY_TURN (13 R259). Each cycle the copy engine moves up to four turns of 256 bytes, round robin over active copies by weight. Subject: cluster in `obj`. -/
  | copyTurn
  /-- COPY_END (13 R257). A copy ends, adds its byte count to its barrier object and delivers its status word to every supplying lane. Subject: copy in `obj`. -/
  | copyEnd
  /-- RETENTION_IDLE_EXPIRE (13 R248). An array idle for the retention idle time starts re-encoding and enters ENTERING. Subject: array in `obj`. -/
  | retentionIdleExpire
  /-- REENCODE_DONE (13 R248). Re-encoding of an array finishes, lowering voltage into RETAINED or performing held accesses into ACTIVE. Subject: array in `obj`. -/
  | reencodeDone
  /-- LINK_MESH_FAIL (13 R264). A failed mesh link reroutes traffic column-first or by a two-hop detour. Subject: die in `obj`, a in `sub`, b in `aux`. -/
  | linkMeshFail
  /-- TREE_TAG_WITHDRAW (13 R264). A route tag whose wires fail self-test is withdrawn and its holder's grid ends. Subject: die in `obj`, tag in `sub`. -/
  | treeTagWithdraw
  /-- LAUNCH_TAKE (15 R271). The front end reads and checks a launch descriptor, numbers it, and accepts or refuses the launch. Subject: die in `obj`, tenant in `sub`, desc in `val`. -/
  | launchTake
  /-- TEAM_PLACE (15 R273). The distributor places at most one unit per die per cycle on the best-fitting core or rectangle. Subject: die in `obj`. -/
  | teamPlace
  /-- POOL_RECORD_BIN (15 R277). A record at a pool ring head is stored in the bin of its key, binds a free bin, or stays at the head. Subject: die in `obj`, launch in `sub`. -/
  | poolRecordBin
  /-- POOL_BIN_AGE_DUE (15 R277). An OPEN bin whose oldest record reaches POOLAGE becomes DUE. Subject: die in `obj`, bin in `sub`. -/
  | poolBinAgeDue
  /-- POOL_GROUP_FORM (15 R278). Each cycle the front end forms at most one group from the DUE bin with the earliest deadline that fits a core. Subject: die in `obj`. -/
  | poolGroupForm
  /-- BUDGET_REFILL (15 R280). At each multiple of a tenant's period its remaining budget is reset to B. Subject: die in `obj`, tenant in `sub`. -/
  | budgetRefill
  /-- AT_RISK_TEST (15 R283). Every 250 ns the front end tests deadline launches for risk and pre-empts a chosen victim set. Subject: die in `obj`. -/
  | atRiskTest
  /-- LAUNCH_COMPLETE (15 R285). When a launch ends or is refused the front end writes its completion record and then raises its signal. Subject: die in `obj`, launch in `sub`. -/
  | launchComplete
  /-- STALL_HINT (15 R289). A congested port's stall hint takes groups targeting a peer out of issue until the hinted end. Subject: die in `obj`, peer in `sub`, ns in `aux`. -/
  | stallHint
  /-- STALL_HINT_END (15 R289). A held-out group returns to issue when its hint ends or its oldest request completes. Subject: group in `obj`. -/
  | stallHintEnd
  /-- PAIR_TAKE (16 R293). The front end takes a pair, checks eligibility, and either builds the spliced launch or runs the pair unspliced. Subject: die in `obj`, tenant in `sub`, rec in `val`. -/
  | pairTake
  /-- CONSUMER_DEFERRED_TAKE (16 R294). A refused pair's consumer is taken only after the producer's completion record and signal. Subject: die in `obj`, launch in `sub`. -/
  | consumerDeferredTake
  /-- ROW_CMD_ENTER (18 R332). A row command enters the team's row stream and starts once overlapping and same-channel near-bank predecessors have ended. Subject: cmd in `obj`. -/
  | rowCmdEnter
  /-- ROW_STEP (18 R343). Meridian performs one row step of a command and then yields, refreshes or continues at the row boundary. Subject: cmd in `obj`. -/
  | rowStep
  /-- ROW_SLOT_END (18 R344). A 128 ns ordinary-traffic slot ends; after seven slots or no pending access the command resumes. Subject: cmd in `obj`. -/
  | rowSlotEnd
  /-- ROW_REFRESH_DONE (18 R344). A refresh issued at a row boundary finishes and the command resumes. Subject: cmd in `obj`. -/
  | rowRefreshDone
  /-- ROW_COMMAND_END (18 R334). At its completion time a command's destination lines are performed, its count added and its status delivered. Subject: cmd in `obj`. -/
  | rowCommandEnd
  /-- ROW_CMD_PORT_TAKE (18 R330). The ROW.CMD port takes a queued entry, reads the descriptor and enters the command. Subject: team in `obj`. -/
  | rowCmdPortTake
  /-- TEXTURE_REQUEST_SERVE (11 R232). The texture unit serves the team's next queued request, writes results and status into the record and sets presence. Subject: team in `obj`. -/
  | textureRequestServe
  /-- SPLAT_APPLY (20 R359). The back end weights a splat by the camera response and adds each channel into the film by compensated summation. Subject: die in `obj`. -/
  | splatApply
  /-- SPLAT_PORT_ENTRY (20 R361). The SPLAT port assembles a lane's header and element entries into one splat, dropping malformed ones. Subject: team in `obj`. -/
  | splatPortEntry
  /-- FRAME_CLOSE (20 R362). When a frame's last row closes the back end switches film sets and folds or drops the frame. Subject: cam in `obj`. -/
  | frameClose
  /-- FOLD_END (20 R363). After the fold, the frame record is written and the camera's develop grid is submitted. Subject: cam in `obj`. -/
  | foldEnd
  /-- ENC_LINE_TAKE (20 R364). An encode session takes an entry from a bound ENC.LINE queue. Subject: session in `obj`. -/
  | encLineTake
  /-- PKT_LAUNCH (21 R371). A LAUNCH packet submits its descriptor to the front end of the named die. Subject: queue in `obj`. -/
  | pktLaunch
  /-- PKT_PAIR (16 R290). A PAIR packet submits a producer and consumer pair record. Subject: queue in `obj`. -/
  | pktPair
  /-- PKT_SIGNAL (21 R371). A SIGNAL packet stores to or atomically adds to a signal word. Subject: queue in `obj`. -/
  | pktSignal
  /-- PKT_WAIT (21 R373). A WAIT packet holds the queue until its signal satisfies the condition. Subject: queue in `obj`. -/
  | pktWait
  /-- PKT_KILL (21 R374). A KILL packet ends the named launch of the queue's tenant with KILLED. Subject: queue in `obj`. -/
  | pktKill
  /-- PKT_CAMERA (20 R356). A CAMERA packet configures a camera from its descriptor. Subject: queue in `obj`. -/
  | pktCamera
  /-- PKT_SESSION (20 R364). A SESSION packet configures an encode session and its output ring. Subject: queue in `obj`. -/
  | pktSession
  /-- QUEUE_WATCHDOG (21 R372). A queue waiting longer than QWDOG halts with WATCHDOG. Subject: queue in `obj`. -/
  | queueWatchdog
  /-- EHP_SPDM (21 R384). An SPDM message over EHP is handled by the module's SPDM responder. Subject: the message in `ehp`, msg in `bytes`. -/
  | ehpSpdm
  /-- GET_VERSION (21 R384). The SPDM responder returns its supported versions. Subject: session in `obj`. -/
  | getVersion
  /-- GET_CAPABILITIES (21 R384). The SPDM responder returns its capabilities. Subject: session in `obj`. -/
  | getCapabilities
  /-- NEGOTIATE_ALGORITHMS (21 R384). The SPDM responder settles on P-384, SHA-384 and AES-256-GCM. Subject: session in `obj`. -/
  | negotiateAlgorithms
  /-- GET_DIGESTS (21 R384). The SPDM responder returns its certificate chain digests. Subject: session in `obj`. -/
  | getDigests
  /-- GET_CERTIFICATE (21 R384). The SPDM responder returns a certificate chain. Subject: session in `obj`, slot in `sub`. -/
  | getCertificate
  /-- CHALLENGE (21 R384). The SPDM responder returns CHALLENGE_AUTH signed with ECDSA and LMS. Subject: session in `obj`, slot in `sub`. -/
  | challenge
  /-- GET_MEASUREMENTS (21 R384). The SPDM responder returns measurements 1 to 5, doubly signed. Subject: session in `obj`. -/
  | getMeasurements
  /-- KEY_EXCHANGE (21 R384). The SPDM responder performs key exchange and fixes the session's role. Subject: session in `obj`, role in `role`. -/
  | keyExchange
  /-- FINISH (21 R384). The SPDM responder finishes session establishment. Subject: session in `obj`, ok in `flag`. -/
  | finish
  /-- KEY_UPDATE (22 R401). An SPDM key update derives a new key, including scale-up link key banks. Subject: session in `obj`. -/
  | keyUpdate
  /-- END_SESSION (21 R384). The SPDM responder ends a session. Subject: session in `obj`. -/
  | endSession
  /-- QCTL_CREATE (21 R369). The operator creates a queue with its tenant, ring and QDATA region. Subject: the message in `ehp`, queue in `obj`, tenant in `sub`, ring in `val`, log2 in `aux`, qdata in `cap`. -/
  | qctlCreate
  /-- QCTL_RESUME (21 R372). The operator resumes a halted queue, which re-reads packet RI. Subject: the message in `ehp`, queue in `obj`. -/
  | qctlResume
  /-- QCTL_DESTROY (21 R372). The operator destroys a queue; launches already taken run on. Subject: the message in `ehp`, queue in `obj`. -/
  | qctlDestroy
  /-- DOORBELL (21 R370). A doorbell sets a queue's write index or halts it with INDEX_BAD. Subject: the message in `ehp`, queue in `obj`, wi in `val`. -/
  | doorbell
  /-- MREAD (21 R380). A host reads management registers or its own records. Subject: the message in `ehp`, off in `obj`. -/
  | mread
  /-- MWRITE (00 R5). A host writes a management register that has no row of its own, discarding writes with RSV bits set. Subject: the message in `ehp`, off in `obj`, val in `val`. -/
  | mwrite
  /-- MWRITE_WARM_START (21 R386). An MWRITE with the warm bit requests a warm start. Subject: the message in `ehp`. -/
  | mwriteWarmStart
  /-- MWRITE_BOOT_CONFIRM (21 R385). The operator's boot-confirm makes a TRIAL slot CURRENT and the former CURRENT OLD. Subject: the message in `ehp`. -/
  | mwriteBootConfirm
  /-- DEBUG_ATTACH (21 R377). The operator attaches a debug session to a tenant. Subject: the message in `ehp`, tenant in `obj`. -/
  | debugAttach
  /-- DEBUG_RESUME (21 R377). A debug resume sets lane program counters or replays the trapping instruction on TRAPMASK lanes. Subject: the message in `ehp`, group in `obj`, pcs in `pcs`. -/
  | debugResume
  /-- DEBUG_END_GRID (21 R377). A debug end-grid ends the grid with FAULT. Subject: the message in `ehp`, group in `obj`. -/
  | debugEndGrid
  /-- DEBUG_DETACH (21 R377). Detaching a debug session ends every grid with a trap pending with it. Subject: the message in `ehp`, tenant in `obj`. -/
  | debugDetach
  /-- IMAGE (21 R385). An IMAGE chunk writes the non-CURRENT boot slot and marks it TRIAL. Subject: the message in `ehp`, off in `obj`, chunk in `bytes`. -/
  | image
  /-- ACK (21 R381). A host ACK stops retransmission of the acknowledged module EVENT. Subject: the message in `ehp`. -/
  | ack
  /-- EVENT_RETRANSMIT (21 R381). An unacknowledged module EVENT is retransmitted every 1 ms, at most 64 times. Subject: seq in `obj`, session in `sub`. -/
  | eventRetransmit
  /-- RDMA_WRITE (21 R382). An incoming RDMA WRITE is written into a registered region or NAKed. Subject: region in `obj`, queue pair in `aux`, addr in `val`, bytes in `bytes`. -/
  | rdmaWrite
  /-- RDMA_READ (21 R382). An incoming RDMA READ is served from a registered region or NAKed. Subject: region in `obj`, queue pair in `aux`, addr in `val`, len in `sub`. -/
  | rdmaRead
  /-- SCALEOUT_DOORBELL (22 R405). A producer-index store to a queue pair's doorbell starts its work requests. Subject: qp in `obj`, idx in `val`. -/
  | scaleoutDoorbell
  /-- WORK_REQUEST_COMPLETE (22 R405). When a scale-out request's last byte is performed the port adds -1 at its signal. Subject: qp in `obj`. -/
  | workRequestComplete
  /-- COLD_START (21 R386). A cold start runs ROM, TRAIN, TEST, ZERO and KEYS and brings the host port up. -/
  | coldStart
  /-- WARM_START (21 R386). A warm start runs the start steps with reused training and kept memory. -/
  | warmStart
  /-- START_TIMEOUT (21 R385). A start that does not reach READY within 180 s fails and rolls back. -/
  | startTimeout
  /-- TRIAL_CONFIRM_TIMEOUT (21 R385). A TRIAL image unconfirmed within 600 s is treated as failed at the next start. -/
  | trialConfirmTimeout
  /-- TARGETED_TEST_DONE (21 R388). A targeted test finishes, returning the structure to use or taking the sparing action. Subject: test in `obj`, pass in `flag`. -/
  | targetedTestDone
  /-- POWER_SAMPLE (21 R389). Every 10 us firmware measures power and temperature and adjusts the die gating step. Subject: milliwatts in `obj`, temps in `nats`. -/
  | powerSample
  /-- OVERTEMP_STOP (21 R389). At 115 C the module stops with a fatal power record. Subject: die in `obj`. -/
  | overtempStop
  /-- LINK_DOWN (22 R395). A scale-up link that loses lock or fails 16 replays goes down and routes change within 10 us. Subject: port in `obj`. -/
  | linkDown
  /-- LINK_UP (22 R393). A scale-up port trains, negotiates its rate and is keyed. Subject: port in `obj`, rev in `aux`, fast in `flag`. -/
  | linkUp
  /-- REMOTE_REQUEST (22 R396). A target checks a remote request against its export table and performs it as home, discarding duplicates. Subject: r in `reqs`. -/
  | remoteRequest
  /-- FLIT_RECEIVE (22 R402). A received flit is authenticated and accepted, or discarded and replayed. Subject: port in `obj`, kg in `flag`, authentic in `flag2`, payload in `reqs`. -/
  | flitReceive
  /-- REKEY_DUE (22 R401). A due rekey installs the new key in the other bank at both ends. Subject: port in `obj`, dir in `flag`. -/
  | rekeyDue
  /-- REKEY_INSTALL_ACK (22 R401). On the receiver's install acknowledgement the sender switches its key bank. Subject: port in `obj`, dir in `flag`. -/
  | rekeyInstallAck
  /-- REKEY_OLD_ACKED (22 R401). When every flit sent under the old bank is acknowledged the old bank is erased. Subject: port in `obj`, dir in `flag`. -/
  | rekeyOldAcked
  /-- REKEY_RETRY (22 R401). After a failed key update the rekey is retried after 1 s. Subject: port in `obj`, dir in `flag`. -/
  | rekeyRetry
  /-- BACKLOG_HINT (22 R403). A port backlog above 75 percent for 2 us sends a stall hint, repeated every 5 us. Subject: port in `obj`, peer in `sub`. -/
  | backlogHint
  /-- FWCALL_ANSWER (21 R378). Firmware answers a firmware call and writes each lane's result. Subject: group in `obj`. -/
  | fwcallAnswer
  /-- MBRA_STOP (10 R210). Waits for outstanding work and returns the sequencer to IDLE. -/
  | mbraStop
  /-- STEP_END (18 R342). Row-program step ending the command DONE. -/
  | stepEnd
  /-- STEP_OPEN (18 R342). Row-program step opening the next row in every bank. -/
  | stepOpen
  /-- STEP_CLR (18 R342). Row-program step clearing every accumulator. -/
  | stepClr
  /-- BUDGET_EXHAUSTED (15 R280). A tenant's remaining budget, consumed one unit per group-slot nanosecond, reaches zero and the tenant becomes exhausted until its next refill. Subject: die in `obj`, tenant in `sub`. -/
  | budgetExhausted
  /-- SYNC_HOLD_TIMEOUT (21 R376). A group held on a synchronisation refusal whose modules are not synced again within 10 s has its trap treated as unresolvable. Subject: group in `obj`. -/
  | syncHoldTimeout
  /-- REFRESH_DUE (18 R344). A DRAM refresh of a bank falls due, and is issued in YIELD or postponed while Meridian holds the bank. Subject: stack in `obj`, pch in `sub`, bank in `aux`. -/
  | refreshDue
  /-- BLOCK_LOAD_PERFORMED (10 R205). The vault performs an MLDA or MLDB read, fills the slot with the bytes then present and pins its lines. Subject: team in `obj`, slot in `sub`. -/
  | blockLoadPerformed
  /-- STACK_FAILURE (18 R346). An HBM4E stack fails, and every Meridian command on it ends with ECC and DONE equal to the rows completed. Subject: stack in `obj`. -/
  | stackFailure
  /-- REMOTE_ERROR_NAK (22 R405). A remote error NAK received for a scale-out work request puts the queue pair in error, leaves the signal unraised and writes an error record. Subject: qp in `obj`. -/
  | remoteErrorNak
  /-- DROPPED_FRAME (21 R379). A frame on the host port that is oversized, fragmented, multiply tagged or otherwise not accepted is dropped and counted. Subject: the frame in `bytes`. -/
  | droppedFrame
  deriving DecidableEq, Repr

end Sys2Proof
end

