-- ==== Sys2Proof/Machine/OpcodeMap.lean ====
section
/-! DEFINITION. The opcode map (03): the number of every F64 opcode, what each of its operand fields may
name, where its literal goes, and the constructor of `Instr` that stands for it. The decoder, the
budget check and the lookahead rules all read this one map. -/

namespace Sys2Proof

/-- The F64 opcodes (03 Tables 3-2 to 3-7). `voteMc` is the opcode shared by `VOTE.MASK` and `VOTE.CNT`. -/
inductive Op where
  | iadd | isub | imul | imulh | imad | imadw | idiv | irem | imin | imax | iabs | ineg
  | shl | shr | sar | rol | and | or | xor | andn | not | lea | sel | mov
  | movi | clz | popc | brev | icmp | pset | pand | por | pxor | pnot | pmov | cvt
  | fadd | fsub | fmul | ffma | fmin | fmax | fcmp | frcp | frsq | fsqrt | fexp2 | flog2
  | fsin | fcos | fclass | frnd | hadd2 | hfma2 | badd2 | bfma2 | qadd4 | qmul4 | qcvt | bmm8
  | bmo8 | bscat | bgath | bperm | bfx | bfi | fshl | fshr | matchLanes | vote | voteMc | shfl
  | redux | wadd | wsub | wmul | wfma | wmin | wmax | wexp | wscl | wbcst | wset | wget
  | wsum | wcmp | wsel | wcvt | wfres | wpack | wlen | muelF | muelG | muelRot | fsplatW | ldG
  | ldL | ldV | stG | stL | stV | ldv | stv | ldw | stw | tld | tst | atom
  | atomCas | cwb | cinv | pref | fence | txbegin | txcommit | txabort | txstat | bra | brx | call
  | ret | jenr | jarr | jstr | jclr | yield | nap | exit | spawn | cont | join | barTeam
  | barNum | barTree | trap | fwcall | rdsr | wrsr | clock | bkpt | nop | qbind | qstat | qflush
  | mbar | tsmpW | tups | tsmpF | tfet | tqry | lspres | tcopy | tcopy2d | tcstat | bobjInit | bobjExpect
  | bobjWait | rowCopy | rowFill | rowAnd | rowOr | rowXor | rowNot | rowMaj | rowAllb | rowBcst | rowMac | rowSadd
  | rowRdacc | rowProg | rowWait
  deriving DecidableEq, Repr

/-- Every opcode with its number (03 Tables 3-2 to 3-7). -/
def Op.table : List (Op × Nat) :=
  ([(.iadd, 0x001), (.isub, 0x002), (.imul, 0x003), (.imulh, 0x004), (.imad, 0x005), (.imadw, 0x006), (.idiv, 0x007), (.irem, 0x008)] : List (Op × Nat))
  ++ ([(.imin, 0x009), (.imax, 0x00A), (.iabs, 0x00B), (.ineg, 0x00C), (.shl, 0x010), (.shr, 0x011), (.sar, 0x012), (.rol, 0x013)] : List (Op × Nat))
  ++ ([(.and, 0x018), (.or, 0x019), (.xor, 0x01A), (.andn, 0x01B), (.not, 0x01C), (.lea, 0x020), (.sel, 0x021), (.mov, 0x022)] : List (Op × Nat))
  ++ ([(.movi, 0x023), (.clz, 0x028), (.popc, 0x029), (.brev, 0x02A), (.icmp, 0x030), (.pset, 0x031), (.pand, 0x032), (.por, 0x033)] : List (Op × Nat))
  ++ ([(.pxor, 0x034), (.pnot, 0x035), (.pmov, 0x036), (.cvt, 0x038), (.fadd, 0x100), (.fsub, 0x101), (.fmul, 0x102), (.ffma, 0x103)] : List (Op × Nat))
  ++ ([(.fmin, 0x104), (.fmax, 0x105), (.fcmp, 0x106), (.frcp, 0x108), (.frsq, 0x109), (.fsqrt, 0x10A), (.fexp2, 0x10B), (.flog2, 0x10C)] : List (Op × Nat))
  ++ ([(.fsin, 0x10D), (.fcos, 0x10E), (.fclass, 0x110), (.frnd, 0x111), (.hadd2, 0x180), (.hfma2, 0x181), (.badd2, 0x182), (.bfma2, 0x183)] : List (Op × Nat))
  ++ ([(.qadd4, 0x184), (.qmul4, 0x185), (.qcvt, 0x186), (.bmm8, 0x1C0), (.bmo8, 0x1C1), (.bscat, 0x1C2), (.bgath, 0x1C3), (.bperm, 0x1C4)] : List (Op × Nat))
  ++ ([(.bfx, 0x1C8), (.bfi, 0x1C9), (.fshl, 0x1CA), (.fshr, 0x1CB), (.matchLanes, 0x1D0), (.vote, 0x1D1), (.voteMc, 0x1D2), (.shfl, 0x1D4)] : List (Op × Nat))
  ++ ([(.redux, 0x1D5), (.wadd, 0x200), (.wsub, 0x201), (.wmul, 0x202), (.wfma, 0x203), (.wmin, 0x204), (.wmax, 0x205), (.wexp, 0x206)] : List (Op × Nat))
  ++ ([(.wscl, 0x207), (.wbcst, 0x208), (.wset, 0x209), (.wget, 0x20A), (.wsum, 0x20C), (.wcmp, 0x20D), (.wsel, 0x20E), (.wcvt, 0x210)] : List (Op × Nat))
  ++ ([(.wfres, 0x211), (.wpack, 0x212), (.wlen, 0x213), (.muelF, 0x218), (.muelG, 0x219), (.muelRot, 0x21A), (.fsplatW, 0x220), (.ldG, 0x280)] : List (Op × Nat))
  ++ ([(.ldL, 0x281), (.ldV, 0x282), (.stG, 0x284), (.stL, 0x285), (.stV, 0x286), (.ldv, 0x288), (.stv, 0x289), (.ldw, 0x28A)] : List (Op × Nat))
  ++ ([(.stw, 0x28B), (.tld, 0x28C), (.tst, 0x28D), (.atom, 0x290), (.atomCas, 0x291), (.cwb, 0x298), (.cinv, 0x299), (.pref, 0x29A)] : List (Op × Nat))
  ++ ([(.fence, 0x29C), (.txbegin, 0x2A0), (.txcommit, 0x2A1), (.txabort, 0x2A2), (.txstat, 0x2A3), (.bra, 0x300), (.brx, 0x301), (.call, 0x302)] : List (Op × Nat))
  ++ ([(.ret, 0x303), (.jenr, 0x308), (.jarr, 0x309), (.jstr, 0x30A), (.jclr, 0x30B), (.yield, 0x30C), (.nap, 0x30D), (.exit, 0x30E)] : List (Op × Nat))
  ++ ([(.spawn, 0x310), (.cont, 0x311), (.join, 0x312), (.barTeam, 0x318), (.barNum, 0x319), (.barTree, 0x31A), (.trap, 0x320), (.fwcall, 0x321)] : List (Op × Nat))
  ++ ([(.rdsr, 0x322), (.wrsr, 0x323), (.clock, 0x324), (.bkpt, 0x325), (.nop, 0x33F), (.qbind, 0x340), (.qstat, 0x341), (.qflush, 0x342)] : List (Op × Nat))
  ++ ([(.mbar, 0x360), (.tsmpW, 0x368), (.tups, 0x369), (.tsmpF, 0x36A), (.tfet, 0x36B), (.tqry, 0x36C), (.lspres, 0x36D), (.tcopy, 0x380)] : List (Op × Nat))
  ++ ([(.tcopy2d, 0x381), (.tcstat, 0x382), (.bobjInit, 0x388), (.bobjExpect, 0x389), (.bobjWait, 0x38A), (.rowCopy, 0x3A0), (.rowFill, 0x3A1), (.rowAnd, 0x3A2)] : List (Op × Nat))
  ++ ([(.rowOr, 0x3A3), (.rowXor, 0x3A4), (.rowNot, 0x3A5), (.rowMaj, 0x3A6), (.rowAllb, 0x3A7), (.rowBcst, 0x3A8), (.rowMac, 0x3A9), (.rowSadd, 0x3AA)] : List (Op × Nat))
  ++ ([(.rowRdacc, 0x3AB), (.rowProg, 0x3AC), (.rowWait, 0x3AD)] : List (Op × Nat))

/-- The number of an opcode (03 Tables 3-2 to 3-7). -/
def Op.code : Op → Nat
  | .iadd => 0x001
  | .isub => 0x002
  | .imul => 0x003
  | .imulh => 0x004
  | .imad => 0x005
  | .imadw => 0x006
  | .idiv => 0x007
  | .irem => 0x008
  | .imin => 0x009
  | .imax => 0x00A
  | .iabs => 0x00B
  | .ineg => 0x00C
  | .shl => 0x010
  | .shr => 0x011
  | .sar => 0x012
  | .rol => 0x013
  | .and => 0x018
  | .or => 0x019
  | .xor => 0x01A
  | .andn => 0x01B
  | .not => 0x01C
  | .lea => 0x020
  | .sel => 0x021
  | .mov => 0x022
  | .movi => 0x023
  | .clz => 0x028
  | .popc => 0x029
  | .brev => 0x02A
  | .icmp => 0x030
  | .pset => 0x031
  | .pand => 0x032
  | .por => 0x033
  | .pxor => 0x034
  | .pnot => 0x035
  | .pmov => 0x036
  | .cvt => 0x038
  | .fadd => 0x100
  | .fsub => 0x101
  | .fmul => 0x102
  | .ffma => 0x103
  | .fmin => 0x104
  | .fmax => 0x105
  | .fcmp => 0x106
  | .frcp => 0x108
  | .frsq => 0x109
  | .fsqrt => 0x10A
  | .fexp2 => 0x10B
  | .flog2 => 0x10C
  | .fsin => 0x10D
  | .fcos => 0x10E
  | .fclass => 0x110
  | .frnd => 0x111
  | .hadd2 => 0x180
  | .hfma2 => 0x181
  | .badd2 => 0x182
  | .bfma2 => 0x183
  | .qadd4 => 0x184
  | .qmul4 => 0x185
  | .qcvt => 0x186
  | .bmm8 => 0x1C0
  | .bmo8 => 0x1C1
  | .bscat => 0x1C2
  | .bgath => 0x1C3
  | .bperm => 0x1C4
  | .bfx => 0x1C8
  | .bfi => 0x1C9
  | .fshl => 0x1CA
  | .fshr => 0x1CB
  | .matchLanes => 0x1D0
  | .vote => 0x1D1
  | .voteMc => 0x1D2
  | .shfl => 0x1D4
  | .redux => 0x1D5
  | .wadd => 0x200
  | .wsub => 0x201
  | .wmul => 0x202
  | .wfma => 0x203
  | .wmin => 0x204
  | .wmax => 0x205
  | .wexp => 0x206
  | .wscl => 0x207
  | .wbcst => 0x208
  | .wset => 0x209
  | .wget => 0x20A
  | .wsum => 0x20C
  | .wcmp => 0x20D
  | .wsel => 0x20E
  | .wcvt => 0x210
  | .wfres => 0x211
  | .wpack => 0x212
  | .wlen => 0x213
  | .muelF => 0x218
  | .muelG => 0x219
  | .muelRot => 0x21A
  | .fsplatW => 0x220
  | .ldG => 0x280
  | .ldL => 0x281
  | .ldV => 0x282
  | .stG => 0x284
  | .stL => 0x285
  | .stV => 0x286
  | .ldv => 0x288
  | .stv => 0x289
  | .ldw => 0x28A
  | .stw => 0x28B
  | .tld => 0x28C
  | .tst => 0x28D
  | .atom => 0x290
  | .atomCas => 0x291
  | .cwb => 0x298
  | .cinv => 0x299
  | .pref => 0x29A
  | .fence => 0x29C
  | .txbegin => 0x2A0
  | .txcommit => 0x2A1
  | .txabort => 0x2A2
  | .txstat => 0x2A3
  | .bra => 0x300
  | .brx => 0x301
  | .call => 0x302
  | .ret => 0x303
  | .jenr => 0x308
  | .jarr => 0x309
  | .jstr => 0x30A
  | .jclr => 0x30B
  | .yield => 0x30C
  | .nap => 0x30D
  | .exit => 0x30E
  | .spawn => 0x310
  | .cont => 0x311
  | .join => 0x312
  | .barTeam => 0x318
  | .barNum => 0x319
  | .barTree => 0x31A
  | .trap => 0x320
  | .fwcall => 0x321
  | .rdsr => 0x322
  | .wrsr => 0x323
  | .clock => 0x324
  | .bkpt => 0x325
  | .nop => 0x33F
  | .qbind => 0x340
  | .qstat => 0x341
  | .qflush => 0x342
  | .mbar => 0x360
  | .tsmpW => 0x368
  | .tups => 0x369
  | .tsmpF => 0x36A
  | .tfet => 0x36B
  | .tqry => 0x36C
  | .lspres => 0x36D
  | .tcopy => 0x380
  | .tcopy2d => 0x381
  | .tcstat => 0x382
  | .bobjInit => 0x388
  | .bobjExpect => 0x389
  | .bobjWait => 0x38A
  | .rowCopy => 0x3A0
  | .rowFill => 0x3A1
  | .rowAnd => 0x3A2
  | .rowOr => 0x3A3
  | .rowXor => 0x3A4
  | .rowNot => 0x3A5
  | .rowMaj => 0x3A6
  | .rowAllb => 0x3A7
  | .rowBcst => 0x3A8
  | .rowMac => 0x3A9
  | .rowSadd => 0x3AA
  | .rowRdacc => 0x3AB
  | .rowProg => 0x3AC
  | .rowWait => 0x3AD

/-- The opcode of a number; none where the number is unassigned (03 R50). -/
def Op.ofCode (n : Nat) : Option Op :=
  (Op.table.find? (fun x => x.2 == n)).map (·.1)

namespace Full

/-- `FAM`, the low four bits of the modifier (02 Table 2-4). -/
def fam (f : Full) : Nat := f.mod.toNat % 16
/-- `XA` (02 Table 2-4). -/
def xa (f : Full) : Bool := f.mod.getLsbD 4
/-- `XD` (02 Table 2-4). -/
def xd (f : Full) : Bool := f.mod.getLsbD 5
/-- The system register number of `RDSR` and `WRSR` (03 Table 3-8). -/
def sr (f : Full) : Nat := f.fam * 256 + f.sb.toNat
/-- The length in bytes of the instruction that holds these fields (02 Table 2-1). -/
def size (f : Full) : Nat := if f.lit.isSome then 12 else 8

end Full

/-- The constructor that an opcode and its fields stand for. Four opcodes have a constructor for each
of their forms: by `FAM` (06 R105, 09 R183, R189) or by the system register number (10 R199, 11 R228). -/
def Instr.ofFull (op : Op) (f : Full) : Instr :=
  match op with
  | .iadd => .iadd f
  | .isub => .isub f
  | .imul => .imul f
  | .imulh => .imulh f
  | .imad => .imad f
  | .imadw => .imadw f
  | .idiv => .idiv f
  | .irem => .irem f
  | .imin => .imin f
  | .imax => .imax f
  | .iabs => .iabs f
  | .ineg => .ineg f
  | .shl => .shl f
  | .shr => .shr f
  | .sar => .sar f
  | .rol => .rol f
  | .and => .and f
  | .or => .or f
  | .xor => .xor f
  | .andn => .andn f
  | .not => .not f
  | .lea => .lea f
  | .sel => .sel f
  | .mov => .mov f
  | .movi => .movi f
  | .clz => .clz f
  | .popc => .popc f
  | .brev => .brev f
  | .icmp => .icmp f
  | .pset => .pset f
  | .pand => .pand f
  | .por => .por f
  | .pxor => .pxor f
  | .pnot => .pnot f
  | .pmov => .pmov f
  | .cvt => .cvt f
  | .fadd => .fadd f
  | .fsub => .fsub f
  | .fmul => .fmul f
  | .ffma => .ffma f
  | .fmin => .fmin f
  | .fmax => .fmax f
  | .fcmp => .fcmp f
  | .frcp => .frcp f
  | .frsq => .frsq f
  | .fsqrt => .fsqrt f
  | .fexp2 => .fexp2 f
  | .flog2 => .flog2 f
  | .fsin => .fsin f
  | .fcos => .fcos f
  | .fclass => .fclass f
  | .frnd => .frnd f
  | .hadd2 => .hadd2 f
  | .hfma2 => .hfma2 f
  | .badd2 => .badd2 f
  | .bfma2 => .bfma2 f
  | .qadd4 => .qadd4 f
  | .qmul4 => .qmul4 f
  | .qcvt => .qcvt f
  | .bmm8 => .bmm8 f
  | .bmo8 => .bmo8 f
  | .bscat => .bscat f
  | .bgath => .bgath f
  | .bperm => .bperm f
  | .bfx => .bfx f
  | .bfi => .bfi f
  | .fshl => .fshl f
  | .fshr => .fshr f
  | .matchLanes => .matchLanes f
  | .vote => .vote f
  | .voteMc => if f.fam % 2 == 0 then .voteMask f else .voteCnt f
  | .shfl => .shfl f
  | .redux => .redux f
  | .wadd => .wadd f
  | .wsub => .wsub f
  | .wmul => .wmul f
  | .wfma => .wfma f
  | .wmin => .wmin f
  | .wmax => .wmax f
  | .wexp => .wexp f
  | .wscl => .wscl f
  | .wbcst => .wbcst f
  | .wset => .wset f
  | .wget => .wget f
  | .wsum => .wsum f
  | .wcmp => .wcmp f
  | .wsel => .wsel f
  | .wcvt => .wcvt f
  | .wfres => .wfres f
  | .wpack => .wpack f
  | .wlen => .wlen f
  | .muelF => .muelF f
  | .muelG => .muelG f
  | .muelRot => .muelRot f
  | .fsplatW => .fsplatW f
  | .ldG => .ldG f
  | .ldL => .ldL f
  | .ldV => .ldV f
  | .stG => .stG f
  | .stL => .stL f
  | .stV => .stV f
  | .ldv => .ldv f
  | .stv => .stv f
  | .ldw => .ldw f
  | .stw => .stw f
  | .tld => .tld f
  | .tst => .tst f
  | .atom => .atom f
  | .atomCas => .atomCas f
  | .cwb => .cwb f
  | .cinv => .cinv f
  | .pref => .pref f
  | .fence => .fence f
  | .txbegin => .txbegin f
  | .txcommit => .txcommit f
  | .txabort => .txabort f
  | .txstat => .txstat f
  | .bra => .bra f
  | .brx => .brx f
  | .call => .call f
  | .ret => .ret f
  | .jenr => .jenr f
  | .jarr => .jarr f
  | .jstr => .jstr f
  | .jclr => .jclr f
  | .yield => .yield f
  | .nap => .nap f
  | .exit => .exit f
  | .spawn => .spawn f
  | .cont => .cont f
  | .join => .join f
  | .barTeam => .barTeam f
  | .barNum => if f.fam % 4 == 0 then .barNumMeet f else if f.fam % 4 == 1 then .barNumPost f else .barNumWait f
  | .barTree => .barTree f
  | .trap => .trap f
  | .fwcall => .fwcall f
  | .rdsr => .rdsr f
  | .wrsr => if f.sr == 0x050 then .wrsrMseqpc f else if f.sr == 0x058 then .wrsrTexbase f else .wrsr f
  | .clock => if f.fam % 2 == 0 then .clockTime f else .clockCyc f
  | .bkpt => .bkpt f
  | .nop => .nop f
  | .qbind => .qbind f
  | .qstat => .qstat f
  | .qflush => .qflush f
  | .mbar => .mbar f
  | .tsmpW => .tsmpW f
  | .tups => .tups f
  | .tsmpF => .tsmpF f
  | .tfet => .tfet f
  | .tqry => .tqry f
  | .lspres => .lspres f
  | .tcopy => .tcopy f
  | .tcopy2d => .tcopy2d f
  | .tcstat => .tcstat f
  | .bobjInit => .bobjInit f
  | .bobjExpect => .bobjExpect f
  | .bobjWait => .bobjWait f
  | .rowCopy => .rowCopy f
  | .rowFill => .rowFill f
  | .rowAnd => .rowAnd f
  | .rowOr => .rowOr f
  | .rowXor => .rowXor f
  | .rowNot => .rowNot f
  | .rowMaj => .rowMaj f
  | .rowAllb => .rowAllb f
  | .rowBcst => .rowBcst f
  | .rowMac => .rowMac f
  | .rowSadd => .rowSadd f
  | .rowRdacc => .rowRdacc f
  | .rowProg => .rowProg f
  | .rowWait => .rowWait f

/-- The opcode and fields of a lane instruction that has the full form. -/
def Instr.full? : Instr → Option (Op × Full)
  | .iadd f => some (.iadd, f)
  | .isub f => some (.isub, f)
  | .imul f => some (.imul, f)
  | .imulh f => some (.imulh, f)
  | .imad f => some (.imad, f)
  | .imadw f => some (.imadw, f)
  | .idiv f => some (.idiv, f)
  | .irem f => some (.irem, f)
  | .imin f => some (.imin, f)
  | .imax f => some (.imax, f)
  | .iabs f => some (.iabs, f)
  | .ineg f => some (.ineg, f)
  | .shl f => some (.shl, f)
  | .shr f => some (.shr, f)
  | .sar f => some (.sar, f)
  | .rol f => some (.rol, f)
  | .and f => some (.and, f)
  | .or f => some (.or, f)
  | .xor f => some (.xor, f)
  | .andn f => some (.andn, f)
  | .not f => some (.not, f)
  | .lea f => some (.lea, f)
  | .sel f => some (.sel, f)
  | .mov f => some (.mov, f)
  | .movi f => some (.movi, f)
  | .clz f => some (.clz, f)
  | .popc f => some (.popc, f)
  | .brev f => some (.brev, f)
  | .icmp f => some (.icmp, f)
  | .pset f => some (.pset, f)
  | .pand f => some (.pand, f)
  | .por f => some (.por, f)
  | .pxor f => some (.pxor, f)
  | .pnot f => some (.pnot, f)
  | .pmov f => some (.pmov, f)
  | .cvt f => some (.cvt, f)
  | .fadd f => some (.fadd, f)
  | .fsub f => some (.fsub, f)
  | .fmul f => some (.fmul, f)
  | .ffma f => some (.ffma, f)
  | .fmin f => some (.fmin, f)
  | .fmax f => some (.fmax, f)
  | .fcmp f => some (.fcmp, f)
  | .frcp f => some (.frcp, f)
  | .frsq f => some (.frsq, f)
  | .fsqrt f => some (.fsqrt, f)
  | .fexp2 f => some (.fexp2, f)
  | .flog2 f => some (.flog2, f)
  | .fsin f => some (.fsin, f)
  | .fcos f => some (.fcos, f)
  | .fclass f => some (.fclass, f)
  | .frnd f => some (.frnd, f)
  | .hadd2 f => some (.hadd2, f)
  | .hfma2 f => some (.hfma2, f)
  | .badd2 f => some (.badd2, f)
  | .bfma2 f => some (.bfma2, f)
  | .qadd4 f => some (.qadd4, f)
  | .qmul4 f => some (.qmul4, f)
  | .qcvt f => some (.qcvt, f)
  | .bmm8 f => some (.bmm8, f)
  | .bmo8 f => some (.bmo8, f)
  | .bscat f => some (.bscat, f)
  | .bgath f => some (.bgath, f)
  | .bperm f => some (.bperm, f)
  | .bfx f => some (.bfx, f)
  | .bfi f => some (.bfi, f)
  | .fshl f => some (.fshl, f)
  | .fshr f => some (.fshr, f)
  | .matchLanes f => some (.matchLanes, f)
  | .vote f => some (.vote, f)
  | .voteMask f => some (.voteMc, f)
  | .voteCnt f => some (.voteMc, f)
  | .shfl f => some (.shfl, f)
  | .redux f => some (.redux, f)
  | .wadd f => some (.wadd, f)
  | .wsub f => some (.wsub, f)
  | .wmul f => some (.wmul, f)
  | .wfma f => some (.wfma, f)
  | .wmin f => some (.wmin, f)
  | .wmax f => some (.wmax, f)
  | .wexp f => some (.wexp, f)
  | .wscl f => some (.wscl, f)
  | .wbcst f => some (.wbcst, f)
  | .wset f => some (.wset, f)
  | .wget f => some (.wget, f)
  | .wsum f => some (.wsum, f)
  | .wcmp f => some (.wcmp, f)
  | .wsel f => some (.wsel, f)
  | .wcvt f => some (.wcvt, f)
  | .wfres f => some (.wfres, f)
  | .wpack f => some (.wpack, f)
  | .wlen f => some (.wlen, f)
  | .muelF f => some (.muelF, f)
  | .muelG f => some (.muelG, f)
  | .muelRot f => some (.muelRot, f)
  | .fsplatW f => some (.fsplatW, f)
  | .ldG f => some (.ldG, f)
  | .ldL f => some (.ldL, f)
  | .ldV f => some (.ldV, f)
  | .stG f => some (.stG, f)
  | .stL f => some (.stL, f)
  | .stV f => some (.stV, f)
  | .ldv f => some (.ldv, f)
  | .stv f => some (.stv, f)
  | .ldw f => some (.ldw, f)
  | .stw f => some (.stw, f)
  | .tld f => some (.tld, f)
  | .tst f => some (.tst, f)
  | .atom f => some (.atom, f)
  | .atomCas f => some (.atomCas, f)
  | .cwb f => some (.cwb, f)
  | .cinv f => some (.cinv, f)
  | .pref f => some (.pref, f)
  | .fence f => some (.fence, f)
  | .txbegin f => some (.txbegin, f)
  | .txcommit f => some (.txcommit, f)
  | .txabort f => some (.txabort, f)
  | .txstat f => some (.txstat, f)
  | .bra f => some (.bra, f)
  | .brx f => some (.brx, f)
  | .call f => some (.call, f)
  | .ret f => some (.ret, f)
  | .jenr f => some (.jenr, f)
  | .jarr f => some (.jarr, f)
  | .jstr f => some (.jstr, f)
  | .jclr f => some (.jclr, f)
  | .yield f => some (.yield, f)
  | .nap f => some (.nap, f)
  | .exit f => some (.exit, f)
  | .spawn f => some (.spawn, f)
  | .cont f => some (.cont, f)
  | .join f => some (.join, f)
  | .barTeam f => some (.barTeam, f)
  | .barNumMeet f => some (.barNum, f)
  | .barNumPost f => some (.barNum, f)
  | .barNumWait f => some (.barNum, f)
  | .barTree f => some (.barTree, f)
  | .trap f => some (.trap, f)
  | .fwcall f => some (.fwcall, f)
  | .rdsr f => some (.rdsr, f)
  | .wrsr f => some (.wrsr, f)
  | .wrsrMseqpc f => some (.wrsr, f)
  | .wrsrTexbase f => some (.wrsr, f)
  | .clockTime f => some (.clock, f)
  | .clockCyc f => some (.clock, f)
  | .bkpt f => some (.bkpt, f)
  | .nop f => some (.nop, f)
  | .qbind f => some (.qbind, f)
  | .qstat f => some (.qstat, f)
  | .qflush f => some (.qflush, f)
  | .mbar f => some (.mbar, f)
  | .tsmpW f => some (.tsmpW, f)
  | .tups f => some (.tups, f)
  | .tsmpF f => some (.tsmpF, f)
  | .tfet f => some (.tfet, f)
  | .tqry f => some (.tqry, f)
  | .lspres f => some (.lspres, f)
  | .tcopy f => some (.tcopy, f)
  | .tcopy2d f => some (.tcopy2d, f)
  | .tcstat f => some (.tcstat, f)
  | .bobjInit f => some (.bobjInit, f)
  | .bobjExpect f => some (.bobjExpect, f)
  | .bobjWait f => some (.bobjWait, f)
  | .rowCopy f => some (.rowCopy, f)
  | .rowFill f => some (.rowFill, f)
  | .rowAnd f => some (.rowAnd, f)
  | .rowOr f => some (.rowOr, f)
  | .rowXor f => some (.rowXor, f)
  | .rowNot f => some (.rowNot, f)
  | .rowMaj f => some (.rowMaj, f)
  | .rowAllb f => some (.rowAllb, f)
  | .rowBcst f => some (.rowBcst, f)
  | .rowMac f => some (.rowMac, f)
  | .rowSadd f => some (.rowSadd, f)
  | .rowRdacc f => some (.rowRdacc, f)
  | .rowProg f => some (.rowProg, f)
  | .rowWait f => some (.rowWait, f)
  | _ => none

/-- The compact opcodes with their numbers and the F64 opcodes they stand for (03 R55). -/
def COp.table : List (COp × Nat × Op) :=
  ([(.iadd, 0x01, .iadd), (.isub, 0x02, .isub), (.imul, 0x03, .imul), (.imin, 0x04, .imin), (.imax, 0x05, .imax)] : List (COp × Nat × Op))
  ++ ([(.shl, 0x06, .shl), (.shr, 0x07, .shr), (.sar, 0x08, .sar), (.and, 0x09, .and), (.or, 0x0A, .or)] : List (COp × Nat × Op))
  ++ ([(.xor, 0x0B, .xor), (.andn, 0x0C, .andn), (.rol, 0x0D, .rol), (.fadd, 0x10, .fadd), (.fsub, 0x11, .fsub)] : List (COp × Nat × Op))
  ++ ([(.fmul, 0x12, .fmul), (.fmin, 0x13, .fmin), (.fmax, 0x14, .fmax), (.hadd2, 0x18, .hadd2), (.badd2, 0x19, .badd2)] : List (COp × Nat × Op))
  ++ ([(.qadd4, 0x1A, .qadd4), (.qmul4, 0x1B, .qmul4), (.pand, 0x20, .pand), (.por, 0x21, .por), (.pxor, 0x22, .pxor)] : List (COp × Nat × Op))
  ++ ([(.wadd, 0x28, .wadd), (.wsub, 0x29, .wsub), (.wmul, 0x2A, .wmul), (.wmin, 0x2B, .wmin), (.wmax, 0x2C, .wmax)] : List (COp × Nat × Op))

/-- The number of a compact opcode (03 R55). -/
def COp.code : COp → Nat
  | .iadd => 0x01
  | .isub => 0x02
  | .imul => 0x03
  | .imin => 0x04
  | .imax => 0x05
  | .shl => 0x06
  | .shr => 0x07
  | .sar => 0x08
  | .and => 0x09
  | .or => 0x0A
  | .xor => 0x0B
  | .andn => 0x0C
  | .rol => 0x0D
  | .fadd => 0x10
  | .fsub => 0x11
  | .fmul => 0x12
  | .fmin => 0x13
  | .fmax => 0x14
  | .hadd2 => 0x18
  | .badd2 => 0x19
  | .qadd4 => 0x1A
  | .qmul4 => 0x1B
  | .pand => 0x20
  | .por => 0x21
  | .pxor => 0x22
  | .wadd => 0x28
  | .wsub => 0x29
  | .wmul => 0x2A
  | .wmin => 0x2B
  | .wmax => 0x2C

/-- The F64 opcode that a compact opcode stands for (03 R55). -/
def COp.op : COp → Op
  | .iadd => .iadd
  | .isub => .isub
  | .imul => .imul
  | .imin => .imin
  | .imax => .imax
  | .shl => .shl
  | .shr => .shr
  | .sar => .sar
  | .and => .and
  | .or => .or
  | .xor => .xor
  | .andn => .andn
  | .rol => .rol
  | .fadd => .fadd
  | .fsub => .fsub
  | .fmul => .fmul
  | .fmin => .fmin
  | .fmax => .fmax
  | .hadd2 => .hadd2
  | .badd2 => .badd2
  | .qadd4 => .qadd4
  | .qmul4 => .qmul4
  | .pand => .pand
  | .por => .por
  | .pxor => .pxor
  | .wadd => .wadd
  | .wsub => .wsub
  | .wmul => .wmul
  | .wmin => .wmin
  | .wmax => .wmax

/-- The compact opcode of a number; none where it is unassigned (03 R55). -/
def COp.ofCode (n : Nat) : Option COp :=
  (COp.table.find? (fun x => x.2.1 == n)).map (·.1)

/-- The pairable class: the codes marked p in Tables 3-2 and 3-3 (03 R55). -/
def COp.pairable (c : COp) : Bool := c.code < 0x28

/-- The constructor that a C32 instruction stands for. -/
def Instr.ofComp (c : COp) (x : Comp) : Instr :=
  match c with
  | .iadd => .iaddC32 x
  | .isub => .isubC32 x
  | .imul => .imulC32 x
  | .imin => .iminC32 x
  | .imax => .imaxC32 x
  | .shl => .shlC32 x
  | .shr => .shrC32 x
  | .sar => .sarC32 x
  | .and => .andC32 x
  | .or => .orC32 x
  | .xor => .xorC32 x
  | .andn => .andnC32 x
  | .rol => .rolC32 x
  | .fadd => .faddC32 x
  | .fsub => .fsubC32 x
  | .fmul => .fmulC32 x
  | .fmin => .fminC32 x
  | .fmax => .fmaxC32 x
  | .hadd2 => .hadd2C32 x
  | .badd2 => .badd2C32 x
  | .qadd4 => .qadd4C32 x
  | .qmul4 => .qmul4C32 x
  | .pand => .pandC32 x
  | .por => .porC32 x
  | .pxor => .pxorC32 x
  | .wadd => .waddC32 x
  | .wsub => .wsubC32 x
  | .wmul => .wmulC32 x
  | .wmin => .wminC32 x
  | .wmax => .wmaxC32 x

/-- The compact opcode and fields of a C32 instruction. -/
def Instr.comp? : Instr → Option (COp × Comp)
  | .iaddC32 x => some (.iadd, x)
  | .isubC32 x => some (.isub, x)
  | .imulC32 x => some (.imul, x)
  | .iminC32 x => some (.imin, x)
  | .imaxC32 x => some (.imax, x)
  | .shlC32 x => some (.shl, x)
  | .shrC32 x => some (.shr, x)
  | .sarC32 x => some (.sar, x)
  | .andC32 x => some (.and, x)
  | .orC32 x => some (.or, x)
  | .xorC32 x => some (.xor, x)
  | .andnC32 x => some (.andn, x)
  | .rolC32 x => some (.rol, x)
  | .faddC32 x => some (.fadd, x)
  | .fsubC32 x => some (.fsub, x)
  | .fmulC32 x => some (.fmul, x)
  | .fminC32 x => some (.fmin, x)
  | .fmaxC32 x => some (.fmax, x)
  | .hadd2C32 x => some (.hadd2, x)
  | .badd2C32 x => some (.badd2, x)
  | .qadd4C32 x => some (.qadd4, x)
  | .qmul4C32 x => some (.qmul4, x)
  | .pandC32 x => some (.pand, x)
  | .porC32 x => some (.por, x)
  | .pxorC32 x => some (.pxor, x)
  | .waddC32 x => some (.wadd, x)
  | .wsubC32 x => some (.wsub, x)
  | .wmulC32 x => some (.wmul, x)
  | .wminC32 x => some (.wmin, x)
  | .wmaxC32 x => some (.wmax, x)
  | _ => none

/-- The F64 fields that a C32 instruction expands to (02 R37, 03 R55). -/
def Comp.expand (x : Comp) : Full :=
  { as := x.as, dst := x.dst, sa := x.dst, sb := x.src, sc := 0, gp := x.gp.setWidth 6, gn := x.gn,
    la := 0, mod := x.mod.setWidth 6, lit := none }

/-- The F64 fields that one half of a P64 pair expands to (02 R38, 03 R55). -/
def Half.expand (as : Bool) (h : Half) : Full :=
  { as := as, dst := h.dst, sa := h.dst, sb := h.src, sc := 0, gp := h.gp.setWidth 6, gn := h.gn,
    la := 0, mod := h.mod.setWidth 6, lit := none }

/-- What one operand field may name (02 Table 2-3, 03 Table 3-1). `g n a conv`: a run of `n` general
registers whose first number is a multiple of `a`; `conv` where `XA` or `XD` may convert the field. -/
inductive Cls where
  | unused
  | g (n a : Nat) (conv : Bool)
  | p (dst : Bool)
  | w (n a : Nat)
  | j
  | imm (lo hi : Nat)
  | cvt
  | raw
  deriving DecidableEq, Repr

/-- Where the literal of an L96 instruction goes (03 Table 3-1); `br` replaces `SC` and needs a zero
`SB` (03 R51). -/
inductive Lit where
  | no | b | c | m | br
  deriving DecidableEq, Repr

/-- How the memory operand's `SC` is read (07 Table 7-1, R130 to R133, 11 R222): `here` names the
space by the opcode; `wide` by `SPC`; `line` by `SPC` with any hint; `pres` is that of `LSPRES`. -/
inductive MemRule where
  | no | glob | here | wide | line | atom | cas | pres
  deriving DecidableEq, Repr

/-- What the map gives for an opcode with a given modifier. `dr`: the `DST` field is read;
`dw`: it is written. -/
structure Shape where
  dst   : Cls := .unused
  sa    : Cls := .unused
  sb    : Cls := .unused
  sc    : Cls := .unused
  lit   : Lit := .no
  long  : Bool := false
  famOk : Bool
  nform : Bool := false
  dr    : Bool := false
  dw    : Bool := true
  mem   : MemRule := .no
  deriving DecidableEq, Repr

/-- The width of an integer type code (05 Table 5-1). -/
def tyWidth (c : Nat) : Nat :=
  if c == 2 || c == 3 then 64 else if c == 4 || c == 5 then 16 else if c == 6 || c == 7 then 8 else 32

/-- A general-register field of a given width in bits: one register, or a pair for 64 (03 code G). -/
def gW (w : Nat) : Cls := if w == 64 then .g 2 2 true else .g 1 1 true
/-- One general register (code G of a 32-bit type). -/
def g1 : Cls := .g 1 1 true
/-- A pair (code G2). -/
def g2 : Cls := .g 2 2 true

/-- The width in bits of a `CVT` type code (05 Table 5-5). -/
def cvtWidth (c : Nat) : Nat :=
  if c == 3 || c == 7 then 64 else 32

/-- Whether a `CVT` type code is a floating type (05 Table 5-5); the codes that name no type count as one when `FAM` is
checked (assumption log 85). -/
def cvtFloat (c : Nat) : Bool := 8 ≤ c

/-- The run length of the wide and tile families (07 R127). -/
def runLen (f : Full) : Nat := 2 ^ (f.fam % 4)

/-- A register form of three general operands with an optional literal for the second source. -/
def Shape.g3 (w : Nat) (lit : Lit) (ok : Bool) : Shape :=
  { dst := gW w, sa := gW w, sb := gW w, lit := lit, famOk := ok }

/-- A form with one memory operand (07 R122). -/
def Shape.memop (dst : Cls) (rule : MemRule) (ok : Bool) (long dr dw : Bool) : Shape :=
  { dst := dst, sa := .raw, sb := .raw, sc := .raw, lit := .m, long := long, famOk := ok, dr := dr, dw := dw,
    mem := rule }

/-- The fields of every opcode (03 Tables 3-2 to 3-7), with the widths that the modifier gives and the
`FAM` values that the opcode's own rule defines (03 R52). -/
def Op.shape (op : Op) (f : Full) : Shape :=
  let fam := f.fam
  let t := fam % 8
  let w := tyWidth t
  let rnd := fam ≤ 4
  let rnd3 := t ≤ 4
  let z := fam == 0
  let x2 := fam == 0 || fam == 2
  match op with
  | .iadd | .isub => .g3 w .b true
  | .imul | .imulh | .idiv | .irem | .imin | .imax => .g3 w .b (fam < 8)
  | .imad => { dst := gW w, sa := gW w, sb := gW w, sc := gW w, lit := .c, famOk := fam < 8 }
  | .imadw => { dst := g2, sa := g1, sb := g1, sc := g2, famOk := fam < 2 }
  | .iabs => { dst := gW w, sa := gW w, famOk := fam % 2 == 0 }
  | .ineg => { dst := gW w, sa := gW w, famOk := true }
  | .shl | .shr | .sar | .rol | .and | .or | .xor | .andn => .g3 w .b x2
  | .not | .mov | .brev => { dst := gW w, sa := gW w, famOk := x2 }
  | .lea => { Shape.memop g2 .glob (fam < 6) false false true with long := false }
  | .sel => { dst := gW w, sa := gW w, sb := gW w, sc := .p false, lit := .b, famOk := x2 }
  | .movi => { dst := gW w, sb := .imm 0 255, lit := .b, famOk := x2 }
  | .clz | .popc => { dst := g1, sa := gW w, famOk := x2 }
  | .icmp => { dst := .p true, sa := gW (tyWidth (fam % 4)), sb := gW (tyWidth (fam % 4)), lit := .b, famOk := true }
  | .pset => { dst := .p true, sb := .imm 0 1, famOk := z }
  | .pand | .por | .pxor => { dst := .p true, sa := .p false, sb := .p false, famOk := z }
  | .pnot | .pmov => { dst := .p true, sa := .p false, famOk := z }
  | .cvt =>
    let dt := f.sc.toNat / 16
    let st := f.sc.toNat % 16
    { dst := gW (cvtWidth dt), sa := gW (cvtWidth st), sc := .cvt,
      famOk := if cvtFloat dt || cvtFloat st then rnd else z }
  | .fadd | .fsub | .fmul => .g3 32 .b rnd
  | .ffma => { dst := g1, sa := g1, sb := g1, sc := g1, lit := .c, famOk := rnd }
  | .fmin | .fmax => .g3 32 .b z
  | .fcmp => { dst := .p true, sa := g1, sb := g1, lit := .b, famOk := rnd }
  | .frcp | .frsq | .fsqrt | .fexp2 | .flog2 | .fsin | .fcos => { dst := g1, sa := g1, long := true, famOk := rnd }
  | .fclass => { dst := g1, sa := g1, famOk := z }
  | .frnd => { dst := g1, sa := g1, famOk := rnd }
  | .hadd2 | .badd2 => .g3 32 .b rnd
  | .hfma2 | .bfma2 => { dst := g1, sa := g1, sb := g1, sc := g1, lit := .c, famOk := rnd }
  | .qadd4 | .qmul4 => .g3 32 .b rnd3
  | .qcvt => .g3 32 .no rnd3
  | .bmm8 | .bmo8 | .bscat | .bgath => .g3 64 .no z
  | .bperm => { dst := g2, sa := g2, sb := .g 12 4 false, famOk := z }
  | .bfx => { dst := g1, sa := g1, sb := g1, sc := g1, famOk := fam < 2 }
  | .bfi | .fshl | .fshr => { dst := g1, sa := g1, sb := g1, sc := g1, famOk := z }
  | .matchLanes => { dst := g1, sa := if fam == 2 then g2 else g1, famOk := fam < 3 }
  | .vote => { dst := .p true, sa := .p false, sb := .imm 0 34, famOk := z }
  | .voteMc => { dst := g1, sa := .p false, famOk := fam < 2 }
  | .shfl => .g3 32 .b (fam % 4 < 3 || fam == 3)
  | .redux => { dst := g1, sa := g1, famOk := true }
  | .wadd | .wsub | .wmul => { dst := .w 1 1, sa := .w 1 1, sb := .w 1 1, famOk := rnd }
  | .wfma => { dst := .w 1 1, sa := .w 1 1, sb := .w 1 1, sc := .w 1 1, famOk := rnd }
  | .wmin | .wmax => { dst := .w 1 1, sa := .w 1 1, sb := .w 1 1, famOk := z }
  | .wexp => { dst := .w 1 1, sa := .w 1 1, long := true, famOk := rnd }
  | .wscl => { dst := .w 1 1, sa := .w 1 1, sb := g1, lit := .b, famOk := rnd }
  | .wbcst => { dst := .w 1 1, sa := g1, famOk := z }
  | .wset => { dst := .w 1 1, sa := .w 1 1, sb := g1, sc := .imm 0 7, famOk := z }
  | .wget => { dst := g1, sa := .w 1 1, sb := .imm 0 7, famOk := z }
  | .wsum => { dst := g1, sa := .w 1 1, famOk := rnd }
  | .wcmp => { dst := g1, sa := .w 1 1, sb := .w 1 1, famOk := rnd }
  | .wsel => { dst := .w 1 1, sa := .w 1 1, sb := .w 1 1, sc := g1, famOk := z }
  | .wcvt => { dst := .w 1 1, sa := .w 1 1, famOk := rnd3 }
  | .wfres => { dst := .w 4 4, sa := .w 1 1, sb := .w 1 1, famOk := rnd }
  | .wpack => { dst := .g 4 4 false, sa := .w 1 1, famOk := rnd }
  | .wlen => { dst := g1, famOk := z }
  | .muelF => { dst := .w 4 4, sa := .w 4 4, sb := .w 4 4, famOk := rnd }
  | .muelG => { dst := .w 4 4, sa := .w 16 16, sb := .w 4 4, famOk := rnd }
  | .muelRot => { dst := .w 4 4, sa := .w 4 4, sb := .w 1 1, famOk := rnd }
  | .fsplatW => { sa := .w 2 2, sb := g1, sc := g1, famOk := z }
  | .ldG => .memop (gW (if fam == 5 then 64 else 32)) .glob (fam < 6) true false true
  | .ldL | .ldV => .memop (gW (if fam == 5 then 64 else 32)) .here (fam < 6) true false true
  | .stG => .memop (gW (if fam == 5 then 64 else 32)) .glob (fam == 0 || fam == 2 || fam == 4 || fam == 5) false true false
  | .stL | .stV => .memop (gW (if fam == 5 then 64 else 32)) .here (fam == 0 || fam == 2 || fam == 4 || fam == 5) false true false
  | .ldv => .memop (.g (runLen f) (runLen f) false) .wide (fam < 4 && fam != 0) true false true
  | .stv => .memop (.g (runLen f) (runLen f) false) .wide (fam < 4 && fam != 0) false true false
  | .tld => .memop (.g (runLen f) (runLen f) false) .wide (fam < 4) true false true
  | .tst => .memop (.g (runLen f) (runLen f) false) .wide (fam < 4) false true false
  | .ldw => .memop (.w 1 1) .wide z true false true
  | .stw => .memop (.w 1 1) .wide z false true false
  | .atom => .memop (gW (if t < 7 && f.sc.toNat / 4 % 4 ≥ 2 then 64 else 32)) .atom true true true true
  | .atomCas => .memop (if fam % 2 == 1 then .g 4 4 true else g2) .cas (fam / 2 % 4 == 0) true true true
  | .cwb | .cinv | .pref => { Shape.memop .unused .line z false false false with }
  | .fence => { famOk := fam < 7 }
  | .txbegin | .txcommit => { dst := .p true, famOk := z }
  | .txabort => { sa := g1, famOk := z }
  | .txstat => { dst := g1, famOk := z }
  | .bra => { sb := .raw, sc := .raw, lit := .br, famOk := f.mod.toNat < 4, nform := true }
  | .brx => { sa := g2, famOk := f.mod.toNat < 4, nform := true }
  | .call => { dst := g2, sb := .raw, sc := .raw, lit := .br, famOk := f.mod.toNat < 4, nform := true }
  | .ret => { sa := g2, famOk := z }
  | .jenr | .jstr | .jclr => { dst := .j, famOk := z, dw := false }
  | .jarr => { sa := .j, famOk := z }
  | .yield | .exit | .barTeam | .nop => { famOk := z }
  | .nap => { sa := g1, famOk := z }
  | .spawn | .cont => { sa := .g 8 8 false, famOk := z }
  | .join => { sa := g2, famOk := z }
  | .barNum => { sb := .imm 0 15, sc := if fam == 2 then .imm 0 0 else .imm 1 33, famOk := fam < 3 }
  | .barTree => { sb := .imm 0 7, famOk := z }
  | .trap | .bkpt => { sb := .imm 0 255, famOk := z }
  | .fwcall => { dst := g2, sa := g2, sb := .imm 0 255, famOk := z }
  | .rdsr => { dst := g2, sb := .imm 0 255, famOk := f.mod.toNat < 16, nform := true }
  | .wrsr => { sa := g2, sb := .imm 0 255, famOk := f.mod.toNat < 16, nform := true }
  | .clock => { dst := g2, famOk := fam < 2 }
  | .qbind => { sa := g2, sb := .imm 0 15, famOk := z }
  | .qstat => { dst := g1, sb := .imm 0 15, famOk := z }
  | .qflush => { sb := .imm 0 15, famOk := z }
  | .mbar => { sa := g1, sb := .imm 0 15, famOk := z }
  | .tsmpW => { dst := .w 1 1, sa := g2, sb := .w 1 1, sc := .imm 0 255, long := true, famOk := rnd }
  | .tups => { dst := .w 1 1, sa := g2, sb := .imm 0 255, long := true, famOk := rnd, dr := true }
  | .tsmpF => { dst := g1, sa := g2, sb := .imm 0 255, long := true, famOk := rnd }
  | .tfet => { dst := g1, sa := g2, sb := .imm 0 255, long := true, famOk := z }
  | .tqry => { dst := g1, sb := .imm 0 255, long := true, famOk := fam < 6 }
  | .lspres => .memop (.p true) .pres z false false true
  | .tcopy | .tcopy2d => { dst := g1, sa := g2, sb := g2, long := true, famOk := z }
  | .tcstat => { dst := g1, sa := g1, famOk := z }
  | .bobjInit | .bobjExpect => { sa := g2, sb := g1, famOk := z }
  | .bobjWait => { sa := g2, famOk := fam < 2 }
  | .rowCopy | .rowFill | .rowAnd | .rowOr | .rowXor | .rowNot | .rowMaj | .rowAllb | .rowBcst | .rowMac
  | .rowSadd | .rowRdacc | .rowProg => { dst := g1, sa := g2, long := true, famOk := z }
  | .rowWait => { sa := g1, famOk := z }

end Sys2Proof
end

