-- ==== Sys2Proof/Machine/Legal.lean ====
section
/-! DEFINITION. The checks of steps 4 to 7 of 02 Table 2-8 on decoded fields, and the registers that the
fields of an instruction name, read and write. -/

namespace Sys2Proof

/-- A register as the operand fields and the guard name it. -/
inductive Reg where
  | g (n : Nat)
  | w (n : Nat)
  | p (n : Nat)
  | k (n : Nat)
  | q (n : Nat)
  deriving DecidableEq, Repr

/-- Whether a register is a queue. -/
def Reg.isQueue : Reg → Bool
  | .q _ => true
  | _ => false

/-- `SPC`, bits [1:0] of `SC` (07 Table 7-1). -/
def Full.spc (f : Full) : Nat := f.sc.toNat % 4
/-- `HINT`, bits [3:2] of `SC` (07 Table 7-1); in `ATOM` the type. -/
def Full.hint (f : Full) : Nat := f.sc.toNat / 4 % 4
/-- `IDX`, bit [4] of `SC` (07 Table 7-1). -/
def Full.idx (f : Full) : Bool := f.sc.getLsbD 4
/-- `SCALE`, bits [6:5] of `SC` (07 Table 7-1). -/
def Full.scale (f : Full) : Nat := f.sc.toNat / 32 % 4
/-- `BK`, bit [7] of `SC` (07 Table 7-1). -/
def Full.bk (f : Full) : Bool := f.sc.getLsbD 7

/-- Whether `SA` names a queue register (02 Table 2-5, 03 R54). The bits alone decide, also on a field that allows no `XA`,
the model's choice (assumption log 109). -/
def Full.popsQueue (op : Op) (f : Full) : Bool :=
  f.xa && !(op.shape f).nform && 0x40 ≤ f.sa.toNat && f.sa.toNat < 0x50

/-- Whether `DST` names a queue register that the instruction pushes to (02 Table 2-5, R32). -/
def Full.pushesQueue (op : Op) (f : Full) : Bool :=
  f.xd && !(op.shape f).nform && (op.shape f).dw && 0x40 ≤ f.dst.toNat && f.dst.toNat < 0x50

/-- Whether the instruction is long-latency: by its opcode, by a queue source (02 R35, 03 R54), or by a queue destination
of an opcode of Lane Instructions: Arithmetic (05 R94 item 2), whose numbers lie below 0x1C0 (assumption log 98). -/
def Full.isLong (op : Op) (f : Full) : Bool :=
  (op.shape f).long || f.popsQueue op || (op.code < 0x1C0 && f.pushesQueue op)

/-- The check of one operand field against its class (02 R30, 03 R52, R57): none, or the `DETAIL` code.
`ext` is the field's `XA` or `XD` bit. -/
def Cls.check (c : Cls) (ext : Bool) (v : Nat) : Option Nat :=
  match c with
  | .unused => if ext then some 0x06 else if v ≠ 0 then some 0x08 else none
  | .g _ a conv =>
    if ext then
      if !conv then some 0x06 else if 0x50 ≤ v then some 0x07 else none
    else if v % a ≠ 0 then some 0x06 else none
  | .p dst => if ext || 0x40 ≤ v || (dst && v == 0) then some 0x06 else none
  | .w _ a => if ext || 0x20 ≤ v || v % a ≠ 0 then some 0x06 else none
  | .j => if ext || 0x10 ≤ v then some 0x06 else none
  | .imm lo hi =>
    if ext then some 0x06
    else if v < lo || hi < v then some 0x06 else none
  | .cvt => if ext || cvtBad v then some 0x06 else none
  | .raw => if ext then some 0x06 else none
where
  /-- A `CVT` type pair outside 05 Table 5-5: the codes 0xD to 0xF. -/
  cvtBad (v : Nat) : Bool := 13 ≤ v / 16 || 13 ≤ v % 16

/-- The check of `SA` in a memory operand (07 Table 7-1). -/
def Full.memBase (f : Full) : Option Nat :=
  if f.xa then some 0x06
  else if f.bk then (if 0x40 ≤ f.sa.toNat then some 0x06 else none)
  else if f.sa.toNat % 2 ≠ 0 then some 0x06 else none

/-- The check of `SC` in a memory operand (07 Table 7-1, R130, R132, R133, 11 R222). -/
def Full.memSc (f : Full) (r : MemRule) : Option Nat :=
  if !f.idx && f.scale ≠ 0 then some 0x06
  else
    let bad := match r with
      | .no => false
      | .glob => f.spc != 0
      | .here | .pres => f.spc != 0 || f.hint != 0
      | .wide => f.spc == 3 || (f.spc != 0 && f.hint != 0)
      | .line => f.spc == 3
      | .atom => f.spc == 3 || (f.fam % 8 == 7 && 2 ≤ f.hint)
      | .cas => f.spc == 3 || f.hint != 0
    if bad then some 0x06 else none

/-- The first of two checks that fails. -/
def orCheck (a b : Option Nat) : Option Nat := match a with | some x => some x | none => b

/-- Opcodes on which the address-stream marker is illegal (08 R159). -/
def Op.noMarker (op : Op) : Bool := (0x300 ≤ op.code && op.code ≤ 0x35F) || op.code == 0x360

/-- Steps 4 to 6 of 02 Table 2-8 on an F64 or L96 instruction: none, or the `DETAIL` code of the first
check that fails. The check of a nonzero `SB` of an L96 memory operand without index belongs to the literal's placement and
stands last, the model's choice (assumption log 108). -/
def Full.illegal (op : Op) (f : Full) : Option Nat :=
  let sh := op.shape f
  let lit := f.lit.isSome
  let step4 := if lit && sh.lit = .no then some 0x03 else none
  let step5 := if f.la ≠ 0 && !f.isLong op then some 0x04 else none
  let marker := if f.as && op.noMarker then some 0x0A else none
  let modifier := if !sh.famOk then some 0x05 else none
  let dst := sh.dst.check (!sh.nform && f.xd) f.dst.toNat
  let sa := if sh.mem ≠ .no then f.memBase else sh.sa.check (!sh.nform && f.xa) f.sa.toNat
  let sb := if lit && (sh.lit = .b || sh.lit = .br || sh.lit = .m) then none
    else sh.sb.check false f.sb.toNat
  let sc := if sh.mem ≠ .no then f.memSc sh.mem
    else if lit && (sh.lit = .c || sh.lit = .br) then none else sh.sc.check false f.sc.toNat
  let place :=
    if !lit then none
    else match sh.lit with
      | .no => none
      | .b => if f.sb ≠ 0 then some 0x08 else none
      | .c => if f.sc ≠ 0 then some 0x08 else none
      | .br => if f.sb ≠ 0 || f.sc ≠ 0 then some 0x08 else none
      | .m => if !f.idx && f.sb ≠ 0 then some 0x08 else none
  orCheck step4 (orCheck step5 (orCheck marker (orCheck modifier (orCheck dst (orCheck sa (orCheck sb
    (orCheck sc place)))))))

/-- The registers that one field names (02 R13, R30): `v` is the field's value, `ext` its `XA` or `XD`. -/
def Cls.regs (c : Cls) (ext : Bool) (v : Nat) : List Reg :=
  match c with
  | .g n _ _ =>
    if ext then (if v < 0x40 then [.k v] else [.q (v - 0x40)]) else (List.range n).map (fun i => .g (v + i))
  | .p _ => [.p v]
  | .w n _ => (List.range n).map (fun i => .w (v + i))
  | _ => []

/-- The registers that the fields of an instruction read as sources: the operands, the base and index of
a memory operand, and the guard predicate. -/
def Full.reads (op : Op) (f : Full) : List Reg :=
  let sh := op.shape f
  let lit := f.lit.isSome
  let a := if sh.mem ≠ .no then (if f.bk then [Reg.k f.sa.toNat] else [.g f.sa.toNat, .g (f.sa.toNat + 1)])
    else sh.sa.regs (!sh.nform && f.xa) f.sa.toNat
  let b := if sh.mem ≠ .no then (if f.idx then [Reg.g f.sb.toNat] else [])
    else if lit && sh.lit = .b then [] else sh.sb.regs false f.sb.toNat
  let c := if sh.mem ≠ .no || (lit && sh.lit = .c) then [] else sh.sc.regs false f.sc.toNat
  let d := if sh.dr then sh.dst.regs (!sh.nform && f.xd) f.dst.toNat else []
  .p f.gp.toNat :: (a ++ b ++ c ++ d)

/-- The registers that an instruction reads when it executes. They are those that its fields name, but for the odd
register of the pair that holds a 64-bit shift count, of which the low six bits are used (05 R79). -/
def Full.uses (op : Op) (f : Full) : List Reg :=
  match op with
  | .shl | .shr | .sar | .rol =>
    let sh := op.shape f
    .p f.gp.toNat :: (sh.sa.regs (!sh.nform && f.xa) f.sa.toNat ++ if f.lit.isSome then [] else [.g f.sb.toNat])
  | _ => f.reads op

/-- The registers that an instruction writes: of the run that `ATOM.CAS` names, the first half (07 R133). -/
def Full.writes (op : Op) (f : Full) : List Reg :=
  let sh := op.shape f
  let run := if sh.dw then sh.dst.regs (!sh.nform && f.xd) f.dst.toNat else []
  if op = .atomCas && !f.xd then run.take (run.length / 2) else run

/-- Every register that a field names, read or written (02 R13). -/
def Full.named (op : Op) (f : Full) : List Reg :=
  (f.reads op).drop 1 ++ (op.shape f).dst.regs (!(op.shape f).nform && f.xd) f.dst.toNat

/-- Whether a register lies outside budgets of `n` general and `m` spectral registers (02 R13). -/
def Reg.outside (n m : Nat) : Reg → Bool
  | .g r => n ≤ r
  | .w r => m ≤ r
  | _ => false

/-- The banks of the general registers in a list (02 R39). -/
def banks (l : List Reg) : List Nat :=
  l.filterMap (fun r => match r with | .g n => some (n % 4) | _ => none)

/-- Whether two lists of banks have none in common. -/
def disjointBanks (a b : List Nat) : Bool := a.all (fun x => !b.contains x)

/-- The predicate that a half writes. -/
def Half.predWritten (h : Half) : Option Nat :=
  match (h.op.op.shape (h.expand false)).dst with
  | .p _ => some h.dst.toNat
  | _ => none

/-- Step 7 of 02 Table 2-8, the pairing rules of R39: none, or the `DETAIL` of `ILLEGAL_PAIR`. -/
def pairIllegal (h0 h1 : Half) : Option Nat :=
  let f0 := h0.expand false
  let f1 := h1.expand false
  if !h0.op.pairable then some 0x01
  else if !h1.op.pairable then some 0x81
  else if !disjointBanks (banks (f0.reads h0.op.op)) (banks (f1.reads h1.op.op)) then some 0x82
  else if !disjointBanks (banks (f0.writes h0.op.op)) (banks (f1.writes h1.op.op)) then some 0x83
  else if h0.predWritten.isSome && h0.predWritten == h1.predWritten then some 0x84
  else none

/-- Step 6 on a C32 instruction, by its expansion (02 R37). -/
def Comp.illegal (c : COp) (x : Comp) : Option Nat := x.expand.illegal c.op

/-- Step 6 on one half of a P64, by its expansion (02 R38). -/
def Half.illegal (h : Half) : Option Nat := (h.expand false).illegal h.op.op

end Sys2Proof
end

