-- ==== Sys2Proof/Machine/State.lean ====
section
/-! DEFINITION. The state of the module: every piece of state that the spec gives the part, as plain data;
the reasons a step can stop; and the state right after reset. A map from numbers to values is a `Sparse`
list (keys rising, no default value listed); the key of each is given where it stands. -/

namespace Sys2Proof.Machine

open Sys2Proof

/-- Why the machine stops with a fault. -/
inductive Fault where
  /-- Raised by `step`: a die sensor passed 115 °C and the module waits for a cold start (21 R389). Safe:
  no instruction executes until the start. -/
  | moduleStopped
  deriving DecidableEq, Repr

/-- Why the machine refuses an instruction. -/
inductive Refusal where
  /-- Raised by `exec` for an instruction that has no meaning yet. Safe: nothing is claimed of it. -/
  | notModelled (mnemonic : String)
  deriving DecidableEq, Repr

/-! ### Lanes and groups (01, 02, 08, 09) -/

/-- One element of a lane's register state that a pending result is for. -/
inductive RCell where
  | g (r : Nat)
  | w (r e : Nat)
  | p (r : Nat)
  | k (r : Nat)
  | q (r : Nat)
  deriving DecidableEq, Repr

/-- A long-latency result of a lane that has not retired (02 R35): the cells it writes, each with its value
(none while an engine or a home still owes it), how many instructions of the window are left, the tick and address
at which it issued, for an atomic its marker (17 R313), and the register that takes the high half of a 64-bit value owed to a
pair (00 R7). -/
structure Pend where
  serial : Nat
  window : Nat
  cells  : List (RCell × Option W64)
  tick   : Nat := 0
  pc     : W64 := 0
  atom   : Option Bool := none
  high   : Option Nat := none
  deriving DecidableEq, Repr

/-- What became of a lane in this cycle (08 R152, R153): it was not considered; it was ready; its instruction issued at an
address; or its instruction could not issue after all, so that it was not ready. -/
inductive Tried where
  | none
  | ready
  | issued (pc : W64)
  | stayed
  deriving DecidableEq, Repr

/-- What a lane that is not parked waits for, its program counter at the waiting instruction. -/
inductive LaneWait where
  | none
  | team                                  -- BAR.TEAM (09 R182)
  | num (b : Nat) (phase : Bool) (mat : Bool)  -- BAR.NUM or MBAR (09 R183, 10 R201)
  | tree (tag phase : Nat)                -- BAR.TREE (09 R184)
  | join                                  -- a JOIN whose decrement is not performed (09 R180)
  | joinZero                              -- a JOIN that found its counter at zero: it traps (09 R180)
  | until (t : Nat) (drop : Bool)         -- a JOIN that waits for the device time, then goes on or ends
  deriving DecidableEq, Repr

/-- One lane (01 Table 1-1). `aux` says what a parked lane waits for: the mask, the local-store line or the
queue. `napEnd` is the end of its nap, `yield` the issue cycles left of a `YIELD`. `busy` lists the registers whose results
have not retired, each with the tick at which it does (05 R408) and whether a lookahead window keeps its earlier value
readable; `back` is the tick at which its latest load or atomic has returned (07 R140), and `reads` are the registers for
which loads and the like have not returned, with their ticks and markers (17 R313). `stored` says that it has issued
an unmarked store, atomic, `CWB`, `CINV` or transaction instruction that may not be performed (08 R158); `asks` are its global
loads and atomics, each with the tick at which it issued, that at which it has returned, and the module of its home
(15 R289). `fwd` and `ret` are its stream queues, with those pushes that wait for room behind the entries held (08 R160);
`fwdBad` and `retBad` say which of their entries hold an uncorrectable error (08 R166). `tried` is what became of it in this
cycle, and `stuck` says that its instruction could not issue when it was last tried. -/
structure Lane where
  pc     : W64 := 0
  fflags : BitVec 5 := 0
  park   : Nat := 0
  aux    : Nat := 0
  age    : Nat := 0
  ended  : Bool := false
  replay : Bool := false
  napEnd : Nat := 0
  yield  : Nat := 0
  fwd    : List W64 := []
  ret    : List W64 := []
  pend   : List Pend := []
  wait   : LaneWait := .none
  checks : Nat := 0
  busy   : List (Reg × Nat × Bool) := []
  back   : Nat := 0
  reads  : List (Reg × Nat × Bool) := []
  stored : Bool := false
  asks   : List (Nat × Nat × Nat) := []
  fwdBad : List Nat := []
  retBad : List Nat := []
  tried  : Tried := .none
  stuck  : Bool := false
  deriving DecidableEq, Repr

/-- Why a whole group issues nothing. -/
inductive GroupWait where
  | none
  | fence (wide : Bool) (slack : Bool)  -- FENCE: second stage once nothing is outstanding (07 R140)
  | fwcall (lanes : W32) (svc : Nat) (dst : Nat) (conv : Bool) (la : Nat) (args : List W64)
  | object (addr : Nat) (bit : Bool) (lanes : W32) (pops : Option (Nat × W32))  -- BOBJ.WAIT, at which the lanes stand; the
                                                    -- queue from which these of them pop (13 R252)
  | copy                                          -- a TCOPY whose copy is not formed (13 R254)
  | rows (n : Nat)                                -- ROW.WAIT (18 R345)
  deriving DecidableEq, Repr

/-- An open transaction (07 R141): its lane set, `pd`, the address where its lanes resume, the lines of its
sets, the buffered bytes by physical address, the hints of its stores by sector, and the cause and code of an abort that
awaits the group's next instruction boundary. -/
structure Tx where
  lanes  : W32
  pd     : Nat
  resume : W64
  reads  : List Nat := []
  writes : List Nat := []
  buf    : Sparse (Option Byte) := []
  hints  : Sparse Nat := []
  dead   : Option (Nat × Nat) := none
  deriving DecidableEq, Repr

/-- No capability: its tag is clear (21 R367). -/
def noCap : Capability := { tag := false, otype := 0, perm := 0, len := 0, base := 0 }

/-- One resident or saved group; `resident` orders the groups of a partition by residency age. Keys: `g` lane × 256 + register; `w` (lane × 32 + register) × 8 + element;
`p` register, a bit for each lane; `k` and `j` register. `bad` lists the registers that hold an uncorrectable error
(01 R15), by `regKey`; `kser` orders the writes of each `k` register: the serial number of its last. `rctime` is the
latest completion time that a home on another module has returned (17 R322), and `rowtime` the latest of a row command
(17 R317). `trapAt` is the tick at which its latest trap retired (15 R288). -/
structure Group where
  id      : Nat
  core    : Nat := 0
  part    : Nat := 0
  team    : Nat := 0
  num     : Nat := 0
  n       : Nat := 16
  m       : Nat := 0
  gBlock  : Nat := 0
  wBlock  : Nat := 0
  pkt8    : Bool := false
  jenf    : Bool := false
  pool    : Bool := false
  tenant  : Nat := 0
  lanes   : List Lane := []
  g       : Sparse W32 := []
  w       : Sparse W32 := []
  p       : Sparse W32 := []
  k       : Sparse W64 := []
  j       : Sparse W32 := []
  bad     : List Nat := []
  kser    : Sparse Nat := []
  trapCause : BitVec 16 := 0
  trapPc    : W64 := 0
  trapMask  : W32 := 0
  trapAddr  : W64 := 0
  trapW0    : W64 := 0
  trapW1    : W32 := 0
  stopped : Bool := false
  trapAt  : Nat := 0
  preempt : Bool := false
  resident : Nat := 0
  wait    : GroupWait := .none
  wctime  : Nat := 0
  rctime  : Nat := 0
  rowtime : Nat := 0
  txstat  : W32 := 0
  tx      : Option Tx := none
  vwin    : List W64 := [0, 0, 0, 0]
  hint    : Nat := 0
  imgCap  : Capability := noCap
  deriving DecidableEq, Repr

/-- A numbered barrier of a team (09 R183) with its format latch (10 R201). -/
structure NumBar where
  set   : W32 := 0
  s     : Nat := 0
  phase : Bool := false
  latch : Option Nat := none
  deriving DecidableEq, Repr

/-- An entry of a team's queue: its bits, who pushed it, and the packet width of the pushing group (11 R231). -/
structure QEntry where
  val   : W64
  gid   : Nat := 0
  lane  : Nat := 0
  pc    : W64 := 0
  pkt8  : Bool := false
  deriving DecidableEq, Repr

/-- A queue register of a team (09 R190, R191): its port (0 for none) and instance, the entries held, how
many entries its port has taken that have not produced their result, and the lanes that wait, in order. -/
structure TeamQueue where
  port    : Nat := 0
  inst    : Nat := 0
  entries : List QEntry := []
  taken   : Nat := 0
  waiters : List (Nat × Nat) := []
  deriving DecidableEq, Repr

/-- The state field of a sequencer (10 Table 10-3). -/
inductive SeqState where
  | idle | running | waiting | blocked | halted
  deriving DecidableEq, Repr

/-- An operand slot of a sequencer: whether full, its format, its keep bit, the base and stride of a load that the vault has
not performed yet, the address of that load, its rows, and the pinned vault lines. -/
structure Slot where
  full : Bool := false
  loading : Option (Nat × Nat) := none
  pc   : W64 := 0
  fmt  : Nat := 0
  keep : Bool := false
  rows : List (List Byte) := []
  pins : List Nat := []
  deriving DecidableEq, Repr

/-- An accumulator tile: whether valid, and C(i, j) at key i × 64 + j (unlisted +0.0). -/
structure Tile where
  valid : Bool := true
  c     : Sparse W32 := []
  deriving DecidableEq, Repr

/-- An `MMA` in the array (10 R206): its tile, slots and keep bits, and the formats and modes sampled. -/
structure MmaOp where
  t    : Nat
  a    : Nat
  b    : Nat
  ka   : Bool
  kb   : Bool
  mode : Nat
  ftz  : Bool
  deriving DecidableEq, Repr

/-- A matrix sequencer (10 Table 10-1). `mma` holds the `MMA`s not yet retired; `waitBar` and `waitPhase` the phase an `MWAIT` awaits. -/
structure Sequencer where
  slot    : Nat := 0
  x       : Sparse W64 := []
  pc      : W64 := 0
  st      : SeqState := .idle
  mfmt    : Nat := 0
  fset    : Bool := false
  a       : List Slot := [{}, {}, {}, {}]
  b       : List Slot := [{}, {}, {}, {}]
  acc     : List Tile := [{}, {}, {}, {}, {}, {}, {}, {}]
  flg     : BitVec 5 := 0
  skips   : Nat := 0
  err     : W64 := 0
  epc     : W64 := 0
  waitBar : Nat := 0
  waitPhase : Bool := false
  mma     : List MmaOp := []
  pushed  : Nat := 0
  deriving DecidableEq, Repr

/-- The byte count of an `MST` that is still to be added (10 R209): its number, team, die, object and bytes. -/
structure MstCount where
  num    : Nat
  team   : Nat
  die    : Nat
  object : Nat
  bytes  : Nat
  deriving DecidableEq, Repr

/-- A group's slice of the team's next copy (13 R254): `lanes` are the enabled lanes, `here` all that issued, `pops` the
queue from which the enabled lanes pop. -/
structure Slice where
  gid    : Nat
  num    : Nat
  two    : Bool
  desc   : Nat
  word   : W64
  lanes  : W32
  here   : W32
  serial : Nat
  origin : Nat := 0
  pops   : Option Nat := none
  deriving DecidableEq, Repr

/-- A team placed on a core, or saved. `ls` is its local store; `absent` counts the unfinished fills of each
line that is not present (11 R220). `srNext` are the writes of system registers of
team scope by the `WRSR`s that retire with this cycle, in order (01 R21, 09 R188). `ended` and `gids` are the numbers of its
groups that have ended, in the team and in the state; `gKept` and `wKept` the register runs of those groups (partition,
first block, blocks), which the team keeps until its last group ends (08 R151); `finished` says that it has ended, and
whether normally, so that it holds nothing of its core, while what it has issued is still completed (10 R216, 15 R286). -/
structure Team where
  id      : Nat
  core    : Nat := 0
  num     : Nat := 0
  die     : Nat := 0
  launch  : Nat := 0
  tenant  : Nat := 0
  size    : Nat := 1
  cidx    : Nat := 0
  cw      : Nat := 1
  ch      : Nat := 1
  pool    : Bool := false
  slot    : Nat := 0
  fmode   : W64 := 0
  srNext  : List (Nat × W64) := []
  queues  : List TeamQueue := List.replicate 16 {}
  barSet  : W32 := 0
  treeSet : W32 := 0
  tag     : Option Nat := none
  treeSent : Bool := false
  treePhase : Nat := 0
  bars    : List NumBar := List.replicate 16 {}
  lsBase  : Nat := 0
  lsBytes : Nat := 0
  ls      : Sparse Byte := []
  absent  : Sparse Nat := []
  texbase : W64 := 0
  vwin    : List W64 := [0, 0, 0, 0]
  seq     : Option Sequencer := none
  splat   : List QEntry := []
  slices  : List Slice := []
  copySeq : Nat := 0
  deadline : Option Nat := none
  placed  : Nat := 0
  ended   : List Nat := []
  gids    : List Nat := []
  gKept   : List (Nat × Nat × Nat) := []
  wKept   : List (Nat × Nat × Nat) := []
  finished : Option Bool := none
  deriving DecidableEq, Repr

/-! ### Cores, memory and homes (08, 11, 13, 15, 17, 18) -/

/-- A core: its reset time for the cycle count, its fenced partitions, the group each partition chose last,
the withdrawn local-store units and sequencers, the disabled ways of each L1 set, the sequencer whose `MMA` the
array takes next, and the team whose `MMA` the array holds with the tick at which it leaves. -/
structure Core where
  reset   : Nat := 0
  fenced  : List Nat := []
  last    : List Nat := [0, 0, 0, 0]
  units   : List Nat := []
  seqs    : List Nat := []
  l1ways  : Sparse Nat := []
  nextSeq : Nat := 0
  array   : Option (Nat × Nat) := none
  deriving DecidableEq, Repr

/-- A line of a core's L1 (11 R223): `line` is the physical address divided by 128; `bytes` and `dirty` are
keyed by the byte's offset, `dirty` holding the storing group's number × 32 + lane, plus 1; `since` is the cycle of the
first store to a dirty sector; `owners` are all lanes (group × 32 + lane) that have stored to the line since it was clean,
those too whose bytes another has overwritten (11 R225), each with the tick of its first such store plus 1; `hints` holds the hint of the latest hinted store to each sector since then
(07 R130). -/
structure L1Line where
  core  : Nat
  line  : Nat
  lease : Nat
  v0    : Bool := false
  v1    : Bool := false
  bytes : Sparse Byte := []
  dirty : Sparse Nat := []
  since : Option Nat := none
  owners : Sparse Nat := []
  hints : Sparse Nat := []
  prio  : Nat := 2
  used  : Nat := 0
  deriving DecidableEq, Repr

/-- What a write does to the bytes of its line when it is performed; `add` counts bytes into a barrier object (13 R251). -/
inductive WriteOp where
  | store (bytes : List (Nat × Byte))
  | atom (addr : Nat) (op ty : Nat) (v : W64)
  | cas (addr : Nat) (wide : Bool) (cmp new : W64)
  | dec (addr : Nat)
  | add (addr : Nat) (err : Bool) (v : Nat)
  deriving DecidableEq, Repr

/-- A write at a home (17 R309): who sent it (core and group, or an engine), what it does, and the pending
result of a lane that its old value is owed to. `tx` marks a write of a committed transaction, whose lane set is `set`; `origin` is the
number plus 1 of the copy that sent it, 2^40 plus the number of a host queue, or 2^41 plus that of a row command's `STAT`, and `reply` the source module and tag
of a request that is answered when the write is performed. `also` are further groups to which its completion time returns
(07 R138, 11 R225), `lanes` the lanes whose stores and `CWB`s a write-back performs, as `L1Line.owners` gives them (18 R329),
`hints` the hint of each sector it writes (07 R130), `row` the row command that sent it plus 1 (18 R334),
`due` the time at which the home of another module performs it, and `sent` the tick at which it reached its home (15 R289). -/
structure HWrite where
  core    : Option Nat := none
  gid     : Option Nat := none
  op      : WriteOp
  lane    : Nat := 0
  serial  : Nat := 0
  status  : Bool := false
  tx      : Bool := false
  set     : W32 := 0
  origin  : Nat := 0
  reply   : Option (Nat × Nat) := none
  also    : List Nat := []
  lanes   : Sparse Nat := []
  hints   : Sparse Nat := []
  row     : Nat := 0
  due     : Nat := 0
  sent    : Nat := 0
  deriving DecidableEq, Repr

/-- The home of a global line (17 R309): the latest lease granted, and in `HOLD` the time it ends and the queued
writes in arrival order, each with the time at which it is performed; a row command that holds the line stands among them
(18 R334). Writes to a line homed on another module wait in `queue` until that module has performed them (17 R311). -/
structure Home where
  line   : Nat
  emax   : Nat := 0
  remote : Bool := false
  pt     : Option Nat := none
  queue  : List HWrite := []
  deriving DecidableEq, Repr

/-- A write to vault memory that a pin (10 R205), or an array out of `ACTIVE` (13 R248), holds back, in the order held;
`status` is that of an `.NT` atomic (07 R135), `sent` the tick at which it was held (15 R289), and `num` the number of an
`MST` (10 R209). -/
structure VHeld where
  die   : Nat
  gid   : Option Nat := none
  team  : Option Nat := none
  lane  : Nat := 0
  serial : Nat := 0
  status : Bool := false
  sent  : Nat := 0
  num   : Nat := 0
  op    : WriteOp
  deriving DecidableEq, Repr

/-- Retention states of an array (13 Table 13-4): with the device time since which it is idle, or the tick at which a
re-encoding ends. -/
inductive Retention where
  | active (idleSince : Nat)
  | entering (t : Nat) (wanted : Bool)
  | retained
  | leaving (t : Nat)
  deriving DecidableEq, Repr

/-- The sizes of a page (00 R1): 16 KiB, 2 MiB and 1 GiB. -/
inductive PageSize where
  | kib16 | mib2 | gib1
  deriving DecidableEq, Repr

/-- Who waits to read an array. -/
inductive Reader where
  | lane (gid lane : Nat) (pc : W64)
  | copy (id : Nat)
  | block (team slot : Nat)
  deriving DecidableEq, Repr

/-- A read that an array out of `ACTIVE` holds (13 Table 13-4), with the tick at which it arrived. -/
structure Arrival where
  array : Nat
  who   : Reader
  tick  : Nat
  deriving DecidableEq, Repr

/-- A mapped page of a tenant (07 R123, 15 R287): virtual base, size, domain physical base, permissions. -/
structure Page where
  tenant : Nat
  va     : Nat
  kind   : PageSize := .kib16
  pa     : Nat
  r      : Bool := true
  w      : Bool := true
  x      : Bool := false
  deriving DecidableEq, Repr

/-- A line of a stack's memory-side cache (18 R325, R326): masks of the valid and dirty sectors, and the
priority of each sector (unlisted `.NORM`); the first sector asked for, and those touched, in this residency; `shadow` the
sectors that Meridian keeps with their old bytes (18 R334), and `bound` the Emax of its 128-byte lines when it entered
(18 R327). -/
structure MscLine where
  stack : Nat
  row   : Nat
  first : Nat := 0
  touched : W32 := 0
  valid : W32 := 0
  dirty : W32 := 0
  prio  : Sparse Nat := []
  shadow : W32 := 0
  bound : Nat := 0
  used  : Nat := 0
  deriving DecidableEq, Repr

/-- A formed copy (13 R255 to R259). `count` is the byte count that its end adds, `moved` the words moved, `filling`
says that its destination lines are absent until it ends, and `turns` the turns it has had in this round. -/
structure Copy where
  id     : Nat
  cluster : Nat
  team   : Nat
  launch : Nat := 0
  die    : Nat := 0
  tenant : Nat := 0
  seq    : Nat := 0
  two    : Bool := false
  src    : Nat := 0
  dst    : Nat := 0
  sspc   : Nat := 0
  dspc   : Nat := 0
  weight : Nat := 1
  object : Nat := 0
  rowBytes : Nat := 0
  rows   : Nat := 0
  sstride : Int := 0
  dstride : Nat := 0
  count  : Nat := 0
  moved  : Nat := 0
  status : Nat := 0
  active : Bool := false
  waiting : Bool := false
  spilled : Bool := false
  filling : Bool := false
  turns  : Nat := 0
  vwin   : List W64 := []
  slices : List Slice := []
  origin : Nat := 0
  deriving DecidableEq, Repr

/-- A state of a row command (18 Table 18-9, R329, R332): its descriptor read and earlier writes awaited; in
its team's row stream and not started; held by a fault that firmware resolves; the states of the table; and its
last row written, its completion time awaited. -/
inductive RowState where
  | reading
  | entered
  | faulted
  | run
  | yield (slots : Nat)
  | refresh
  | writing
  | stat
  deriving DecidableEq, Repr

/-- A row command (18 R331, R332, R344). `port` is the descriptor's virtual address of a command from the
port, and `queue` its queue; `asked` the tick at which a lane issued it; `steps` the step list of a near-bank program; `fill`
the bytes written that wait for the completion time, and `work` these with the row of the step in progress; `lines` the
destination lines held, and `holds` the rows (stack, row) that they lie in; `endAt` when its present state ends, and `since`
the tick at which its step or slot began. `worked` says that a row step is in progress, which holds the banks `held`, and
`endsAs` the status with which the command ends after it; `told` says that its status word has reached its lane. -/
structure RowCmd where
  id     : Nat
  team   : Nat
  launch : Nat := 0
  tenant : Nat := 0
  die    : Nat := 0
  gid    : Nat := 0
  lane   : Nat := 0
  serial : Nat := 0
  port   : Option Nat := none
  op     : Nat
  d      : Nat := 0
  s0     : Nat := 0
  s1     : Nat := 0
  s2     : Nat := 0
  rows   : Nat := 0
  arg    : W64 := 0
  object : Nat := 0
  clean  : Bool := true
  vwin   : List W64 := []
  st     : RowState := .entered
  next   : Nat := 0
  chunks : Nat := 0
  isOpen : Bool := false
  path   : Nat := 0
  status : Nat := 0
  steps  : List W32 := []
  stack  : Nat := 0
  pch    : Nat := 0
  row0   : Nat := 0
  queue  : Nat := 0
  fill   : Sparse (Option Byte) := []
  lines  : List Nat := []
  endAt  : Nat := 0
  unread : Bool := false
  told   : Bool := false
  asked  : Nat := 0
  work   : Sparse (Option Byte) := []
  holds  : List (Nat × Nat) := []
  worked : Bool := false
  held   : List Nat := []
  endsAs : Option Nat := none
  since  : Nat := 0
  origin : Nat := 0
  deriving DecidableEq, Repr

/-- The near-bank units of a pseudo-channel (18 R336): its owner in all-bank mode, `VB` at key
(bank × 8 + v) × 16 + l, `ACC` at key bank × 16 + l, and `RPC`, `LC`, `RP`. -/
structure NearBank where
  stack : Nat
  pch   : Nat
  owner : Option Nat := none
  vb    : Sparse (BitVec 16) := []
  acc   : Sparse W32 := []
  rpc   : Nat := 0
  lc    : Nat := 0
  rp    : Nat := 0
  deriving DecidableEq, Repr

/-- A route tag of a die's barrier tree (13 R262): its holder, arrivals, phase, and when a phase completes. -/
structure RouteTag where
  die     : Nat
  tag     : Nat
  holder  : Option (Nat × Option Nat) := none
  arrived : List Nat := []
  phase   : Nat := 0
  due     : Option Nat := none
  withdrawn : Bool := false
  deriving DecidableEq, Repr

/-! ### Launches, pool, tenants (15, 16) -/

/-- The fields of a launch descriptor (15 Table 15-1). -/
structure LaunchDesc where
  code : W64 := 0
  kdesc : W64 := 0
  args : W64 := 0
  count : Nat := 0
  kind : Nat := 0
  die : Nat := 0
  opts : Byte := 0
  fmode : W64 := 0
  lsBytes : Nat := 0
  prio : Nat := 0
  deadline : W64 := 0
  lead : W64 := 0
  vwin : List W64 := [0, 0, 0, 0]
  compl : W64 := 0
  signal : W64 := 0
  initrec : W64 := 0
  ringLog2 : Nat := 0
  zeros : Bool := true
  deriving DecidableEq, Repr

/-- A tile mark (02 R48), its handle as a string-table offset's text. -/
structure TileMark where
  off    : Nat
  handle : List Byte
  rows   : Nat
  cols   : Nat
  stride : W64
  base   : W64
  deriving DecidableEq, Repr

/-- The fields of a kernel descriptor (02 Table 2-11) and what its object's tables give of it. -/
structure Kernel where
  gregs : Nat := 16
  wregs : Nat := 0
  groups : Nat := 1
  clw : Nat := 1
  clh : Nat := 1
  flags : Byte := 0
  zeros : Bool := true
  entry : W64 := 0
  size : W64 := 0
  spliceBegin : W64 := 0
  spliceEnd : W64 := 0
  tiles : Nat := 0
  firstTile : W64 := 0
  deriving DecidableEq, Repr

/-- A Wawafer object that firmware has loaded for a tenant (02 R47): the bytes of its file, and the virtual address at which
its kernel table lies. -/
structure Wawafer where
  tenant : Nat
  kdesc  : Nat
  file   : List Byte
  deriving DecidableEq, Repr

/-- A continuation record (09 R178) with the time it entered its ring. -/
structure Record where
  code  : W64
  frame : W64
  join  : W64
  flags : W64
  time  : Nat
  deriving DecidableEq, Repr

/-- An entry of a spliced text's program-counter map (16 R302). -/
structure SplicePc where
  addr   : Nat
  orig   : Nat
  origin : Nat
  deriving DecidableEq, Repr

/-- A spliced pair (16 R297 to R304): the consumer's launch number, descriptor and kernel, `Kp`, the address of the
spliced text and its size in 16 KiB pages, the program-counter map, and what the consumer's record is to hold. -/
structure Splice where
  consumer : Nat
  cdesc    : LaunchDesc
  ckernel  : Kernel
  kp       : Nat
  text     : Nat
  pages    : Nat
  map      : List SplicePc
  cfaults  : Nat := 0
  cstatus  : Nat := 0
  cfpc     : W64 := 0
  citer    : Nat := 0
  deriving DecidableEq, Repr

/-- A launch that a front end has taken (15 R270). `status` is set once it is to end with
that status, at tick `statusAt`; `left` are its ended groups, whose writes may not all be performed, and `leftT` the latest
completion time that has returned to them (17 R316). `after` is the producer (die and number) that a consumer of a pair follows, `refused` the refusal code of a splice. `ring` holds the records of its pool ring, `ringVa` and `ringPa` where that lies, and `pushed` counts the records that have
entered it (15 R276). `stage` says how far its
completion is (15 R285): 0 running, 1 its record is to be written, 2 firmware has a fault of the record, 3 the record is
written and performed at `recT`, 4 firmware has a fault of the signal, 5 the signal is sent. -/
structure Launch where
  die    : Nat
  num    : Nat
  tenant : Nat := 0
  desc   : LaunchDesc := {}
  kernel : Kernel := {}
  status : Option Nat := none
  statusAt : Nat := 0
  left   : List Nat := []
  leftT  : Nat := 0
  next   : Nat := 0
  faults : Nat := 0
  start  : Nat := 0
  teams  : Nat := 0
  fpc    : W64 := 0
  iter   : Nat := 0
  tag    : Option Nat := none
  ring   : List Record := []
  ringVa : Nat := 0
  ringPa : Option Nat := none
  pushed : Nat := 0
  splice : Option Splice := none
  refused : Nat := 0
  after  : Option (Nat × Nat) := none
  stage  : Nat := 0
  recT   : Nat := 0
  endT   : Nat := 0
  spliced : Bool := false
  ended  : Bool := false
  deriving DecidableEq, Repr

/-- A bin of the continuation pool (15 Table 15-2). -/
inductive Bin where
  | free
  | bound (due : Bool) (launch : Nat) (code : W64) (pkt8 : Bool) (recs : List Record)
  deriving DecidableEq, Repr

/-- A tenant's budget on a die (15 R280): B in group-slot ns, T in ns, and what is left in eighths of a unit. A tenant
with no budget is not exhausted. -/
structure Budget where
  die : Nat
  tenant : Nat
  b : Nat
  t : Nat
  left : Nat
  deriving DecidableEq, Repr

/-- An entry of a die's fault queue (15 R288). -/
inductive FaultEntry where
  | group (gid : Nat)
  | copy (id : Nat) (addr : Nat) (write : Bool)
  | row (id : Nat) (addr : Nat) (write : Bool)
  | texture (team : Nat) (addr : Nat)
  | record (launch : Nat) (signal : Bool)
  deriving DecidableEq, Repr

/-- Cores whose victims make room for a launch at risk (15 R283, R284). -/
structure Reserve where
  die    : Nat
  launch : Nat
  cores  : List Nat
  deriving DecidableEq, Repr

/-- A stall hint of a die (15 R289): the peer and the hinted end. -/
structure Hint where
  die  : Nat
  peer : Nat
  t    : Nat
  deriving DecidableEq, Repr

/-- A saved group (08 R164): the bytes of its image, and what the image has no place for (`Group.rest`). -/
structure SavedGroup where
  rest  : Group
  image : List Byte
  deriving DecidableEq, Repr

/-- A saved team (08 R163, 09 R195, 10 R215): the bytes of its record with those of its sequencer's image, what the record
has no place for (`Team.rest`), its local store among it (11 R221), and its groups' images. -/
structure Saved where
  team   : Team
  record : List Byte
  groups : List SavedGroup
  deriving DecidableEq, Repr

/-- A texture request that the unit has taken (11 R232). `wait` says that firmware has its fault; `failed` is the
status that the fault will give, 0 for none, `since` when firmware first had it, and `hard` says that it is a refusal that
firmware cannot resolve; `stat` the status word once the record is written. -/
structure TexReq where
  team  : Nat
  queue : Nat
  val   : W64
  pkt8  : Bool
  tenant : Nat
  origin : Nat := 0
  wait  : Bool := false
  failed : Nat := 0
  since : Nat := 0
  hard  : Bool := false
  stat  : Option W64 := none
  deriving DecidableEq, Repr

/-! ### Package: cameras, sessions, queues, firmware, host, starts (20, 21) -/

/-- A camera descriptor (20 Table 20-1). -/
structure CameraDesc where
  w : Nat := 0
  h : Nat := 0
  c : Nat := 0
  rolling : Bool := false
  epoch : Nat := 0
  period : Nat := 0
  expo : Nat := 0
  rowt : Nat := 0
  lam0 : W32 := 0
  invd : W32 := 0
  s : Nat := 0
  resp : Nat := 0
  plane0 : Nat := 0
  plane1 : Nat := 0
  devdesc : Nat := 0
  devdl : Nat := 0
  frec : Nat := 0
  deriving DecidableEq, Repr

/-- The fold of a closed frame (20 R362, R363): the frame, the time it ends, the descriptor it was made under and
the counters of the frame. -/
structure Fold where
  frame  : Nat
  at_    : Nat
  desc   : CameraDesc
  splats : Nat := 0
  nandrop : Nat := 0
  outdrop : Nat := 0
  gapdrop : Nat := 0
  framedrop : Nat := 0
  deriving DecidableEq, Repr

/-- A camera (20 R356 to R363): its descriptor and `CEN`, a new descriptor with its response values that waits for
the frame close, the two film sets (s and c at key set × 2^28 + (y × W + x) × 4 + j), the response values, the
frame whose close comes next, the folds in progress, the counters since the last fold began, the develop launches
of its frames (frame, die, number), and the close times of row 0 of its folded frames. -/
structure Camera where
  num    : Nat
  tenant : Nat
  cen    : Bool := false
  desc   : CameraDesc := {}
  next   : Option (CameraDesc × Bool × List W32) := none
  filmS  : Sparse W32 := []
  filmC  : Sparse W32 := []
  resp   : List W32 := []
  frame  : Nat := 0
  folds  : List Fold := []
  splats : Nat := 0
  nandrop : Nat := 0
  outdrop : Nat := 0
  gapdrop : Nat := 0
  framedrop : Nat := 0
  develop : List (Nat × Nat × Nat) := []
  closes : List Nat := []
  deriving DecidableEq, Repr

/-- A splat on its way to the back end (20 R358 to R361); one from a port says its team, its queue and how many entries it
took. -/
structure Splat where
  die    : Nat
  gid    : Option Nat
  camera : Nat
  x      : Nat
  y      : Nat
  elems  : List (W32 × W32)
  team   : Nat := 0
  queue  : Nat := 0
  taken  : Nat := 0
  deriving DecidableEq, Repr

/-- An encode session (20 R364, R365, 21 R375): its configuration, the entries of the frame in progress, the frame's
number, the counts, the write offset, and the write offsets to be published with the marks of the writes before them. -/
structure Session where
  num    : Nat
  tenant : Nat
  hevc   : Bool := false
  w      : Nat := 0
  h      : Nat := 0
  camera : Nat := 0
  encdl  : Nat := 0
  ring   : Nat := 0
  bytes  : Nat := 0
  entries : List W64 := []
  buffered : Nat := 0
  frame  : Nat := 0
  late   : Nat := 0
  drops  : Nat := 0
  wr     : Nat := 0
  publish : List (Nat × Nat) := []
  deriving DecidableEq, Repr

/-- The 16 bytes in firmware memory where a capability lies, by what it points to (21 R367). -/
inductive CapPlace where
  | ring (queue : Nat)
  | queueState (queue : Nat)
  | data (queue : Nat)
  | image (group : Nat)
  | errorLog
  | key (session : Nat)
  deriving DecidableEq, Repr

/-- The states of a host queue (21 Table 21-4). -/
inductive QState where
  | empty | run
  | wait (since : Nat)
  | halted
  deriving DecidableEq, Repr

/-- A host queue (21 R369 to R372) with the capabilities of its ring, its state record and its data region (R367). `now` is the
packet that it waits at; `seen` are values of a signal that met its `WAIT` condition; `busy` is the line of a `SIGNAL` packet's
write that its home has not performed. -/
structure HostQueue where
  num    : Nat
  st     : QState := .empty
  tenant : Nat := 0
  ringCap : Capability := noCap
  stateCap : Capability := noCap
  log2   : Nat := 4
  ri     : Nat := 0
  wi     : Nat := 0
  qdata  : Capability := noCap
  now    : Option (List Byte) := none
  seen   : List W64 := []
  busy   : Option Nat := none
  launches : List (Nat × Nat) := []
  deriving DecidableEq, Repr

/-- An EHP session (21 R380, R381, R384): its role, the record of sequence numbers with their replies, whether its key
exchange is finished, the capability of its key, the number of the next `EVENT` sent on it, the number of key updates, and which of `GET_VERSION`, `GET_CAPABILITIES` and
`NEGOTIATE_ALGORITHMS` it has passed. -/
structure Ehps where
  num    : Nat
  role   : Role := .operator
  keyed  : Bool := false
  key    : Capability := noCap
  nextSeq : Nat := 0
  seqs   : List (Nat × List Byte) := []
  top    : Nat := 0
  updates : Nat := 0
  version : Bool := false
  caps   : Bool := false
  algs   : Bool := false
  deriving DecidableEq, Repr

/-- What the module sends to the host: an `ACK` with its reply, an `EVENT`, or a datagram of RoCE. -/
inductive HostMsg where
  | ack (session seq : Nat) (reply : List Byte)
  | event (session seq : Nat) (body : List Byte)
  | rdma (reply : List Byte)
  | nak
  deriving DecidableEq, Repr

/-- An `EVENT` not yet acknowledged (21 R381): how often it was sent, and when last. -/
structure Event where
  session : Nat
  seq     : Nat
  body    : List Byte := []
  sent    : Nat := 1
  last    : Nat := 0
  deriving DecidableEq, Repr

/-- A boot slot's state (21 R385). -/
inductive SlotState where
  | current | old | trial | bad | empty
  deriving DecidableEq, Repr

/-- A boot slot (21 R383, R385): its state, the bytes written to its image, its size, and whether the bytes not written
are those of the image it left the factory with. -/
structure BootSlot where
  st  : SlotState := .empty
  img : Sparse Byte := []
  size : Nat := 0
  factory : Bool := false
  deriving DecidableEq, Repr

/-- The step a start has reached (21 Table 21-6): `starting` with the slot it takes. -/
inductive StartStep where
  | ready | recovery
  | starting (slot : Nat) (warm : Bool)
  deriving DecidableEq, Repr

/-- An error record (21 Table 21-7). -/
structure ErrorRec where
  sev    : Nat
  src    : Nat
  code   : Nat := 0
  time   : Nat := 0
  loc    : Nat := 0
  tenant : Nat := 0xFFFF
  result : Nat := 3
  action : Nat := 0
  queue  : Nat := 0
  launch : Nat := 0
  count  : Nat := 1
  deriving DecidableEq, Repr

/-- A targeted test that is due (21 R388): its number, the structure (a row of 21 Table 21-8) and its place, the tick of
the error, and whether it has failed and its action waits. -/
structure PendingTest where
  num   : Nat
  kind  : Nat
  loc   : Nat
  since : Nat := 0
  lasting : Bool := false
  deriving DecidableEq, Repr

/-- A work request that has been started (22 R405): its 64 bytes as they were read, and for a WRITE the local bytes. -/
structure WorkReq where
  bytes : List Byte
  data  : List Byte := []
  deriving DecidableEq, Repr

/-- A queue pair of the scale-out ports (22 R404): `door` is the virtual address of its doorbell word, `prod` counts the
requests started and `cons` those completed, `started` are those started and not completed, and `wrote` is the mark of a READ's local bytes that are not performed. -/
structure QueuePair where
  num    : Nat
  tenant : Nat
  ring   : Nat
  log2   : Nat
  door   : Nat
  prod   : Nat := 0
  cons   : Nat := 0
  started : List WorkReq := []
  wrote  : Option Nat := none
  error  : Bool := false
  deriving DecidableEq, Repr

/-- A memory region that RDMA may reach (21 R382, 22 R404). -/
structure Region where
  num    : Nat
  tenant : Nat
  base   : Nat
  len    : Nat
  write  : Bool := true
  deriving DecidableEq, Repr

/-! ### Fabric (22) -/

/-- The rekey state of one link direction (22 Table 22-6). -/
inductive RekeyState where
  | steady | installed | switched
  deriving DecidableEq, Repr

/-- One direction of a link (22 R400, R401): current bank, the banks that hold a key, the flit count, the security
word of the latest flit, the rekey state, and
the tick from which, and the flit count at which, the current key is in use. -/
structure LinkDir where
  g     : Bool := false
  kg    : Bool := false
  bank0 : Bool := false
  bank1 : Bool := false
  fseq  : Nat := 0
  word  : W32 := 0
  st    : RekeyState := .steady
  retry : Option Nat := none
  since : Nat := 0
  from_ : Nat := 0
  deriving DecidableEq, Repr

/-- A scale-up port (22 R393, R401, R402): its status fields, the ticks of its replays of the last 1 ms, its failures in
a row, the tick at which it went down, and its two directions. -/
structure Port where
  num   : Nat
  up    : Bool := false
  fast  : Bool := false
  peer  : Nat := 0
  rev   : Byte := 0
  replays : List Nat := []
  fails  : Nat := 0
  downAt : Nat := 0
  tx    : LinkDir := {}
  rx    : LinkDir := {}
  deriving DecidableEq, Repr

/-- The port that the outstanding requests of a core to a line of another module take (22 R394); `core` is none for an engine,
and `till` is the tick at which its latest load returns. -/
structure Route where
  core : Option Nat
  line : Nat
  port : Nat
  till : Nat
  deriving DecidableEq, Repr

/-- A port whose backlog toward a target is above 75% of its credits (22 R403): since when, and the tick of its last hint. -/
structure Backlog where
  port   : Nat
  target : Nat
  since  : Nat
  hint   : Option Nat := none
  deriving DecidableEq, Repr

/-- Flits that this module forwards for two others, from a port to a port, until a tick (22 R395). -/
structure Forward where
  into : Nat
  out  : Nat
  till : Nat
  deriving DecidableEq, Repr

/-- An entry of the export table (22 R396): a range of this module's frames, a source module and a tenant. -/
structure Export where
  base   : Nat
  len    : Nat
  src    : Nat
  tenant : Nat
  deriving DecidableEq, Repr

/-- What this module answers to a remote request (22 R394, R399). -/
inductive RemoteAnswer where
  | data (bytes : List Byte)
  | lease (bytes : List Byte) (e : Nat)
  | done (t : Nat)
  | old (v : W64) (t : Nat)
  | refused (detail : Nat)
  | unsupported
  deriving DecidableEq, Repr

/-! ### The whole state -/

/-- What happens to the part from outside its instructions, with no event of the opcode table. -/
inductive Happening where
  /-- A corrected error of a structure of 21 Table 21-8 (01 R15, 08 R166, 11 R219, 13 R249, 18 R328): its row and place. -/
  | corrected (kind loc : Nat)
  /-- An uncorrectable error arises in what `State.poison` lists. -/
  | poisoned (kind key : Nat)
  /-- An uncorrectable error arises in an entry of a lane's forward or return stream queue (08 R166). -/
  | streamEntry (gid lane : Nat) (fwd : Bool) (n : Nat)
  /-- An uncorrectable error arises in a register of a group (01 R15). -/
  | register (gid key : Nat)
  /-- An uncorrectable error is found in a sector of a line of a core's L1 (11 R227). -/
  | l1Sector (core line sec : Nat)
  /-- An uncorrectable error is found in the entries of a cluster's copy engine (13 R264). -/
  | copyEntries (cluster : Nat)
  /-- Firmware clears the poison of a vault line (13 R263). -/
  | clearLine (die line : Nat)
  /-- Firmware, at the operator's request, gives a 64 KiB block of vault space to a tenant, or to none (13 R246). -/
  | block (num : Nat) (tenant : Option Nat)
  /-- Firmware maps a page of a tenant (15 R287, 18 R323). -/
  | mapPage (p : Page)
  /-- A tenant declares a region demand-mapped (21 R376). -/
  | demandMap (r : Region)
  /-- Firmware changes `RCMAP` of a stack (18 R324). -/
  | rcmap (stack : Nat) (v : W64)
  /-- Firmware sets a tenant's budget and period on a die (15 R280). -/
  | budget (die tenant b t : Nat)
  /-- The operator raises the fuse minimum `MINSVN` (21 R383). -/
  | minsvn (v : Nat)
  /-- The operator installs a firmware module for a service (21 R378). -/
  | service (n : Nat)
  /-- Firmware registers a region for RDMA at the operator's request (21 R382, 22 R404). -/
  | regionAdd (r : Region)
  /-- Firmware fills the export table at the operator's request (22 R396). -/
  | exportAdd (e : Export)
  /-- Firmware creates a queue pair of the host port (21 R382). -/
  | hostPair (num : Nat)
  /-- A SEND, an atomic or a UD datagram of RoCE reaches the host port (21 R382). -/
  | hostOther
  /-- An ordinary write of firmware reaches the bytes of a capability (21 R367). -/
  | plainWrite (place : CapPlace)
  /-- Firmware grants a camera to a tenant, or to none (20 R356, 21 R371). -/
  | cameraGrant (num : Nat) (tenant : Option Nat)
  /-- Firmware grants an encode session to a tenant, or to none (20 R364, 21 R371). -/
  | sessionGrant (num : Nat) (tenant : Option Nat)
  /-- A scale-out port comes up or goes down (22 R404). -/
  | scaleOutPort (num : Nat) (up : Bool)
  /-- Firmware creates a queue pair at the operator's request (22 R404). -/
  | queuePair (q : QueuePair)
  /-- A tenant's policy keeps its memory over a warm start, or does not (21 R386). -/
  | keepMemory (tenant : Nat) (on : Bool)
  /-- Firmware has learned the module's own number from the tray (22 R390). -/
  | moduleNumber (n : Nat)
  /-- Firmware loads an object for a tenant (02 R47). -/
  | object (x : Wawafer)
  deriving DecidableEq, Repr

/-- One thing to be done next: an event of the module, an issue of the lanes of a group that were picked at a program
counter, of a sequencer, of a row program's step, or what happens from outside. -/
inductive Work where
  | event (i : Instr) (x : Subject)
  | lane (gid : Nat) (pc : W64) (lanes : W32)
  | seq (team : Nat)
  | row (cmd : Nat)
  | outside (x : Happening)
  deriving DecidableEq, Repr

/-- What the instruction being executed runs on: the group, its address and length, the lanes it issued to
and its words; or the team of a sequencer; or a row command. -/
structure Cur where
  gid   : Nat := 0
  pc    : W64 := 0
  size  : Nat := 0
  lanes : W32 := 0
  words : List W32 := []
  team  : Nat := 0
  cmd   : Nat := 0
  deriving DecidableEq, Repr

/-- The module. -/
structure State where
  /- what is done next, and what it is about -/
  agenda : List Work
  cur    : Cur
  ev     : Subject
  /- the model's own counters: free values drawn, serial numbers given -/
  free   : Nat
  serial : Nat
  /- time (00 R8 to R11): eighths of a nanosecond since release; the device time base with its fraction in
     1/40,000 ns; what is left of a first-lock hold, in the same units; the time-base state; whether the 1588 source
     is present; the rate correction of a cycle, 5 for none; how far the 1588 time is ahead of the count, in 1/40,000 ns, while
     the module follows it; and when holdover began -/
  ticks  : Nat
  time   : Nat
  sub    : Nat
  hold   : Nat
  tstat  : TimeState
  source : Bool
  rate   : Nat
  off    : Int
  since  : Nat
  peers  : Sparse Nat
  /- cores and what is resident or saved -/
  cores  : List Core
  groups : List Group
  teams  : List Team
  saved  : List Saved
  l1     : List L1Line
  l1use  : Nat
  leaselen : W64
  /- `poison` lists what holds an uncorrectable error: kind 0 a 64-byte sector of global memory, 1 a line of a
     team's local store (team × 2^11 + line), 2 a vault line (die × 2^22 + line), 6 a slot of a team's sequencer (team × 8 + slot), 7 a tile (team × 8 + tile);
     what ends an error: assumption log 99. The errors of registers are in `Group.bad`, those of stream-queue entries in
     `Lane.fwdBad` and `Lane.retBad` -/
  /- memory: HBM4E and LPDDR6 by domain physical address; the vaults at die × 2^29 + vault address -/
  mem    : List Host.Cell
  vault  : List Host.Cell
  homes  : List Home
  msc    : List MscLine
  predict : Sparse W32
  mscB   : Sparse Nat
  mscWays : Sparse Nat
  rcmap  : List W64
  vheld  : List VHeld
  /- the reads that arrays hold (13 R248), and the additions to objects that were held and are made, by serial number, with
     their outcome -/
  arrivals : List Arrival
  added  : List (Nat × Bool)
  blocks : Sparse Nat
  blockMoves : List (Nat × Nat)
  poison : List (Nat × Nat)
  spares : Sparse Nat
  badBlocks : List Nat
  arrays : Sparse Retention
  idle   : Nat
  pages  : List Page
  demand : List Region
  tlb    : List (Nat × Page)
  tlb1   : List (Nat × Page)
  invals : List (Nat × Nat)
  /- engines -/
  msts   : List MstCount
  copies : List Copy
  turn   : Sparse Nat
  ringFaults : List (Nat × Bool)
  meshDown : List (Nat × Nat × Nat)
  tags   : List RouteTag
  rows   : List RowCmd
  banks  : List NearBank
  /- for each DRAM bank, (stack × 64 + pseudo-channel) × 16 + bank, the tick at which an ordinary access last reached it while
     a row command ran on it, plus 1 (18 R343) -/
  bankAsks : Sparse Nat
  postponed : Sparse Nat
  rowSpares : Sparse Nat
  retired : List Nat
  tex    : List TexReq
  splats : List Splat
  cameras : List Camera
  lostSplats : Sparse Nat
  sessions : List Session
  /- front ends -/
  nextLaunch : List Nat
  launches : List Launch
  tables : List Wawafer
  bins   : List (List Bin)
  poolage : List W64
  budgets : List Budget
  faultq : List (List FaultEntry)
  faultWait : List (List FaultEntry)
  held   : List (Nat × Nat)
  delivered : List Nat
  hints  : List Hint
  reserves : List Reserve
  /- firmware and host -/
  queues : List HostQueue
  qwdog  : Nat
  debugs : List (Nat × Nat)
  ehp    : List Ehps
  dropped : Nat
  frames : Nat
  outbox : List HostMsg
  events : List Event
  onWire : Nat
  pausedTo : Nat
  hostQps : List Nat
  grants : Sparse Nat
  errCap : Capability
  regions : List Region
  slots  : List BootSlot
  minsvn : Nat
  step   : StartStep
  trialAt : Option Nat
  running : Option Nat
  keep   : List Nat
  trained : Bool
  reused : Bool
  errors : List ErrorRec
  tests  : List PendingTest
  plim   : Nat
  gate   : List Nat
  avg    : List Nat
  stopped : Bool
  services : List Nat
  /- fabric -/
  module : Nat
  ports  : List Port
  exports : List Export
  tagsSeen : List (Nat × Nat × Nat)
  inbox  : List RemoteReq
  answers : List (Nat × Nat × RemoteAnswer)
  qps    : List QueuePair
  outPorts : List Bool
  routes : List Route
  backlogs : List Backlog
  forwards : List Forward
  deriving DecidableEq, Repr

/-- The module right after a cold start has reached `READY` (00 R4, R8, 21 Table 21-6): nothing resident,
every memory zero, every map at its reset value. The fields for which the spec gives no reset value are
named in the assumption log (entries 1 and 2). -/
def State.reset : State :=
  { agenda := [], cur := {}, ev := {}, free := 0, serial := 0,
    ticks := 0, time := 0, sub := 0, hold := 0, tstat := .unlocked, source := false, rate := 5, off := 0, since := 0, peers := [],
    cores := List.replicate 192 {}, groups := [], teams := [], saved := [], l1 := [], l1use := 0,
    leaselen := 1000,
    mem := [], vault := [], homes := [], msc := [], predict := [], mscB := [], mscWays := [], rcmap := List.replicate 8 0,
    vheld := [], arrivals := [], added := [], blocks := [], blockMoves := [], poison := [], spares := [], badBlocks := [], arrays := [], idle := 20000,
    pages := [], demand := [], tlb := [], tlb1 := [], invals := [],
    msts := [], copies := [], turn := [], ringFaults := [], meshDown := [],
    tags := List.ofFn (n := 16) (fun i => { die := i.val / 8, tag := i.val % 8 }), rows := [], banks := [], bankAsks := [], postponed := [],
    rowSpares := [], retired := [], tex := [], splats := [], cameras := [], lostSplats := [], sessions := [],
    nextLaunch := [1, 1], launches := [], tables := [],
    bins := List.replicate 2 (List.replicate 64 Bin.free), poolage := [2000, 2000], budgets := [],
    faultq := [[], []], faultWait := [[], []], held := [], delivered := [], hints := [], reserves := [],
    queues := [], qwdog := 10000000000, debugs := [], ehp := [], dropped := 0, frames := 0, outbox := [],
    events := [], onWire := 0, pausedTo := 0, hostQps := [], grants := [],
    errCap := { tag := true, otype := 4, perm := 3, len := 64 * 4096, base := 0 }, regions := [],
    slots := [{ st := .current, factory := true }, {}], minsvn := 0, step := .ready, trialAt := none, running := some 0,
    keep := [], trained := true, reused := false, errors := [], tests := [], plim := 2600, gate := [0, 0], avg := [],
    stopped := false, services := [],
    module := 0, ports := List.ofFn (n := 48) (fun i => { num := i.val }), exports := [], tagsSeen := [],
    inbox := [], answers := [], qps := [], outPorts := List.replicate 6 false, routes := [], backlogs := [], forwards := [] }

end Sys2Proof.Machine
end

