-- ==== Sys2Proof/Machine/Registers.lean ====
section
/-! DEFINITION. The lanes of a group and their registers (01 R12): reading and writing them. -/

namespace Sys2Proof.Machine

open Sys2Proof

/-! ### Lanes -/

/-- A lane of a group. -/
def Group.lane (g : Group) (i : Nat) : Lane := g.lanes.getD i { ended := true }

/-- Changes a lane of a group. -/
def Group.modLane (g : Group) (i : Nat) (f : Lane → Lane) : Group := { g with lanes := modAt f g.lanes i }

/-- Changes every lane in a list. -/
def Group.modLanes (g : Group) (l : List Nat) (f : Lane → Lane) : Group :=
  l.foldl (fun g i => g.modLane i f) g

/-! ### Registers (01 R12) -/

/-- `g`r of a lane. -/
def Group.readG (g : Group) (i r : Nat) : W32 := Sparse.get 0 g.g (i * 256 + r)
/-- The pair at `g`r of a lane, the low half in the even register (00 R7). -/
def Group.readG2 (g : Group) (i r : Nat) : W64 := g.readG i (r + 1) ++ g.readG i r
/-- Element e of `w`r of a lane. -/
def Group.readW (g : Group) (i r e : Nat) : W32 := Sparse.get 0 g.w ((i * 32 + r) * 8 + e)
/-- `k`r. -/
def Group.readK (g : Group) (r : Nat) : W64 := Sparse.get 0 g.k r
/-- `j`r. -/
def Group.readJ (g : Group) (r : Nat) : W32 := Sparse.get 0 g.j r
/-- `p`r of a lane; `p0` reads true (00 Table 0-5). -/
def Group.readP (g : Group) (i r : Nat) : Bool := r == 0 || (Sparse.get 0 g.p r).getLsbD i

/-- The key of a register of a lane among those that hold an uncorrectable error (01 R15); a `k` or `j` register has
that of lane 0. -/
def regKey (i : Nat) : Reg → Nat
  | .g r => i * 512 + r
  | .w r => i * 512 + 256 + r
  | .p r => i * 512 + 288 + r
  | .k r => 352 + r
  | .q _ => 0

/-- The key of `j`r among the registers that hold an uncorrectable error. -/
def joinKey (r : Nat) : Nat := 416 + r

/-- A register that is written anew holds no error. -/
def Group.mend (g : Group) (key : Nat) : List Nat := g.bad.filter (· != key)

/-- Writes `g`r of a lane. -/
def Group.writeG (g : Group) (i r : Nat) (v : W32) : Group :=
  { g with g := Sparse.put 0 g.g (i * 256 + r) v, bad := g.mend (regKey i (.g r)) }
/-- Writes an element of `w`r of a lane. -/
def Group.writeW (g : Group) (i r e : Nat) (v : W32) : Group :=
  { g with w := Sparse.put 0 g.w ((i * 32 + r) * 8 + e) v, bad := g.mend (regKey i (.w r)) }
/-- Writes `k`r. -/
def Group.writeK (g : Group) (r : Nat) (v : W64) : Group :=
  { g with k := Sparse.put 0 g.k r v, bad := g.mend (regKey 0 (.k r)) }
/-- Writes `j`r. -/
def Group.writeJ (g : Group) (r : Nat) (v : W32) : Group := { g with j := Sparse.put 0 g.j r v, bad := g.mend (joinKey r) }
/-- Writes `p`r of a lane; a write to `p0` has no effect. -/
def Group.writeP (g : Group) (i r : Nat) (b : Bool) : Group :=
  if r == 0 then g
  else
    let m := Sparse.get 0 g.p r
    let one := 1#32 <<< i
    { g with p := Sparse.put 0 g.p r (if b then m ||| one else m &&& ~~~one), bad := g.mend (regKey i (.p r)) }

/-- Writes one register cell of a lane. -/
def Group.writeCell (g : Group) (i : Nat) : RCell → W64 → Group
  | .g r, v => g.writeG i r (v.setWidth 32)
  | .w r e, v => g.writeW i r e (v.setWidth 32)
  | .p r, v => g.writeP i r (v != 0)
  | .k r, v => g.writeK r v
  | .q _, _ => g

/-- What a register cell of a lane holds. -/
def Group.readCell (g : Group) (i : Nat) : RCell → W64
  | .g r => (g.readG i r).setWidth 64
  | .w r e => (g.readW i r e).setWidth 64
  | .p r => if g.readP i r then 1 else 0
  | .k r => g.readK r
  | .q _ => 0

/-- The register that a cell belongs to. -/
def RCell.reg : RCell → Reg
  | .g r => .g r
  | .w r _ => .w r
  | .p r => .p r
  | .k r => .k r
  | .q r => .q r

/-! ### Writing in order (02 R32, R35) -/

/-- Writes a cell that a result of serial number `n` is for. A `k` register belongs to the group: it keeps the value
written last in issue order, and of one issue that of the highest lane (02 R32, R35 rule 2). -/
def Group.writeOrdered (g : Group) (i : Nat) (c : RCell) (v : W64) (n : Nat) : Group :=
  match c with
  | .k r => if n < Sparse.get 0 g.kser r then g else { g.writeK r v with kser := Sparse.put 0 g.kser r n }
  | c => g.writeCell i c v

/-- Writes a cell at once, where the serial numbers given so far end before `n`. -/
def Group.writeNow (g : Group) (i : Nat) (c : RCell) (v : W64) (n : Nat) : Group :=
  match c with
  | .k r => { g.writeK r v with kser := Sparse.put 0 g.kser r n }
  | c => g.writeCell i c v

end Sys2Proof.Machine
end

