-- ==== Sys2Proof/Machine/Images.lean ====
section
/-! DEFINITION. The images that a pre-emption writes and a restore reads (08 Table 8-4, 09 Table 9-4, 10 Table 10-9), and
the checks that refuse one (08 R165, 09 R195, 10 R215). -/

namespace Sys2Proof.Machine

open Sys2Proof

/-! ### Bytes -/

/-- `n` zero bytes. -/
def zeros (n : Nat) : List Byte := List.replicate n 0

/-- A list of bytes brought to a length with zeros. -/
def fitTo (n : Nat) (bs : List Byte) : List Byte := bs.take n ++ zeros (n - bs.length)

/-- The 32-bit little-endian words of a list of bytes. -/
def imageWords : List Byte → List Nat
  | a :: b :: c :: d :: r => leVal [a, b, c, d] :: imageWords r
  | _ => []

/-- `k` pieces of `n` bytes of a list. -/
def chunks (n : Nat) : Nat → List Byte → List (List Byte)
  | 0, _ => []
  | k + 1, bs => bs.take n :: chunks n k (bs.drop n)

/-- A field of `n` bytes, at most 8, at an offset of an image given by its words. -/
def imageField (ws : Array Nat) (off n : Nat) : Nat :=
  (ws.getD (off / 4) 0 + 2 ^ 32 * ws.getD (off / 4 + 1) 0) / 2 ^ (8 * (off % 4)) % 2 ^ (8 * n)

/-- The entries of a sparse list that words give: those that are not zero, each at its key. -/
def sparseWords (l : List (Nat × Nat)) : Sparse W32 :=
  l.filterMap (fun x => if x.2 == 0 then none else some (x.1, w32 x.2))

/-- The number whose bits are the truth values of a list, the first lowest. -/
def bitsOf (l : List Bool) : Nat := l.foldr (fun b n => b.toNat + 2 * n) 0

/-! ### The image of a group (08 R164) -/

/-- The size of a group's image (08 R164). -/
def groupImageSize (n m : Nat) : Nat := 7680 + 128 * n + 1024 * m

/-- The 16 bytes of a lane (08 Table 8-4). -/
def Lane.image (l : Lane) : List Byte :=
  bytes64 l.pc ++ leOf 1 l.fflags.toNat ++ leOf 1 (l.park + 16 * l.ended.toNat + 32 * l.replay.toNat) ++ zeros 6

/-- The image of a group (08 Table 8-4): `k1` is what its lanes were launched with, `stream` says whether a stream port is
bound, and `now` is the device time. -/
def Group.image (g : Group) (k1 : Nat) (stream : Bool) (now : Nat) : List Byte :=
  let q := fun (n : Nat) => leOf 8 n
  let lane := fun (i : Nat) => g.lanes.getD i { ended := true }
  leOf 4 0x43475856 ++ leOf 2 1 ++ leOf 2 (bitsOf [g.stopped, g.pkt8, g.jenf, g.pool, stream]) ++
    leOf 4 (groupImageSize g.n g.m) ++ leOf 2 g.n ++ leOf 1 g.m ++ leOf 1 g.part ++ q (k1 % 2 ^ 37) ++ leOf 2 g.tenant ++ zeros 6 ++
    q now ++ zeros 24 ++
    laneIds.flatMap (fun i => (lane i).image) ++
    (List.range 64).flatMap (fun r => leOf 4 (if r == 0 then 0xFFFFFFFF else (Sparse.get 0 g.p r).toNat)) ++
    (List.range 64).flatMap (fun r => bytes64 (Sparse.get 0 g.k r)) ++
    (List.range 16).flatMap (fun r => leOf 4 (Sparse.get 0 g.j r).toNat) ++
    q g.trapCause.toNat ++ q g.trapPc.toNat ++ q g.trapMask.toNat ++ q g.trapAddr.toNat ++ q g.trapW0.toNat ++
    q g.trapW1.toNat ++ q g.wctime ++ q g.txstat.toNat ++
    laneIds.flatMap (fun i => leOf 1 (min 16 (lane i).fwd.length) ++ leOf 1 (min 8 (lane i).ret.length)) ++
    laneIds.flatMap (fun i => fitTo 128 ((lane i).fwd.flatMap bytes64)) ++
    laneIds.flatMap (fun i => fitTo 64 ((lane i).ret.flatMap bytes64)) ++
    (List.range g.n).flatMap (fun r => laneIds.flatMap (fun i => leOf 4 (Sparse.get 0 g.g (i * 256 + r)).toNat)) ++
    (List.range g.m).flatMap (fun r => laneIds.flatMap (fun i => (List.range 8).flatMap (fun e =>
      leOf 4 (Sparse.get 0 g.w ((i * 32 + r) * 8 + e)).toNat)))

/-- A group with the results of its open lookahead windows complete in their destinations, as its image holds them (08
Table 8-3). -/
def Group.completed (g : Group) : Group :=
  laneIds.foldl (fun g i => (g.lane i).pend.foldl (fun g p => p.cells.foldl (fun g c => match c.2 with
    | some v => g.writeOrdered i c.1 v p.serial
    | none => g) g) g) g

/-- The open windows of a lane as they stand beside an image that holds their results: of each register the value that it
still shows inside its window. A `k` register's stands in `Group.rest`, and a result that waits for room in its queue keeps its
value. -/
def Group.windowsOf (g : Group) (i : Nat) (l : Lane) : List Pend :=
  l.pend.map (fun (p : Pend) => { p with cells := p.cells.map (fun c => match c.1 with
    | .k _ | .q _ => c
    | r => (r, some (g.readCell i r))) })

/-- The `k` registers that the results of open windows are for. -/
def Group.owedK (g : Group) : List Nat :=
  (g.lanes.flatMap (fun (l : Lane) => l.pend.flatMap (fun (p : Pend) => p.cells.filterMap (fun c => match c.1 with
    | .k r => some r
    | _ => none)))).eraseDups

/-- The windows that stand beside an image are open again: each register shows its value inside the window, and the image's
value is the result to come. -/
def Group.reopen (g : Group) : Group :=
  let cell := fun (x : Group × List (RCell × Option W64)) (i : Nat) (c : RCell × Option W64) => match c.1 with
    | .k _ | .q _ => (x.1, x.2 ++ [c])
    | r => (x.1.writeCell i r (c.2.getD 0), x.2 ++ [(r, some (x.1.readCell i r))])
  let one := fun (x : Group × List Pend) (i : Nat) (p : Pend) =>
    let (g, cs) := p.cells.foldl (fun y c => cell y i c) (x.1, [])
    (g, x.2 ++ [{ p with cells := cs }])
  laneIds.foldl (fun (g : Group) i =>
    let (g, ps) := (g.lane i).pend.foldl (fun x p => one x i p) (g, [])
    g.modLane i (fun l => { l with pend := ps })) g

/-- What a group's image has no place for, kept beside it (assumption log 44): its number and place in its team, its
windows of vault memory, the registers with errors, and of each lane what it waits for, its open lookahead windows, its
passes of a closing check (16 R303), and the pushes to its stream queues that wait for room with the errors of entries. -/
def Group.rest (g : Group) : Group :=
  { g with
    g := [], w := [], p := [], j := [], trapCause := 0, trapPc := 0, trapMask := 0, trapAddr := 0, trapW0 := 0, trapW1 := 0,
    k := g.owedK.map (fun r => (r, g.readK r))
    stopped := false, wctime := 0, txstat := 0
    lanes := laneIds.map (fun i =>
      let l := g.lane i
      { aux := l.aux, pend := g.windowsOf i l, wait := l.wait, checks := l.checks, fwd := l.fwd.drop 16, ret := l.ret.drop 8,
        fwdBad := l.fwdBad, retBad := l.retBad }) }

/-- The group that an image gives, with what stands beside it. -/
def Group.ofImage (rest : Group) (bs : List Byte) : Group :=
  let ws := (imageWords bs).toArray
  let at_ := imageField ws
  let n := at_ 0x0C 2
  let m := at_ 0x0E 1
  let flag := fun (i : Nat) => at_ 0x06 2 / 2 ^ i % 2 == 1
  let lane := fun (i : Nat) =>
    let l := rest.lanes.getD i {}
    let b := at_ (0x40 + 16 * i + 9) 1
    { l with
      pc := w64 (at_ (0x40 + 16 * i) 8), fflags := BitVec.ofNat 5 (at_ (0x40 + 16 * i + 8) 1), park := b % 16,
      ended := b / 16 % 2 == 1, replay := b / 32 % 2 == 1,
      fwd := (List.range (at_ (0x5C0 + 2 * i) 1)).map (fun e => w64 (at_ (0x600 + 128 * i + 8 * e) 8)) ++ l.fwd,
      ret := (List.range (at_ (0x5C1 + 2 * i) 1)).map (fun e => w64 (at_ (0x1600 + 64 * i + 8 * e) 8)) ++ l.ret }
  let gAt := fun (i r : Nat) => ws.getD (0x780 + 32 * r + i) 0
  let wAt := fun (i r e : Nat) => ws.getD (0x780 + 32 * n + 256 * r + 8 * i + e) 0
  let inWindow := fun (r : Nat) => rest.k.any (fun x => x.1 == r)
  let g := Group.reopen { rest with
    n := n, m := m, part := at_ 0x0F 1, tenant := at_ 0x18 2,
    stopped := flag 0, pkt8 := flag 1, jenf := flag 2, pool := flag 3,
    lanes := laneIds.map lane,
    g := sparseWords (laneIds.flatMap (fun i => (List.range n).map (fun r => (i * 256 + r, gAt i r)))),
    w := sparseWords (laneIds.flatMap (fun i => (List.range m).flatMap (fun r => (List.range 8).map (fun e =>
      ((i * 32 + r) * 8 + e, wAt i r e))))),
    p := sparseWords ((List.range 63).map (fun r => (r + 1, at_ (0x244 + 4 * r) 4))),
    k := (List.range 64).filterMap (fun r =>
      let v := if inWindow r then Sparse.get 0 rest.k r else w64 (at_ (0x340 + 8 * r) 8)
      if v == 0 then none else some (r, v)),
    j := sparseWords ((List.range 16).map (fun r => (r, at_ (0x540 + 4 * r) 4))),
    trapCause := BitVec.ofNat 16 (at_ 0x580 8), trapPc := w64 (at_ 0x588 8), trapMask := w32 (at_ 0x590 8),
    trapAddr := w64 (at_ 0x598 8), trapW0 := w64 (at_ 0x5A0 8), trapW1 := w32 (at_ 0x5A8 8), wctime := at_ 0x5B0 8,
    txstat := w32 (at_ 0x5B8 8) }
  { g with bad := rest.bad }

/-- Whether a restore accepts a group's image for budgets `n` and `m` (08 R165): its magic, version and size are right, no
byte that the table does not assign is nonzero, no `PARK` is above 5, and no stream queue holds more than its depth. That
the group that the bytes give has those very bytes for its image says the first and the second. -/
def Group.imageOk (rest : Group) (bs : List Byte) (n m : Nat) : Bool :=
  let g := Group.ofImage rest bs
  let ws := (imageWords bs).toArray
  bs.length == groupImageSize n m && g.n == n && g.m == m &&
    g.lanes.all (fun l => l.park ≤ 5) &&
    laneIds.all (fun i => imageField ws (0x5C0 + 2 * i) 1 ≤ 16 && imageField ws (0x5C1 + 2 * i) 1 ≤ 8) &&
    g.completed.image (imageField ws 0x10 8) (imageField ws 0x06 2 / 16 % 2 == 1) (imageField ws 0x20 8) == bs

/-! ### The image of a sequencer (10 R215) -/

/-- The bytes of a block row (10 Table 10-7). -/
def rowLen (fmt : Nat) : Nat := if fmt == 4 then 96 else 64

/-- The code of a sequencer's state (10 Table 10-3). -/
def SeqState.code : SeqState → Nat
  | .idle => 0
  | .running => 1
  | .waiting => 2
  | .blocked => 3
  | .halted => 4

/-- The state of a code. -/
def SeqState.ofCode (n : Nat) : SeqState := [.idle, .running, .waiting, .blocked, .halted].getD n .idle

/-- The size of a sequencer's image (10 Table 10-9). -/
def seqImageSize : Nat := 180736

/-- The image of a sequencer with the format latches of its team's numbered barriers (10 Table 10-9). -/
def Sequencer.image (q : Sequencer) (bars : List NumBar) : List Byte :=
  let slots := q.a ++ q.b
  leOf 4 0x51535856 ++ leOf 2 1 ++ zeros 2 ++ leOf 4 seqImageSize ++ leOf 1 q.st.code ++ leOf 1 (q.mfmt + 128 * q.fset.toNat) ++
    leOf 1 (bitsOf (q.acc.map (·.valid))) ++ leOf 1 (bitsOf (slots.map (·.full))) ++ bytes64 q.pc ++ bytes64 q.err ++
    bytes64 q.epc ++ leOf 8 q.flg.toNat ++ leOf 8 q.skips ++
    (if q.st == .waiting then leOf 1 q.waitBar ++ leOf 1 q.waitPhase.toNat else zeros 2) ++ zeros 6 ++
    slots.flatMap (fun x => leOf 1 x.fmt ++ leOf 1 x.keep.toNat ++ zeros 14) ++
    (List.range 32).flatMap (fun r => bytes64 (Sparse.get 0 q.x r)) ++
    bars.flatMap (fun b => leOf 1 (match b.latch with
      | some f => f + 128
      | none => 0)) ++ zeros 48 ++
    slots.flatMap (fun x => fitTo 6144 (x.rows.flatMap (fitTo (rowLen x.fmt)))) ++
    q.acc.flatMap (fun t => (List.range 4096).flatMap (fun k => leOf 4 (Sparse.get 0 t.c k).toNat))

/-- The sequencer that an image gives; how much an `MST.Q` has pushed stands beside it (assumption log 44). -/
def Sequencer.ofImage (rest : Sequencer) (bs : List Byte) : Sequencer :=
  let ws := (imageWords (bs.take 0x200)).toArray
  let at_ := imageField ws
  let bit := fun (off i : Nat) => at_ off 1 / 2 ^ i % 2 == 1
  let data := chunks 6144 8 (bs.drop 0x200)
  let tiles := chunks 16384 8 (bs.drop 0xC200)
  let slot := fun (n : Nat) =>
    let f := at_ (0x40 + 16 * n) 1
    ({ full := bit 0x0F n, fmt := f, keep := at_ (0x41 + 16 * n) 1 == 1,
       rows := if bit 0x0F n then chunks (rowLen f) 64 (data.getD n []) else [] } : Slot)
  let tile := fun (t : Nat) =>
    ({ valid := bit 0x0E t, c := sparseWords ((List.range 4096).zip (imageWords (tiles.getD t []))) } : Tile)
  { rest with
    x := (List.range 31).filterMap (fun r => if at_ (0xC8 + 8 * r) 8 == 0 then none else some (r + 1, w64 (at_ (0xC8 + 8 * r) 8))),
    pc := w64 (at_ 0x10 8), st := SeqState.ofCode (at_ 0x0C 1), mfmt := at_ 0x0D 1 % 8, fset := bit 0x0D 7,
    a := (List.range 4).map slot, b := (List.range 4).map (fun n => slot (n + 4)), acc := (List.range 8).map tile,
    flg := BitVec.ofNat 5 (at_ 0x28 8), skips := at_ 0x30 8, err := w64 (at_ 0x18 8), epc := w64 (at_ 0x20 8),
    waitBar := at_ 0x38 1, waitPhase := at_ 0x39 1 == 1 }

/-- The latch of a numbered barrier that a sequencer's image holds. -/
def latchOf (bs : List Byte) (b : Nat) : Option Nat :=
  let v := (bs.getD (0x1C0 + b) 0).toNat
  if 128 ≤ v then some (v % 8) else none

/-- Whether a restore accepts a sequencer's image (10 R215). -/
def Sequencer.imageOk (rest : Sequencer) (bs : List Byte) : Bool :=
  let q := Sequencer.ofImage rest bs
  let bars := (List.range 16).map (fun b => ({ latch := latchOf bs b } : NumBar))
  bs.length == seqImageSize && (bs.getD 0x0C 0).toNat ≤ 4 && q.mfmt ≤ 4 &&
    bars.all (fun b => b.latch.all (· ≤ 4)) && q.image bars == bs

/-! ### The record of a team (09 R195) -/

/-- The size of a team's record (09 Table 9-4). -/
def teamRecordSize : Nat := 8704

/-- The descriptor of a queue (09 R191). -/
def TeamQueue.desc (q : TeamQueue) : Nat := q.port + 256 * q.inst

/-- The record of a team (09 Table 9-4); a stream port's entries stand in the groups' images. -/
def Team.record (t : Team) : List Byte :=
  let qs := (List.range 16).map (fun i => t.queues.getD i {})
  leOf 4 0x54475856 ++ leOf 2 1 ++ leOf 2 (bitsOf [t.seq.isSome, t.tag.isSome, t.treeSent]) ++ leOf 4 teamRecordSize ++
    leOf 1 t.size ++ leOf 1 (t.tag.getD 0) ++ leOf 1 (if t.treeSent then t.treePhase else 0) ++ zeros 1 ++ bytes64 t.fmode ++
    leOf 4 t.num ++ leOf 2 t.tenant ++ zeros 2 ++ leOf 4 t.barSet.toNat ++ leOf 4 t.treeSet.toNat ++ leOf 4 t.lsBytes ++ zeros 4 ++
    (List.range 16).flatMap (fun b =>
      let nb := t.bars.getD b {}
      leOf 4 nb.set.toNat ++ leOf 1 nb.s ++ leOf 1 nb.phase.toNat ++ zeros 2) ++ zeros 80 ++
    qs.flatMap (fun q => leOf 8 q.desc) ++ qs.flatMap (fun q => leOf 1 q.entries.length ++ zeros 1) ++ zeros 96 ++
    qs.flatMap (fun q => fitTo 512 (q.entries.flatMap (fun e => bytes64 e.val)))

/-- What a team's record has no place for, kept beside it (assumption log 44): its launch and die, its cluster, its vault
windows, its local store, and of each queue entry who pushed it. -/
def Team.rest (t : Team) : Team :=
  { t with
    fmode := 0, barSet := 0, treeSet := 0, treeSent := false, bars := List.replicate 16 {}
    queues := t.queues.map (fun q => { entries := q.entries.map (fun e => { e with val := 0 }) })
    seq := t.seq.map (fun q => { pushed := q.pushed }) }

/-- The team that a record gives, with what stands beside it. -/
def Team.ofRecord (rest : Team) (bs : List Byte) : Team :=
  let ws := (imageWords (bs.take teamRecordSize)).toArray
  let at_ := imageField ws
  let flag := fun (i : Nat) => at_ 0x06 2 / 2 ^ i % 2 == 1
  let seq := bs.drop teamRecordSize
  let queue := fun (i : Nat) =>
    let who := (rest.queues.getD i {}).entries
    ({ port := at_ (0x100 + 8 * i) 1, inst := at_ (0x101 + 8 * i) 1,
       taken := if at_ (0x100 + 8 * i) 1 == 8 then rest.splat.length else 0,
       entries := (List.range (at_ (0x180 + 2 * i) 1)).map (fun e =>
         { who.getD e { val := 0 } with val := w64 (at_ (0x200 + 512 * i + 8 * e) 8) }) } : TeamQueue)
  let bar := fun (b : Nat) =>
    ({ set := w32 (at_ (0x30 + 8 * b) 4), s := at_ (0x34 + 8 * b) 1, phase := at_ (0x35 + 8 * b) 1 == 1,
       latch := if rest.seq.isSome then latchOf seq b else none } : NumBar)
  { rest with
    size := at_ 0x0C 1, tag := if flag 1 then some (at_ 0x0D 1) else none, treeSent := flag 2, fmode := w64 (at_ 0x10 8),
    num := at_ 0x18 4, tenant := at_ 0x1C 2, barSet := w32 (at_ 0x20 4), treeSet := w32 (at_ 0x24 4), lsBytes := at_ 0x28 4,
    bars := (List.range 16).map bar, queues := (List.range 16).map queue,
    seq := rest.seq.map (fun q => Sequencer.ofImage q seq) }

/-- Whether a restore accepts a team's record (09 R195) where `granted` says which encode sessions the tenant has: its
magic, version and size are right and no byte that the table does not assign is nonzero, every descriptor keeps 09 R191, no
count exceeds its port's depth, and its sequencer's image is accepted. -/
def Team.recordOk (rest : Team) (bs : List Byte) (depth : Nat → Nat) (granted : Nat → Bool) : Bool :=
  let t := Team.ofRecord rest bs
  let ports := (t.queues.map (·.port)).filter (· != 0)
  t.seq.isSome == (imageField (imageWords (bs.take 16)).toArray 0x06 2 % 2 == 1) &&
  { t with treePhase := (bs.getD 0x0E 0).toNat }.record == bs.take teamRecordSize &&
  t.queues.all (fun q => q.port ≤ 9 && (if q.port == 9 then granted q.inst else q.inst == 0) && q.entries.length ≤ depth q.port &&
    (!(q.port == 3 || q.port == 4) || t.seq.isSome)) &&
  ports.eraseDups.length == ports.length &&
  (match rest.seq with
    | some q => Sequencer.imageOk q (bs.drop teamRecordSize)
    | none => bs.length == teamRecordSize)

/-! ### What is saved -/

/-- The group of a saved image. -/
def SavedGroup.group (x : SavedGroup) : Group := Group.ofImage x.rest x.image

/-- A group as it is saved: its image, and what the image has no place for. -/
def Group.toSaved (g : Group) (k1 : Nat) (stream : Bool) (now : Nat) : SavedGroup :=
  { rest := g.rest, image := g.completed.image k1 stream now }

/-- Firmware changes a saved group through its image (01 Table 1-5). -/
def SavedGroup.modify (x : SavedGroup) (f : Group → Group) : SavedGroup :=
  let ws := (imageWords x.image).toArray
  (f x.group).toSaved (imageField ws 0x10 8) (imageField ws 0x06 2 / 16 % 2 == 1) (imageField ws 0x20 8)

end Sys2Proof.Machine
end

