-- ==== Sys2Proof/Machine/Flags.lean ====
section
/-! DEFINITION. The sticky flags, the rounding modes and the mode word (01 R21, R22, 03 R52). -/

namespace Sys2Proof.Machine

open Sys2Proof

/-- A set of the five flags: `IX` [4], `UF` [3], `OF` [2], `DZ` [1], `IV` [0] (01 R22). -/
abbrev FlagSet := BitVec 5

/-- `IX`. -/
def flIX : FlagSet := 16
/-- `UF`. -/
def flUF : FlagSet := 8
/-- `OF`. -/
def flOF : FlagSet := 4
/-- `DZ`. -/
def flDZ : FlagSet := 2
/-- `IV`. -/
def flIV : FlagSet := 1

/-- The flag when a condition holds. -/
def flagIf (c : Bool) (f : FlagSet) : FlagSet := if c then f else 0

/-- The rounding modes (04 R63). -/
inductive Mode where
  | rn | rz | ru | rd
  deriving DecidableEq, Repr

/-- A mode from its code in `FMODE.RMODE` (01 Table 1-4). -/
def Mode.ofCode (n : Nat) : Mode :=
  match n % 4 with
  | 0 => .rn
  | 1 => .rz
  | 2 => .ru
  | _ => .rd

/-- What an instruction rounds with: the mode, `FTZ` and `E4SAT` (01 Table 1-4). -/
structure FpEnv where
  mode  : Mode := .rn
  ftz   : Bool := false
  e4sat : Bool := false
  deriving DecidableEq, Repr

/-- The environment that `FMODE` gives (01 R21). -/
def FpEnv.ofFmode (w : W64) : FpEnv :=
  { mode := Mode.ofCode w.toNat, ftz := w.getLsbD 2, e4sat := w.getLsbD 3 }

/-- The rounding of an instruction: `FAM` [2:0] 0 takes `FMODE`, 1 to 4 name a mode (03 R52). -/
def FpEnv.withFam (e : FpEnv) (fam : Nat) : FpEnv :=
  match fam % 8 with
  | 0 => e
  | 1 => { e with mode := .rn }
  | 2 => { e with mode := .rz }
  | 3 => { e with mode := .ru }
  | 4 => { e with mode := .rd }
  | _ => e

end Sys2Proof.Machine
end

