-- ==== Sys2Proof/Machine/Numbers.lean ====
section
/-! DEFINITION. The number formats, `RoundTo` and the arithmetic on exact values (04). -/

namespace Sys2Proof.Machine

open Sys2Proof

/-- A binary floating-point format (04 Table 4-1). -/
inductive Fmt where
  | f32 | f16 | b16 | e4m3 | e5m2
  deriving DecidableEq, Repr

/-- Exponent bits. -/
def Fmt.eb : Fmt → Nat
  | .f32 => 8 | .f16 => 5 | .b16 => 8 | .e4m3 => 4 | .e5m2 => 5
/-- Fraction bits. -/
def Fmt.fb : Fmt → Nat
  | .f32 => 23 | .f16 => 10 | .b16 => 7 | .e4m3 => 3 | .e5m2 => 2
/-- The exponent bias. -/
def Fmt.bias : Fmt → Nat
  | .f32 => 127 | .f16 => 15 | .b16 => 127 | .e4m3 => 7 | .e5m2 => 15
/-- The width in bits. -/
def Fmt.width (f : Fmt) : Nat := 1 + f.eb + f.fb
/-- The code of the largest finite value. -/
def Fmt.maxCode : Fmt → Nat
  | .f32 => 0x7F7FFFFF | .f16 => 0x7BFF | .b16 => 0x7F7F | .e4m3 => 0x7E | .e5m2 => 0x7B
/-- The code of +∞; E4M3 has none. -/
def Fmt.infCode : Fmt → Option Nat
  | .f32 => some 0x7F800000 | .f16 => some 0x7C00 | .b16 => some 0x7F80 | .e4m3 => none | .e5m2 => some 0x7C
/-- The canonical NaN. -/
def Fmt.nanCode : Fmt → Nat
  | .f32 => 0x7FC00000 | .f16 => 0x7E00 | .b16 => 0x7FC0 | .e4m3 => 0x7F | .e5m2 => 0x7E
/-- Whether `FTZ` acts on the format (04 R62). -/
def Fmt.flushes : Fmt → Bool
  | .f32 => true | .f16 => true | _ => false

/-- A value read from an encoding: `fin neg m e` is (−1)^neg × m × 2^e. -/
inductive Val where
  | nan (signalling : Bool)
  | inf (neg : Bool)
  | fin (neg : Bool) (m : Nat) (e : Int)
  deriving DecidableEq, Repr

/-- Reads an encoding (04 R60, R61), flushing as `FTZ` says (04 R62). -/
def Val.ofBits (f : Fmt) (ftz : Bool) (code : Nat) : Val :=
  let fb := f.fb
  let neg := code / 2 ^ (f.width - 1) % 2 == 1
  let ex := code / 2 ^ fb % 2 ^ f.eb
  let fr := code % 2 ^ fb
  let top := 2 ^ f.eb - 1
  if f == .e4m3 then
    if ex == top && fr == 7 then .nan false
    else if ex == 0 then .fin neg fr (-9)
    else .fin neg (8 + fr) ((ex : Int) - 10)
  else if ex == top then
    if fr == 0 then .inf neg else .nan (f != .e5m2 && fr < 2 ^ (fb - 1))
  else if ex == 0 then
    .fin neg (if ftz && f.flushes then 0 else fr) (1 - (f.bias : Int) - (fb : Int))
  else .fin neg (2 ^ fb + fr) ((ex : Int) - (f.bias : Int) - (fb : Int))

/-- The exact result of an operation. `mag neg m e sticky`: the magnitude is m × 2^e when not `sticky`, and
lies strictly between m × 2^e and (m + 1) × 2^e when `sticky` (m then has enough bits for every rounding). -/
inductive Exact where
  | nan
  | inf (neg : Bool)
  | zero (neg : Bool)
  | mag (neg : Bool) (m : Nat) (e : Int) (sticky : Bool)
  deriving DecidableEq, Repr

/-- The number of bits of a number. -/
def bitLen (n : Nat) : Nat := if n == 0 then 0 else n.log2 + 1

/-- m × 2^e rounded to a multiple of 2^u: the multiple's quotient, and whether it equals the value. -/
def roundAt (mode : Mode) (neg : Bool) (m : Nat) (e : Int) (sticky : Bool) (u : Int) : Nat × Bool :=
  if u ≤ e then (m * 2 ^ (e - u).toNat, !sticky)
  else
    let sh := (u - e).toNat
    let q := m / 2 ^ sh
    let r := m % 2 ^ sh
    let half := 2 ^ (sh - 1)
    let exact := r == 0 && !sticky
    let up := match mode with
      | .rn => if r == half && !sticky then q % 2 == 1 else half ≤ r
      | .rz => false
      | .ru => !neg && !exact
      | .rd => neg && !exact
    (if up then q + 1 else q, exact)

/-- Whether a × 2^e is below b × 2^f. -/
def magLt (a : Nat) (e : Int) (b : Nat) (f : Int) : Bool :=
  let lo := if e ≤ f then e else f
  a * 2 ^ (e - lo).toNat < b * 2 ^ (f - lo).toNat

/-- The encoding of q × 2^u, a value of the format. -/
def encodeMag (f : Fmt) (neg : Bool) (q : Nat) (u : Int) : Nat :=
  let s := if neg then 2 ^ (f.width - 1) else 0
  let emin : Int := 1 - (f.bias : Int) - (f.fb : Int)
  if q == 0 then s
  else
    -- normalise to fb + 1 bits, or to the subnormal exponent
    let l := bitLen q
    let want : Int := (l : Int) + u - (f.fb : Int) - 1
    let e := if want < emin then emin else want
    let m := if e ≤ u then q * 2 ^ (u - e).toNat else q / 2 ^ (e - u).toNat
    if m < 2 ^ f.fb then s + m
    else s + (e - emin + 1).toNat * 2 ^ f.fb + (m - 2 ^ f.fb)

/-- The result of an overflow (04 Table 4-2). -/
def overflowCode (f : Fmt) (env : FpEnv) (neg : Bool) : Nat :=
  let s := if neg then 2 ^ (f.width - 1) else 0
  match f.infCode with
  | none => if env.e4sat then s + f.maxCode else f.nanCode
  | some inf =>
    match env.mode, neg with
    | .rn, _ => s + inf
    | .rz, _ => s + f.maxCode
    | .ru, false => inf
    | .ru, true => s + f.maxCode
    | .rd, false => f.maxCode
    | .rd, true => s + inf

/-- `RoundTo` (04 R63, R64): the encoding of an exact value and the flags raised. -/
def roundTo (f : Fmt) (env : FpEnv) (x : Exact) : Nat × FlagSet :=
  match x with
  | .nan => (f.nanCode, 0)
  | .zero neg => (if neg then 2 ^ (f.width - 1) else 0, 0)
  | .inf neg =>
    let s := if neg then 2 ^ (f.width - 1) else 0
    match f.infCode with
    | some i => (s + i, 0)
    | none => if env.e4sat then (s + f.maxCode, flOF ||| flIX) else (f.nanCode, flIV)
  | .mag neg m e sticky =>
    let u : Int := (bitLen m : Int) + e - (f.fb : Int) - 1
    let (q, exact) := roundAt env.mode neg m e sticky u
    let maxV := match Val.ofBits f false f.maxCode with
      | .fin _ mm me => (mm, me)
      | _ => (0, 0)
    let minE : Int := 1 - (f.bias : Int)
    let emin : Int := minE - (f.fb : Int)
    if magLt maxV.1 maxV.2 q u then (overflowCode f env neg, flOF ||| flIX)
    else if magLt q u 1 minE then
      if env.ftz && f.flushes then ((if neg then 2 ^ (f.width - 1) else 0), flUF ||| flIX)
      else
        let (z, zx) := roundAt env.mode neg m e sticky emin
        (encodeMag f neg z emin, flagIf (!zx) (flUF ||| flIX))
    else (encodeMag f neg q u, flagIf (!exact) flIX)

/-- An exact value from a sign and a dyadic magnitude; a zero magnitude is +0 or −0. -/
def Exact.dyadic (neg : Bool) (m : Nat) (e : Int) : Exact :=
  if m == 0 then .zero neg else .mag neg m e false

/-- An exact value from a signed dyadic number; an exact zero is +0, or −0 when rounding down
(IEEE 754-2019 clause 6.3, 04 R63). -/
def Exact.ofDy (mode : Mode) (m : Int) (e : Int) : Exact :=
  if m == 0 then .zero (mode == .rd) else .mag (m < 0) m.natAbs e false

/-- An exact value from a ratio num / den, den positive. -/
def Exact.ofRatio (neg : Bool) (num den : Nat) : Exact :=
  if num == 0 then .zero neg
  else
    let k := 80 + bitLen den
    let n := num * 2 ^ k
    .mag neg (n / den) (-(k : Int)) (n % den != 0)

/-- A value as an exact result. -/
def Val.exact : Val → Exact
  | .nan _ => .nan
  | .inf s => .inf s
  | .fin s m e => .dyadic s m e

/-- `IV` for a signalling operand (04 R61). -/
def Val.sig : Val → FlagSet
  | .nan true => flIV
  | _ => 0

/-- Whether a value is NaN. -/
def Val.isNan : Val → Bool
  | .nan _ => true
  | _ => false

/-- The value with its sign changed. -/
def Val.negate : Val → Val
  | .nan s => .nan s
  | .inf s => .inf !s
  | .fin s m e => .fin (!s) m e

/-- The signed integer of a finite value at an exponent not above its own. -/
def dyAt (s : Bool) (m : Nat) (e lo : Int) : Int :=
  let v : Int := (m * 2 ^ (e - lo).toNat : Nat)
  if s then -v else v

/-- The exact sum of two values (04 R63, Table 4-3). -/
def addVal (mode : Mode) (a b : Val) : Exact × FlagSet :=
  let sg := a.sig ||| b.sig
  match a, b with
  | .nan _, _ => (.nan, sg)
  | _, .nan _ => (.nan, sg)
  | .inf s, .inf t => if s == t then (.inf s, 0) else (.nan, flIV)
  | .inf s, _ => (.inf s, 0)
  | _, .inf t => (.inf t, 0)
  | .fin s m e, .fin t n f =>
    if m == 0 && n == 0 then (.zero (if s == t then s else mode == .rd), 0)
    else
      let lo := if e ≤ f then e else f
      (Exact.ofDy mode (dyAt s m e lo + dyAt t n f lo) lo, 0)

/-- The product of two values as a value (04 Table 4-3). -/
def mulVal (a b : Val) : Val × FlagSet :=
  let sg := a.sig ||| b.sig
  match a, b with
  | .nan _, _ => (.nan false, sg)
  | _, .nan _ => (.nan false, sg)
  | .inf s, .inf t => (.inf (s != t), 0)
  | .inf s, .fin t n _ => if n == 0 then (.nan false, flIV) else (.inf (s != t), 0)
  | .fin s m _, .inf t => if m == 0 then (.nan false, flIV) else (.inf (s != t), 0)
  | .fin s m e, .fin t n f => (.fin (s != t) (m * n) (e + f), 0)

/-- a × b + c exactly (04 R63, Table 4-3). -/
def fmaVal (mode : Mode) (a b c : Val) : Exact × FlagSet :=
  let (p, f1) := mulVal a b
  let (x, f2) := addVal mode p c
  (x, f1 ||| f2)

/-- An exact result rounded, with the flags of both. -/
def finish (f : Fmt) (env : FpEnv) (r : Exact × FlagSet) : Nat × FlagSet :=
  let (c, fl) := roundTo f env r.1
  (c, fl ||| r.2)

/-- Addition in a format. -/
def fpAdd (f : Fmt) (env : FpEnv) (a b : Nat) : Nat × FlagSet :=
  finish f env (addVal env.mode (Val.ofBits f env.ftz a) (Val.ofBits f env.ftz b))

/-- Subtraction in a format. -/
def fpSub (f : Fmt) (env : FpEnv) (a b : Nat) : Nat × FlagSet :=
  finish f env (addVal env.mode (Val.ofBits f env.ftz a) (Val.ofBits f env.ftz b).negate)

/-- Multiplication in a format. -/
def fpMul (f : Fmt) (env : FpEnv) (a b : Nat) : Nat × FlagSet :=
  let (v, fl) := mulVal (Val.ofBits f env.ftz a) (Val.ofBits f env.ftz b)
  finish f env (v.exact, fl)

/-- Fused multiply-add in a format. -/
def fpFma (f : Fmt) (env : FpEnv) (a b c : Nat) : Nat × FlagSet :=
  finish f env (fmaVal env.mode (Val.ofBits f env.ftz a) (Val.ofBits f env.ftz b) (Val.ofBits f env.ftz c))

/-- The comparison of two values that are not NaN: less, equal (−0 equals +0). -/
def cmpVal (a b : Val) : Bool × Bool :=
  match a, b with
  | .nan _, _ => (false, false)
  | _, .nan _ => (false, false)
  | .inf s, .inf t => (s && !t, s == t)
  | .inf s, _ => (s, false)
  | _, .inf t => (!t, false)
  | .fin s m e, .fin t n f =>
    let lo := if e ≤ f then e else f
    let x := dyAt s m e lo
    let y := dyAt t n f lo
    (x < y, x == y)

/-- A finite value rounded to an integer: the integer and whether it equals the value. -/
def roundInt (mode : Mode) (s : Bool) (m : Nat) (e : Int) : Int × Bool :=
  let (q, exact) := roundAt mode s m e false 0
  (if s then -(q : Int) else (q : Int), exact)

/-- A conversion to an integer in the range lo to hi (04 R69). -/
def floatToInt (mode : Mode) (v : Val) (lo hi : Int) : Int × FlagSet :=
  match v with
  | .nan _ => (0, flIV)
  | .inf s => (if s then lo else hi, flIV)
  | .fin s m e =>
    let (i, exact) := roundInt mode s m e
    if i < lo then (lo, flIV) else if hi < i then (hi, flIV) else (i, flagIf (!exact) flIX)

/-- An integer as an exact value. -/
def Exact.ofInt (v : Int) : Exact := if v == 0 then .zero false else .mag (v < 0) v.natAbs 0 false

/-- A sum of finite values given as signed dyadics: the sum at the least exponent. -/
def sumDy (l : List (Int × Int)) : Int × Int :=
  let lo := l.foldl (fun a x => if x.2 < a then x.2 else a) 0
  (l.foldl (fun a x => a + x.1 * (2 ^ (x.2 - lo).toNat : Nat)) 0, lo)

/-- A finite value as a signed dyadic. -/
def Val.dy : Val → Int × Int
  | .fin s m e => (if s then -(m : Int) else (m : Int), e)
  | _ => (0, 0)

/-! ### L6 (04 R67, R68) -/

/-- Decoded L6 codes (04 Table 4-4). -/
inductive L6 where
  | zero | reserved
  | log (neg : Bool) (n : Int)
  deriving DecidableEq, Repr

/-- Reads an L6 code (04 Table 4-4). -/
def L6.ofCode (c : Nat) : L6 :=
  let n := signed 5 (c % 32)
  let s := c / 32 % 2 == 1
  if n == -16 then (if s then .reserved else .zero) else .log s n

/-- `L6Term` of a product (04 R68), in units of 2^-23; none for a reserved operand, beside a zero
too (assumption log 86). -/
def l6Term (a b : L6) : Option Int :=
  match a, b with
  | .reserved, _ => none
  | _, .reserved => none
  | .zero, _ => some 0
  | _, .zero => some 0
  | .log s n, .log t m =>
    let p := n + m
    let i := p / 4
    let fr := (p % 4).toNat
    let c : Int := match fr with
      | 0 => 32768
      | 1 => 38968
      | 2 => 46341
      | _ => 55109
    let v := c * (2 ^ (i + 8).toNat : Nat)
    some (if s != t then -v else v)

end Sys2Proof.Machine
end

