-- ==== Sys2Proof/Machine/Ops.lean ====
section
/-! DEFINITION. The named operations on groups and lanes: the
lookahead windows (02 R35), ending lanes (01 R26, 09 R173), taking a trap (01 R23) and going on after one. -/

namespace Sys2Proof.Machine

open Sys2Proof

/-! ### Finding and replacing the objects of the state -/

/-- A resident group by its number. -/
def State.group? (s : State) (id : Nat) : Option Group := s.groups.find? (fun g => g.id == id)

/-- A resident group by its number; an empty one where there is none. -/
def State.group (s : State) (id : Nat) : Group := (s.group? id).getD { id := id }

/-- Changes the group of a number. -/
def State.modGroup (s : State) (id : Nat) (f : Group → Group) : State :=
  { s with groups := updWhere (fun g => g.id == id) f s.groups }

/-- A placed team by its number. -/
def State.team? (s : State) (id : Nat) : Option Team := s.teams.find? (fun t => t.id == id)

/-- A placed team by its number; an empty one where there is none. -/
def State.team (s : State) (id : Nat) : Team := (s.team? id).getD { id := id }

/-- Changes the team of a number. -/
def State.modTeam (s : State) (id : Nat) (f : Team → Team) : State :=
  { s with teams := updWhere (fun t => t.id == id) f s.teams }

/-- Changes the launch of a number on a die. -/
def State.modLaunch (s : State) (die num : Nat) (f : Launch → Launch) : State :=
  { s with launches := updWhere (fun l => l.die == die && l.num == num) f s.launches }

/-- The launch of a number on a die. -/
def State.launch? (s : State) (die num : Nat) : Option Launch :=
  s.launches.find? (fun l => l.die == die && l.num == num)

/-- The die of a core number of the module. -/
def dieOfCore (c : Nat) : Nat := c / 96

/-- The hardware cluster of a core on its die (13 R243). -/
def clusterOfCore (c : Nat) : Nat := c % 96 / 12

/-- A fresh serial number. -/
def State.fresh (s : State) : Nat × State := (s.serial, { s with serial := s.serial + 1 })

/-- Puts work at the end of the agenda. -/
def State.push (s : State) (w : List Work) : State := { s with agenda := s.agenda ++ w }

/-- An event of the module as work. -/
def evWork (i : Instr) (obj : Nat) (sub : Nat := 0) (aux : Nat := 0) : Work :=
  .event i { obj := obj, sub := sub, aux := aux }

/-- Changes a lane of a group of the state. -/
def State.modLane (s : State) (gid i : Nat) (f : Lane → Lane) : State := s.modGroup gid (fun g => g.modLane i f)

/-- The lanes of a group that have not ended (01 R26). -/
def Group.live (g : Group) : List Nat := laneIds.filter (fun i => !(g.lane i).ended)

/-! ### Lookahead windows (02 R35) -/

/-- Whether a cell is a queue, to which a result is pushed. -/
def RCell.isQueue : RCell → Bool
  | .q _ => true
  | _ => false

/-- Drops pending results for cells that a later instruction writes (02 R35 rule 2). -/
def Lane.dropCells (l : Lane) (cs : List RCell) : Lane :=
  let ps := l.pend.map (fun p => { p with cells := p.cells.filter (fun c => c.1.isQueue || !cs.contains c.1) })
  { l with pend := ps.filter (fun p => !p.cells.isEmpty) }

/-- Retires the pending results of a lane whose windows are over, or all of them: those whose values are
known are written in program order; the others stay and keep their readers waiting (02 R35 rule 3). A known
result for a queue stays until it is pushed. -/
def Group.retire (g : Group) (i : Nat) (all : Bool) : Group :=
  let ps := (g.lane i).pend
  let due := ps.filter (fun p => all || p.window == 0)
  let g1 := due.foldl (fun g p => p.cells.foldl (fun g c =>
    match c.2 with
    | some v => g.writeOrdered i c.1 v p.serial
    | none => g) g) g
  let left := ps.map (fun p =>
    if all || p.window == 0 then { p with window := 0, cells := p.cells.filter (fun c => c.2.isNone || c.1.isQueue) } else p)
  g1.modLane i (fun l => { l with pend := left.filter (fun p => !p.cells.isEmpty) })

/-- A lane has executed one instruction: the windows before it shrink by one, and those that end retire. -/
def Group.tickWindows (g : Group) (i : Nat) : Group :=
  if (g.lane i).pend.isEmpty then g
  else (g.modLane i (fun l => { l with pend := l.pend.map (fun p => { p with window := p.window - 1 }) })).retire i false

/-- Whether a lane must wait for a pending result before it reads `rs`, or before an instruction that ends
every window (02 R35 rules 3 and 4). -/
def Lane.owedFor (l : Lane) (rs : List Reg) (endsWindow : Bool) : Bool :=
  l.pend.any (fun p => (endsWindow && p.cells.any (fun c => c.2.isNone || c.1.isQueue)) ||
    (p.window == 0 && p.cells.any (fun c => c.2.isNone && rs.contains c.1.reg)))

/-- Whether a lane must wait for another lane's pending result for a `k` register among `rs` (02 R32, R35 rule 3). -/
def Group.scalarOwed (g : Group) (rs : List Reg) : Bool :=
  let ks := rs.filter (fun r => match r with
    | .k _ => true
    | _ => false)
  !ks.isEmpty && g.lanes.any (fun l => l.pend.any (fun p => p.window == 0 && p.cells.any (fun c => c.2.isNone && ks.contains c.1.reg)))

/-- The value that a cell of a pending result takes, the `n`th of those that are left: of a 64-bit value for a pair of
general registers its own half (00 R7), also where a later instruction has written the other register (02 R35 rule 2). -/
def Pend.valueOf (p : Pend) (vals : List W64) (c : RCell) (n : Nat) : W64 :=
  match p.high, vals, c with
  | some h, [v], .g r => if r == h then v >>> 32 else v.setWidth 32 |>.setWidth 64
  | _, _, _ => vals.getD n 0

/-- Delivers the value of a pending result that an engine or a home owed. -/
def Group.deliver (g : Group) (i serial : Nat) (vals : List W64) : Group :=
  (g.modLane i (fun l => { l with pend := l.pend.map (fun p =>
    if p.serial == serial then
      { p with cells := (p.cells.zip (List.range p.cells.length)).map (fun x =>
          (x.1.1, some (p.valueOf vals x.1.1 x.2))) }
    else p) })).retire i false

/-! ### Traps (01 R23) -/

/-- Why a lane traps: `CAUSE`, `DETAIL`, and the faulting address of a memory cause. -/
structure Trap where
  cause  : Nat
  detail : Nat := 0
  addr   : Nat := 0
  deriving DecidableEq, Repr

/-- `ILLEGAL`. -/
def Trap.illegal (d : Nat) : Trap := { cause := 0x01, detail := d }
/-- `MISALIGNED`. -/
def Trap.misaligned (a : Nat) : Trap := { cause := 0x05, addr := a }
/-- `PAGE_FAULT`. -/
def Trap.pageFault (a : Nat) : Trap := { cause := 0x06, addr := a }
/-- `PROTECTION`. -/
def Trap.protection (a : Nat) (d : Nat := 0) : Trap := { cause := 0x07, detail := d, addr := a }
/-- `UNSUPPORTED`. -/
def Trap.unsupported (a : Nat) : Trap := { cause := 0x08, addr := a }
/-- `QUEUE_UNBOUND`, with the queue number (09 R192). -/
def Trap.unbound (q : Nat) : Trap := { cause := 0x09, detail := q }

/-- Whether a cause is a memory cause (01 Table 1-6). -/
def Trap.isMem (t : Trap) : Bool := 0x05 ≤ t.cause && t.cause ≤ 0x08

/-- The order in which the causes of several lanes are reported (07 R136, 20 R358). -/
def Trap.rank (t : Trap) : Nat :=
  match t.cause with
  | 0x05 => 1
  | 0x07 => 2
  | 0x06 => 3
  | 0x08 => 4
  | _ => 0

/-- The trap that the group reports for its trapping lanes (07 R136): the cause of highest order, and the
lowest faulting address among the lanes with that cause. -/
def reportTrap : List (Nat × Trap) → Option Trap
  | [] => none
  | x :: r =>
    let best := r.foldl (fun b y => if y.2.rank < b.rank then y.2 else b) x.2
    let same := (x :: r).filter (fun y => y.2.cause == best.cause)
    let low := same.foldl (fun a y => min a y.2.addr) (2 ^ 64)
    some { best with addr := if best.isMem then low else 0 }

/-- The group of a fault queue's entry. -/
def FaultEntry.gid? (e : FaultEntry) : Option Nat :=
  match e with
  | .group gid => some gid
  | _ => none

/-- Whether a group's trap of this cycle enters after that of another group's: by core, then by partition (15 R288). -/
def State.entersAfter (s : State) (e f : FaultEntry) : Bool :=
  match e.gid?.bind s.group?, f.gid?.bind s.group? with
  | some a, some b => a.trapAt == s.ticks && b.core * 4 + b.part < a.core * 4 + a.part
  | _, _ => false

/-- The fault queues of the dies hold 1,024 entries each; what finds one full waits outside, in order (15 R288). -/
def State.setFaults (s : State) (die : Nat) (all : List FaultEntry) : State :=
  { s with faultq := setAt s.faultq die (all.take 1024), faultWait := setAt s.faultWait die (all.drop 1024) }

/-- All entries of a die's faults, those in its queue first. -/
def State.faults (s : State) (die : Nat) : List FaultEntry := s.faultq.getD die [] ++ s.faultWait.getD die []

/-- Puts an entry into a die's fault queue (15 R288), a group's before the first entry of this cycle that comes after it. -/
def State.enqueueFault (s : State) (die : Nat) (e : FaultEntry) : State :=
  let all := s.faults die
  let n := (all.takeWhile (fun x => !s.entersAfter x e)).length
  s.setFaults die (all.take n ++ [e] ++ all.drop n)

/-- Entries leave the faults of both dies. -/
def State.dropFaults (s : State) (p : FaultEntry → Bool) : State :=
  [0, 1].foldl (fun s die => s.setFaults die ((s.faults die).filter (fun e => !p e))) s

/-- The member of a spliced pair that an address of the spliced text belongs to (16 R302): 0 not spliced
or outside its text, 1 producer, 2 consumer, 3 closing check, with the original address. -/
def Launch.origin (l : Launch) (pc : Nat) : Nat × Nat :=
  match l.splice with
  | none => (0, pc)
  | some sp =>
    match sp.map.find? (fun e => e.addr == pc) with
    | some e => (e.origin, e.orig)
    | none => (0, pc)

/-- Counts a fault of a launch (15 Table 15-4, 16 R303); the count saturates. -/
def Launch.countFault (l : Launch) (origin : Nat) : Launch :=
  let sat := fun n => min (n + 1) (2 ^ 32 - 1)
  match l.splice with
  | some sp =>
    if 2 ≤ origin then { l with splice := some { sp with cfaults := sat sp.cfaults } }
    else { l with faults := sat l.faults }
  | none => { l with faults := sat l.faults }

/-- The word pair and third word that the trap registers hold (01 Table 1-5); words that were not fetched
read as zero (02 R28). -/
def trapWords (ws : List W32) : W64 × W32 := (ws.getD 1 0 ++ ws.getD 0 0, ws.getD 2 0)

/-- Taking a trap (01 R23): the group's trap registers are loaded, the trapped lanes keep their program
counters and state (with `PARK` 5 for a memory cause, 07 R136), the group stops, and the trap enters the
die's fault queue (15 R288). -/
def State.takeTrap (s : State) (gid : Nat) (pc : W64) (ws : List W32) (traps : List (Nat × Trap)) : State :=
  match reportTrap traps with
  | none => s
  | some t =>
    let g := s.group gid
    let mask := maskOf (fun i => traps.any (fun x => x.1 == i))
    let (w0, w1) := trapWords ws
    let s1 := s.modGroup gid (fun g =>
      let g := g.modLanes (traps.map (·.1)) (fun l => { l with replay := true, park := if t.isMem then 5 else l.park })
      { g with
        trapCause := BitVec.ofNat 16 (t.cause + 256 * t.detail), trapPc := pc, trapMask := mask,
        trapAddr := w64 t.addr, trapW0 := w0, trapW1 := w1, stopped := true, trapAt := s.ticks })
    let team := s.team g.team
    let s2 := s1.modLaunch team.die team.launch (fun l => l.countFault (l.origin pc.toNat).1)
    s2.enqueueFault (dieOfCore g.core) (.group gid)

/-- Going on after a trap (07 R137, 21 R377): the trapped lanes replay their instruction, or continue at
program counters that a debug session sets, where they replay nothing. -/
def Group.resume (g : Group) (pcs : List (Option W64)) : Group :=
  let back := fun (g : Group) (i : Nat) =>
    if inMask g.trapMask i then
      g.modLane i (fun l =>
        { l with
          park := if l.park == 5 then 0 else l.park
          pc := (pcs.getD i none).getD l.pc
          replay := l.replay && (pcs.getD i none).isNone })
    else g
  { laneIds.foldl back g with stopped := false }

/-- A group, resident or saved. -/
def State.anyGroup? (s : State) (id : Nat) : Option Group :=
  match s.group? id with
  | some g => some g
  | none => s.saved.findSome? (fun v => (v.groups.find? (fun (x : SavedGroup) => x.rest.id == id)).map (·.group))

/-- Changes a group, resident or saved. -/
def State.modAnyGroup (s : State) (gid : Nat) (f : Group → Group) : State :=
  { s.modGroup gid f with
    saved := s.saved.map (fun (v : Saved) =>
      { v with groups := updWhere (fun (x : SavedGroup) => x.rest.id == gid) (fun x => x.modify f) v.groups }) }

/-- Going on after a trap of a group, resident or saved. -/
def State.resumeTrap (s : State) (gid : Nat) (pcs : List (Option W64)) : State := s.modAnyGroup gid (fun g => g.resume pcs)

/-! ### Rejoin masks and the end of lanes (09 R170 to R173, 01 R26) -/

/-- `Release(j)` (09 R170): the lanes parked at a `JARR` of a mask go on past it. `size` is the length of
that `JARR`. -/
def Group.release (g : Group) (j : Nat) : Group :=
  laneIds.foldl (fun g i =>
    let l := g.lane i
    if l.park == 1 && l.aux == j && !l.ended then g.modLane i (fun l => { l with park := 0, pc := l.pc + 8 }) else g) g

/-- Strikes lanes from every mask, and releases every mask that becomes zero (09 R173). -/
def Group.strike (g : Group) (m : W32) : Group :=
  (List.range 16).foldl (fun g j =>
    let v := g.readJ j
    if v &&& m == 0 then g
    else
      let v' := v &&& ~~~m
      let g' := g.writeJ j v'
      if v' == 0 then g'.release j else g') g

/-- Ends lanes (01 R26): they are inactive for good, and they leave every mask (09 R173). -/
def Group.endLanes (g : Group) (ls : List Nat) : Group :=
  (g.modLanes ls (fun l => { l with ended := true, park := 0, wait := .none, pend := [] })).strike
    (maskOf (fun i => ls.contains i))

/-- Whether every lane of the group has ended (01 R26). -/
def Group.over (g : Group) : Bool := g.live.isEmpty

/-! ### Advancing lanes -/

/-- A lane has completed an instruction of `size` bytes: its windows shrink and its program counter moves. -/
def Group.advance (g : Group) (i size : Nat) : Group :=
  (g.tickWindows i).modLane i (fun l => { l with pc := l.pc + w64 size, replay := false })

/-- Several lanes complete an instruction. -/
def Group.advanceAll (g : Group) (ls : List Nat) (size : Nat) : Group :=
  ls.foldl (fun g i => g.advance i size) g

/-- A lane has transferred control: its windows are over and its program counter is the target. -/
def Group.jump (g : Group) (i : Nat) (pc : W64) : Group :=
  (g.tickWindows i).modLane i (fun l => { l with pc := pc, replay := false })

/-- The lanes of the current issue on which a guard is true (02 R34). -/
def Group.enabled (g : Group) (lanes : W32) (gp : Nat) (gn : Bool) : List Nat :=
  (lanesOf lanes).filter (fun i => g.readP i gp != gn)

/-- Sets sticky flags of a lane (01 R22). -/
def Lane.raise (l : Lane) (f : FlagSet) : Lane := { l with fflags := l.fflags ||| f }

/-- The floating-point environment of a team (01 R21). -/
def State.fpEnv (s : State) (g : Group) : FpEnv := FpEnv.ofFmode (s.team g.team).fmode

/-- The packet width of a group (01 R16). -/
def Group.width (g : Group) : Nat := if g.pkt8 then 8 else 4

end Sys2Proof.Machine
end

