-- ==== Sys2Proof/Machine/Waiting.lean ====
section
/-! DEFINITION. The waiting orders of a team's queues (09 R190 to R192): the depth of each port, the lanes that wait, and
how they are woken or leave. -/

namespace Sys2Proof.Machine

open Sys2Proof

/-- The depth of a port (09 Table 9-2). -/
def portDepth (port : Nat) : Nat :=
  match port with
  | 1 => 16
  | 2 => 8
  | 3 => 64
  | 4 => 64
  | 5 => 32
  | 6 => 32
  | 7 => 16
  | 8 => 32
  | 9 => 64
  | _ => 0

/-- Whether a port is one of the two stream ports (08 R160). -/
def isStream (port : Nat) : Bool := port == 1 || port == 2

/-- A queue of a team. -/
def Team.queue (t : Team) (q : Nat) : TeamQueue := t.queues.getD q {}

/-- Changes a queue of a team. -/
def Team.modQueue (t : Team) (q : Nat) (f : TeamQueue → TeamQueue) : Team := { t with queues := modAt f t.queues q }

/-- How many entries can be popped, or pushed, at once. -/
def TeamQueue.room (q : TeamQueue) (push : Bool) : Nat :=
  if push then portDepth q.port - q.entries.length else q.entries.length

/-- Wakes the lanes at the head of a queue's waiting order that it can now serve (09 R192). -/
def State.wakeQueue (s : State) (team q : Nat) (push : Bool) : State :=
  let tq := (s.team team).queue q
  (tq.waiters.take (tq.room push)).foldl (fun s x =>
    s.modLane x.1 x.2 (fun l => if l.park == 3 && l.aux == q then { l with park := 0 } else l)) s

/-- Lanes of a group leave every waiting order of their team's queues, and the lanes behind them are served (07 R143). -/
def State.leaveQueues (s : State) (team gid : Nat) (lanes : List Nat) : State :=
  let out := fun (w : Nat × Nat) => w.1 == gid && lanes.contains w.2
  let qs := (List.range 16).filter (fun q => ((s.team team).queue q).waiters.any out)
  let s := s.modTeam team (fun t => { t with queues := t.queues.map (fun x => { x with waiters := x.waiters.filter (fun w => !out w) }) })
  qs.foldl (fun s q => (s.wakeQueue team q false).wakeQueue team q true) s

/-! ### Pops (02 R32, 09 R192) -/

/-- Parks a lane on a queue, at the end of its waiting order unless it stands in it (09 R192). On a stream queue, which is
its own, it waits behind nobody. -/
def State.parkOnQueue (s : State) (team q gid lane : Nat) : State :=
  let s := s.modTeam team (fun t => t.modQueue q (fun x =>
    if isStream x.port || x.waiters.contains (gid, lane) then x else { x with waiters := x.waiters ++ [(gid, lane)] }))
  s.modLane gid lane (fun l => { l with park := 3, aux := q })

/-- Whether a lane may use a queue now: nobody waits before it, and there is room (09 R192). -/
def TeamQueue.turn (q : TeamQueue) (gid lane : Nat) (push : Bool) : Bool :=
  (match q.waiters with
    | [] => true
    | w :: _ => w == (gid, lane)) && 0 < q.room push

/-- The entries of a stream queue that hold an error, by their places, after a good one was popped at the head, or put back
there. -/
def popBad (l : List Nat) : List Nat := l.map (fun n => n - 1)
def unpopBad (l : List Nat) : List Nat := l.map (fun n => n + 1)

/-- A pop by a lane (02 R32): the entry, or none where the lane blocks. -/
def State.popQueue (s : State) (team q gid lane : Nat) : Option W64 × State :=
  let tq := (s.team team).queue q
  match tq.port with
  | 1 =>
    match ((s.group gid).lane lane).fwd with
    | v :: r => (some v, s.modLane gid lane (fun l => { l with fwd := r, fwdBad := popBad l.fwdBad }))
    | [] => (none, s.modLane gid lane (fun l => { l with park := 3, aux := q }))
  | 2 =>
    match ((s.group gid).lane lane).ret with
    | v :: r => (some v, s.modLane gid lane (fun l => { l with ret := r, retBad := popBad l.retBad }))
    | [] => (none, s.modLane gid lane (fun l => { l with park := 3, aux := q }))
  | _ =>
    match tq.turn gid lane false, tq.entries with
    | true, e :: r =>
      let s := s.modTeam team (fun t => t.modQueue q (fun x =>
        { x with entries := r, waiters := x.waiters.filter (fun w => w != (gid, lane)) }))
      (some e.val, s.wakeQueue team q false)
    | _, _ => (none, s.parkOnQueue team q gid lane)

/-- Every pop of an issue in ascending lane order (02 R54): the lanes that popped with their entries; a lane
that finds no entry parks. -/
def State.popAll (s : State) (team q gid : Nat) (en : List Nat) : List (Nat × W64) × State :=
  en.foldl (fun (a : List (Nat × W64) × State) i =>
    match a.2.popQueue team q gid i with
    | (some v, s) => (a.1 ++ [(i, v)], s)
    | (none, s) => (a.1, s)) ([], s)

/-- The lanes of a mask pop the queue that their waiting instruction names, as it completes (13 R252, R254). -/
def State.popWaited (s : State) (gid : Nat) (pops : Option (Nat × W32)) : State :=
  match pops with
  | none => s
  | some (q, ls) => (s.popAll (s.group gid).team q gid (lanesOf ls)).2

end Sys2Proof.Machine
end

