-- ==== Sys2Proof/Machine/MemOps.lean ====
section
/-! DEFINITION. The operations on memory: translation (15 R287), homes and leases (17 R308 to R312), the L1
(11 R223 to R226), transactions (07 R141 to R144, 17 R319), vaults (13 R245 to R249, 10 R205) and local
stores (11 R219 to R221). -/

namespace Sys2Proof.Machine

open Sys2Proof

/-! ### Errors and hints that other operations raise -/

/-- Whether a capability is valid for what it points to: it is tagged and has that `OTYPE` (21 Table 21-1). -/
def capIs (c : Capability) (otype : Nat) : Bool := c.tag && c.otype.toNat == otype

/-- The address of a queue's ring. -/
def HostQueue.ring (q : HostQueue) : Nat := q.ringCap.base

/-- The 64 bytes of an error record (21 Table 21-7). -/
def ErrorRec.bytes (e : ErrorRec) : List Byte :=
  leOf 2 0x4552 ++ leOf 1 e.sev ++ leOf 1 e.src ++ leOf 4 e.code ++ leOf 8 e.time ++ leOf 16 e.loc ++ leOf 2 e.tenant ++
    leOf 1 e.result ++ leOf 1 e.action ++ leOf 4 e.queue ++ leOf 8 e.launch ++ leOf 4 e.count ++ leOf 12 0

/-- Sends an `EVENT` on a session with that session's next number (21 R380, R381). -/
def State.sendEvent (s : State) (session : Nat) (body : List Byte) : State :=
  match s.ehp.find? (fun (x : Ehps) => x.num == session) with
  | none => s
  | some x =>
    { s with
      events := s.events ++ [{ session := session, seq := x.nextSeq, body := body, last := s.ticks }]
      outbox := s.outbox ++ [.event session x.nextSeq body]
      ehp := updWhere (fun (y : Ehps) => y.num == session) (fun y => { y with nextSeq := y.nextSeq + 1 }) s.ehp }

/-- The operator's sessions (21 R380). -/
def State.operatorSessions (s : State) : List Nat :=
  (s.ehp.filter (fun (x : Ehps) => x.keyed && x.role == .operator)).map (·.num)

/-- The sessions of a tenant (21 R380). -/
def State.tenantSessions (s : State) (tenant : Nat) : List Nat :=
  (s.ehp.filter (fun (x : Ehps) => x.keyed && x.role == .tenant tenant)).map (·.num)

/-- An error report (21 R387): a record is written to the log of 4,096 records, through the capability that firmware holds to
it (R367), and sent to the operator and to the affected tenant. -/
def State.report (s : State) (e : ErrorRec) : State :=
  let e := { e with time := s.time }
  let s := if capIs s.errCap 4 then { s with errors := (s.errors ++ [e]).drop ((s.errors.length + 1) - 4096) } else s
  (s.operatorSessions ++ s.tenantSessions e.tenant).foldl (fun s x => s.sendEvent x e.bytes) s

/-- The `SRC` of 21 Table 21-7 of a structure of Table 21-8. -/
def testSource (kind : Nat) : Nat :=
  match kind with
  | 1 | 2 | 3 | 4 => kind
  | 5 => 6
  | 6 => 7
  | _ => 5

/-- The groups on a partition, by core × 4 + partition. -/
def State.partGroups (s : State) (loc : Nat) : List Group :=
  s.groups.filter (fun (g : Group) => g.core == loc / 4 && g.part == loc % 4)

/-- An error of a structure of 21 Table 21-8, which its targeted test follows (21 R387, R388): a repeat while
the test is pending only adds to the record's count. `kind` is the table's row (1 partition, 2 local-store
line, 3 L1 line, 4 vault line, 5 DRAM row, 6 sequencer, 7 memory-side cache line) and `loc` its place. The groups of a
partition are pre-empted before its test. -/
def State.raiseError (s : State) (e : ErrorRec) (kind loc : Nat) : State :=
  if s.tests.any (fun (t : PendingTest) => t.kind == kind && t.loc == loc) then
    let same := fun (x : ErrorRec) => x.src == e.src && x.loc == loc && x.result == 0
    { s with errors := updWhere same (fun x => { x with count := x.count + 1 }) s.errors }
  else
    let n := maxOf (s.tests.map (fun (t : PendingTest) => t.num)) + 1
    let t : PendingTest := { num := n, kind := kind, loc := loc, since := s.ticks }
    let s := { s.report { e with loc := loc, result := 0 } with tests := s.tests ++ [t] }
    if kind == 1 then s.push ((s.partGroups loc).map (fun (g : Group) => evWork .groupPreempt g.id)) else s

/-- Whether the targeted test of a structure runs: accesses that meet it wait (21 R388). It does so once the error's own rule
has taken its effect, from the next cycle on. -/
def State.underTest (s : State) (kind loc : Nat) : Bool :=
  s.tests.any (fun (t : PendingTest) => t.kind == kind && t.loc == loc && t.since < s.ticks)

/-- Draws a free number (assumption log 3). -/
def State.drawNat (s : State) : Nat × State := (Config.freeNat s.free, { s with free := s.free + 1 })
/-- Draws a free word (assumption log 3). -/
def State.drawWord (s : State) : W64 × State := (Config.freeWord s.free, { s with free := s.free + 1 })
/-- Draws free bytes (assumption log 3): exactly `n` of them. -/
def State.drawBytes (s : State) (n : Nat) : List Byte × State :=
  ((List.range n).map (fun i => (Config.freeBytes s.free).getD i 0), { s with free := s.free + 1 })
/-- Draws a free truth value (assumption log 3). -/
def State.drawBool (s : State) : Bool × State := (Config.freeBool s.free, { s with free := s.free + 1 })

/-! ### Translation (07 R123, 15 R287) -/

/-- What an access does with a page. -/
inductive Access where
  | read | write | exec
  deriving DecidableEq, Repr

/-- A canonical 57-bit address: bits [63:56] all equal (07 R123). -/
def canonical (a : Nat) : Bool := a / 2 ^ 56 % 256 == 0 || a / 2 ^ 56 % 256 == 255

/-- The bytes of a page (00 R1). -/
def Page.size (p : Page) : Nat :=
  match p.kind with
  | .kib16 => 2 ^ 14
  | .mib2 => 2 ^ 21
  | .gib1 => 2 ^ 30

/-- The page of a tenant that holds an address. -/
def State.page? (s : State) (tenant a : Nat) : Option Page :=
  s.pages.find? (fun p => p.tenant == tenant && p.va ≤ a && a < p.va + p.size)

/-- The permission of a page for an access. -/
def Page.allows (p : Page) : Access → Bool
  | .read => p.r
  | .write => p.w
  | .exec => p.x

/-- Translates an address (07 R123): the domain physical address, or the trap. -/
def State.translate (s : State) (tenant a : Nat) (k : Access) : Except Trap Nat :=
  if !canonical a then .error (.protection a)
  else match s.page? tenant a with
    | none => .error (.pageFault a)
    | some p => if p.allows k then .ok (p.pa + (a - p.va)) else .error (.protection a)

/-- An entry enters a TLB of a core, whose `n` entries lose their oldest for it. -/
def tlbEnter (l : List (Nat × Page)) (n core : Nat) (p : Page) : List (Nat × Page) :=
  let mine := l.filter (fun x => x.1 == core)
  if l.contains (core, p) then l
  else (if mine.length < n then l else l.filter (fun x => !((mine.take 1).contains x))) ++ [(core, p)]

/-- A core translates an address (15 R287): its L1 TLB of 64 entries takes the page from its L2 TLB of 2,048, and a page that
neither holds is walked, once for all that miss it (assumption log 83). -/
def State.useTlb (s : State) (core tenant a : Nat) : State :=
  match s.page? tenant a with
  | none => s
  | some p =>
    let walk : Work := .event .pageWalk { obj := core, sub := tenant, val := w64 p.va }
    if s.tlb1.contains (core, p) then s
    else if s.tlb.contains (core, p) then { s with tlb1 := tlbEnter s.tlb1 64 core p }
    else if s.agenda.contains walk then s
    else s.push [walk]

/-- A core translates several addresses of a tenant. -/
def State.useTlbs (s : State) (core tenant : Nat) (l : List Nat) : State := l.foldl (fun s a => s.useTlb core tenant a) s

/-- The module number of a domain physical address (22 R390). -/
def moduleOf (pa : Nat) : Nat := pa / 2 ^ 51 % 512

/-- Whether a frame lies on another module. -/
def State.isRemote (s : State) (pa : Nat) : Bool := moduleOf pa != s.module

/-- Whether the module's time base is synchronised (00 R11). -/
def State.synced (s : State) : Bool := s.tstat == .locked || s.tstat == .holdover

/-! ### Routes to other modules (22 R391, R394, R395) -/

/-- Whether a scale-up port is up. -/
def State.portUp (s : State) (n : Nat) : Bool := s.ports.any (fun (p : Port) => p.num == n && p.up)

/-- Whether a scale-up port has been down for 1 ms. -/
def State.portLost (s : State) (n : Nat) : Bool := !s.ports.any (fun (p : Port) => p.num == n && (p.up || s.ticks < p.downAt + 8000000))

/-- Whether a module is of this module's pod (22 R390). -/
def State.samePod (s : State) (m : Nat) : Bool := m / 16 == s.module / 16

/-- The first of the two ports wired to another module of the pod (22 Table 22-1). -/
def State.podPort (s : State) (m : Nat) : Nat := 2 * (if m % 16 < s.module % 16 then m % 16 else m % 16 - 1)

/-- Whether a direct link to a module of the pod is up. -/
def State.directUp (s : State) (m : Nat) : Bool := s.samePod m && (s.portUp (s.podPort m) || s.portUp (s.podPort m + 1))

/-- The other modules of the pod, in ascending order, but one. -/
def State.relays (s : State) (m : Nat) : List Nat :=
  ((List.range 16).map (fun k => s.module / 16 * 16 + k)).filter (fun r => r != s.module && r != m)

/-- The module that relays to one whose two direct ports are down (22 R395): the lowest whose four links are up. Those of
its own to the target are a free value (assumption log 6). -/
def State.relayTo (s : State) (m : Nat) : Option Nat :=
  (s.relays m).find? (fun r => s.portUp (s.podPort r) && s.portUp (s.podPort r + 1) && Config.relayUp r m s.ticks)

/-- Whether there is a route to a module now. -/
def State.routed (s : State) (m : Nat) : Bool :=
  if s.samePod m then s.directUp m || (s.relayTo m).isSome else (List.range 18).any (fun k => s.portUp (30 + k))

/-- Whether there has been no route to a module for 1 ms (22 Table 22-4). -/
def State.unrouted (s : State) (m : Nat) : Bool :=
  if s.samePod m then s.portLost (s.podPort m) && s.portLost (s.podPort m + 1) && (s.relays m).all (fun r =>
    s.portLost (s.podPort r) || s.portLost (s.podPort r + 1) || !Config.relayUp r m s.ticks)
  else (List.range 18).all (fun k => s.portLost (30 + k))

/-- Whether an access to another module waits for a route: there is none, and not for 1 ms yet (22 Table 22-4). -/
def State.routeHeld (s : State) (pa : Nat) : Bool :=
  s.isRemote pa && moduleOf pa < 320 && !s.routed (moduleOf pa) && !s.unrouted (moduleOf pa)

/-- Why a request to another module is refused at issue (22 Table 22-4, R398): an absent module or no route for 1 ms,
or a module that is not synchronised. -/
def State.remoteRefusal (s : State) (pa va : Nat) : Option Trap :=
  if !s.isRemote pa then none
  else
    let m := moduleOf pa
    let pr := Sparse.get 0 s.peers m
    if 320 ≤ m then some (.protection va 0x01)
    else if s.unrouted m then some (.protection va 0x01)
    else if !s.synced || pr == 1 || pr == 4 then some (.protection va 0x03)
    else none

/-- The module at the far end of a scale-up port as it is wired, 0x1FF for a switch plane (22 Table 22-1, Table 22-2). -/
def State.wiredPeer (s : State) (n : Nat) : Nat :=
  if n < 30 then s.module / 16 * 16 + (if n / 2 < s.module % 16 then n / 2 else n / 2 + 1) else 0x1FF

/-- The port of a new request to an address of another module (22 R394): bit 7 selects between two direct ports that are up,
and bits [15:7] among the planes that are; with both direct ports down the request goes to the relay. -/
def State.portFor (s : State) (pa : Nat) : Option Nat :=
  let m := moduleOf pa
  let sel := pa / 128 % 512
  if s.samePod m then
    let p := s.podPort m
    match s.portUp p, s.portUp (p + 1) with
    | true, true => some (p + sel % 2)
    | true, false => some p
    | false, true => some (p + 1)
    | false, false => (s.relayTo m).map (fun r => s.podPort r + sel % 2)
  else
    let up := (List.range 18).filter (fun k => s.portUp (30 + k))
    up[sel % up.length]?.map (30 + ·)

/-- A direction sends or takes one more flit, with its security word (22 Table 22-5). -/
def LinkDir.flit (d : LinkDir) (kg : Bool) : LinkDir :=
  { d with fseq := d.fseq + 1, word := (BitVec.ofBool kg) ++ BitVec.ofNat 31 d.fseq }

/-- A flit leaves a port under the bank in use. -/
def State.sendFlit (s : State) (port : Nat) : State :=
  { s with ports := updWhere (fun (p : Port) => p.num == port) (fun p => { p with tx := p.tx.flit p.tx.kg }) s.ports }

/-- Whether a request on a route is outstanding: a load has not returned, or a write waits at its home. -/
def State.routeLive (s : State) (r : Route) : Bool :=
  s.ticks < r.till || s.homes.any (fun h => h.line == r.line && h.queue.any (fun w => w.core == r.core))

/-- A request leaves on a port, which is noted as its route; none where there is no route. -/
def State.sendOn (s : State) (core : Option Nat) (line till : Nat) (port : Option Nat) : State :=
  match port with
  | none => s
  | some p =>
    let r : Route := { core := core, line := line, port := p, till := till }
    State.sendFlit { s with routes := s.routes.filter (fun r => !(r.core == core && r.line == line)) ++ [r] } p

/-- A request of a core, or of an engine, to a line of another module (22 R394): while an earlier one of that core to the line is
outstanding it takes the same route. -/
def State.request (s : State) (core : Option Nat) (line till : Nat) : State :=
  if !s.isRemote (line * 128) then s
  else
    let mine := fun (r : Route) => r.core == core && r.line == line
    let old := s.routes.find? (fun r => mine r && s.routeLive r)
    s.sendOn core line (max till ((old.map (·.till)).getD 0)) ((old.map (·.port)).or (s.portFor (line * 128)))

/-! ### The memory-side cache (18 R325 to R327) -/

/-- Where a stack offset lies (18 Table 18-2): pseudo-channel, bank, row and byte in row. -/
structure DramPos where
  stack : Nat
  pch   : Nat
  bank  : Nat
  row   : Nat
  byte  : Nat
  deriving DecidableEq, Repr

/-- Whether the region of a physical address is row-contiguous (18 R324, Table 18-3). -/
def State.rowContiguous (s : State) (pa : Nat) : Bool :=
  (s.rcmap.getD (pa / 2 ^ 36 % 8) 0).getLsbD (pa / 2 ^ 30 % 64)

/-- The DRAM position of an HBM address (18 R323, Table 18-2). -/
def State.dram (s : State) (pa : Nat) : DramPos :=
  let st := pa / 2 ^ 36 % 8
  let o := pa % 2 ^ 36
  let rowHi := o / 2 ^ 30 % 64 * 512 + o / 2 ^ 24 % 64 * 8
  if s.rowContiguous pa then
    { stack := st, pch := o / 2 ^ 14 % 64, bank := o / 2 ^ 20 % 16, row := rowHi + o / 2 ^ 11 % 8, byte := o % 2 ^ 11 }
  else
    { stack := st, pch := o / 2 ^ 8 % 64, bank := o / 2 ^ 17 % 16, row := rowHi + o / 2 ^ 21 % 8,
      byte := o / 2 ^ 14 % 8 * 256 + o % 256 }

/-- Whether a physical address is HBM of this module (18 Table 18-1). -/
def isHbm (pa : Nat) : Bool := pa % 2 ^ 51 < 2 ^ 39

/-- The number of a row in its stack. -/
def DramPos.rowKey (d : DramPos) : Nat := (d.pch * 16 + d.bank) * 32768 + d.row

/-- The number of a row among those of the module, which names it in its test and its error record (21 R387, R388). -/
def DramPos.place (d : DramPos) : Nat := d.stack * 2 ^ 25 + d.rowKey

/-- The block of physical memory that goes with a row, by the row's number (21 Table 21-8): its 16 KiB row-contiguous frame,
or the 128 KiB block of an interleaved row (18 Table 18-2); base and size. -/
def State.rowBlock (s : State) (loc : Nat) : Nat × Nat :=
  let stack := loc / 2 ^ 25
  let row := loc % 32768
  let bank := loc / 32768 % 16
  let pch := loc / 32768 / 16 % 64
  let base := s.module * 2 ^ 51 + stack * 2 ^ 36 + row / 512 * 2 ^ 30 + row / 8 % 64 * 2 ^ 24
  if (s.rcmap.getD stack 0).getLsbD (row / 512) then (base + bank * 2 ^ 20 + pch * 2 ^ 14, 2 ^ 14)
  else (base + row % 8 * 2 ^ 21 + bank * 2 ^ 17, 2 ^ 17)

/-- The physical places of a range at which it can go over to another row: its start, and every 256 bytes (18 Table 18-2). -/
def rowCuts (pa n : Nat) : List Nat := (List.range ((pa + n - 1) / 256 + 1 - pa / 256)).map (fun i => max pa ((pa / 256 + i) * 256))

/-- The set of a row in its stack's cache (18 R325). -/
def DramPos.set (d : DramPos) : Nat := (d.row % 4) * 1024 + d.bank * 64 + d.pch

/-- The set of a line of the memory-side cache. -/
def MscLine.set (l : MscLine) : Nat :=
  let row := l.row % 32768
  let bank := l.row / 32768 % 16
  (row % 4) * 1024 + bank * 64 + l.row / 32768 / 16

/-- The rank of a line: the most retentive priority among its valid sectors, 1 `.KEEP` to 3 `.EVF` (18 R326). -/
def MscLine.rank (l : MscLine) : Nat :=
  (List.range 32).foldl (fun r i => if l.valid.getLsbD i then min r (Sparse.get 2 l.prio i) else r) 3

/-- The place of a line's entry in the footprint predictors (18 R325): 4,096 to a stack. -/
def MscLine.entry (l : MscLine) : Nat := l.stack * 4096 + Config.predictorEntry l.row l.first % 4096

/-- Whether Meridian holds a line of the memory-side cache: it lies in the destination of a command whose bytes are not
performed, or keeps a shadow (18 R326, R334). -/
def State.rowHolds (s : State) (l : MscLine) : Bool :=
  l.shadow != 0 || s.rows.any (fun (c : RowCmd) => c.holds.contains (l.stack, l.row))

/-- A line enters the memory-side cache, on a full set in place of the least recently used line of the lowest rank that
Meridian does not hold, if there is one (18 R326). The evicted line's bound goes to its set (18 R327), and the sectors touched
in its residency to the footprint predictor; the new one's lines take the set's bound. -/
def State.mscPlace (s : State) (fresh : MscLine) : State :=
  let key := fresh.stack * 4096 + fresh.set
  let fresh := { fresh with bound := Sparse.get 0 s.mscB key }
  let inSet := s.msc.filter (fun l => l.stack == fresh.stack && l.set == fresh.set)
  if inSet.length < 16 - Sparse.get 0 s.mscWays key then { s with msc := s.msc ++ [fresh] }
  else match inSet.filter (fun l => !s.rowHolds l) with
    | [] => s
    | c :: r =>
      let v := r.foldl (fun a b => if a.rank < b.rank || (a.rank == b.rank && b.used < a.used) then b else a) c
      let out := s.homes.filter (fun h => isHbm (h.line * 128) && (s.dram (h.line * 128)).stack == v.stack &&
        (s.dram (h.line * 128)).rowKey == v.row)
      let b := (out.map (·.emax)).foldl max (Sparse.get 0 s.mscB key)
      let stays := fun (h : Home) => h.pt.isSome || h.remote
      { s with msc := s.msc.filter (fun l => !(l.stack == v.stack && l.row == v.row)) ++ [fresh],
               mscB := Sparse.put 0 s.mscB key b,
               predict := Sparse.put 0 s.predict v.entry v.touched,
               homes := (s.homes.filter (fun h => stays h || !out.any (fun o => o.line == h.line))).map (fun h =>
                 if h.pt.isNone && out.any (fun o => o.line == h.line) then { h with emax := b } else h) }

/-- An ordinary access to a sector of the memory-side cache (18 R325, R326): its line is allocated. A miss, but for the write
of a whole sector, fetches the sector with those that the footprint predictor expects. `hint` 0 leaves the priority. -/
def State.mscTouch (s : State) (pa hint : Nat) (write : Bool) (whole : Bool := false) : State :=
  if !isHbm pa || s.isRemote pa then s
  else
    let d := s.dram pa
    let sec := d.byte / 64
    let bit := 1#32 <<< sec
    let touch := fun (l : MscLine) =>
      let more := if whole || l.valid.getLsbD sec then 0 else Sparse.get 0 s.predict l.entry
      { l with valid := l.valid ||| bit ||| more, dirty := if write then l.dirty ||| bit else l.dirty, touched := l.touched ||| bit,
               prio := if hint == 0 then l.prio else Sparse.put 2 l.prio sec hint, used := s.l1use }
    let s := { s with l1use := s.l1use + 1 }
    let same := fun (l : MscLine) => l.stack == d.stack && l.row == d.rowKey
    if s.msc.any same then { s with msc := updWhere same touch s.msc }
    else s.mscPlace (touch { stack := d.stack, row := d.rowKey, first := sec })

/-- Meridian writes back the dirty sectors of a range of HBM, and invalidates them where asked (18 R325, R334). -/
def State.mscClean (s : State) (pa n : Nat) (drop : Bool) : State :=
  (List.range ((pa + n - 1) / 64 + 1 - pa / 64)).foldl (fun s i =>
    let d := s.dram ((pa / 64 + i) * 64)
    let bit := 1#32 <<< (d.byte / 64)
    { s with msc := updWhere (fun (l : MscLine) => l.stack == d.stack && l.row == d.rowKey) (fun l =>
        { l with dirty := l.dirty &&& ~~~bit, valid := if drop && l.dirty &&& bit != 0 then l.valid &&& ~~~bit else l.valid }) s.msc }) s

/-- The sectors of a range of HBM, by their addresses. -/
def sectorsOf (pa n : Nat) : List Nat := (List.range ((pa + n - 1) / 64 + 1 - pa / 64)).map (fun i => (pa / 64 + i) * 64)

/-- Meridian keeps a sector of HBM as a shadow with its old bytes (18 R334), in a line of its own where the cache holds none. -/
def State.mscShadow (s : State) (pa : Nat) : State :=
  let d := s.dram pa
  let bit := 1#32 <<< (d.byte / 64)
  let keep := fun (l : MscLine) => { l with shadow := l.shadow ||| bit }
  let same := fun (l : MscLine) => l.stack == d.stack && l.row == d.rowKey
  if s.msc.any same then { s with msc := updWhere same keep s.msc }
  else s.mscPlace (keep { stack := d.stack, row := d.rowKey, first := d.byte / 64, used := s.l1use })

/-- The sectors of a range of HBM leave the memory-side cache, shadows among them: Meridian has written their rows (18 R334). -/
def State.mscDrop (s : State) (pa n : Nat) : State :=
  (sectorsOf pa n).foldl (fun s a =>
    let d := s.dram a
    let off := ~~~(1#32 <<< (d.byte / 64))
    { s with msc := updWhere (fun (l : MscLine) => l.stack == d.stack && l.row == d.rowKey) (fun l =>
        { l with valid := l.valid &&& off, dirty := l.dirty &&& off, shadow := l.shadow &&& off }) s.msc }) s

/-- Whether the memory-side cache holds the sector of a physical address (18 R325). -/
def State.mscHit (s : State) (pa : Nat) : Bool :=
  let d := s.dram pa
  s.msc.any (fun l => l.stack == d.stack && l.row == d.rowKey && l.valid.getLsbD (d.byte / 64))

/-- The cycles of an access to a home (07 Table 7-6, 18 R323, R347), beside the other die or not, on a hit of the memory-side
cache or a miss. -/
def tableCycles (pa : Nat) (far hit : Bool) : Nat :=
  if !isHbm pa then (if far then 860 else 700)
  else if hit then (if far then 340 else 180) else if far then 580 else 420

/-- The cycles of an access from a core to the home of a physical address (07 Table 7-6, 18 R323, R347, 22 Table 22-3). -/
def State.homeCycles (s : State) (core pa : Nat) : Nat :=
  let die := dieOfCore core
  if s.isRemote pa then
    let m := moduleOf pa
    tableCycles pa (Config.remoteFar pa s.ticks) (!Config.remoteMiss pa s.ticks) +
      (if !s.samePod m then 880 else if s.directUp m then 640 else 928)
  else if isHbm pa then tableCycles pa (pa / 2 ^ 36 % 8 / 4 != die) (s.mscHit pa)
  else tableCycles pa ((pa % 2 ^ 51 < 2 ^ 40) != (die == 0)) false

/-! ### Banks that row commands hold (18 R343) -/

/-- The bank of a position in its module. -/
def DramPos.bankKey (d : DramPos) : Nat := (d.stack * 64 + d.pch) * 16 + d.bank

/-- The bank that an ordinary access to the sector of an address reaches: none where the memory-side cache holds the sector,
or the frame is not HBM of this module. -/
def State.bankOf? (s : State) (pa : Nat) : Option Nat :=
  if !isHbm pa || s.isRemote pa then none
  else
    let d := s.dram pa
    if s.msc.any (fun l => l.stack == d.stack && l.row == d.rowKey && (l.valid ||| l.shadow).getLsbD (d.byte / 64)) then none
    else some d.bankKey

/-- Whether the row step or the refresh of a command holds a bank. -/
def RowCmd.holdsBank (c : RowCmd) (b : Nat) : Bool := c.held.contains b && ((c.st == .run && c.worked) || c.st == .refresh)

/-- Whether an ordinary access waits for a held bank. -/
def State.bankHeld (s : State) (pa : Nat) : Bool :=
  !s.rows.isEmpty && (s.bankOf? pa).any (fun b => s.rows.any (fun c => c.holdsBank b))

/-- An ordinary access reaches the banks that a row command runs on, or yields (assumption log 11). -/
def State.askBank (s : State) (pa : Nat) : State :=
  if s.rows.isEmpty then s
  else match s.bankOf? pa with
    | none => s
    | some b =>
      if s.rows.any (fun c => c.held.contains b) then { s with bankAsks := Sparse.put 0 s.bankAsks b (s.ticks + 1) } else s

/-! ### Homes (17 R309) -/

/-- The home of a line; a line with no entry is `IDLE`, and its Emax is that which it had when its row entered the memory-side
cache, or the bound of its set where the cache does not hold it (18 R327). -/
def State.home (s : State) (line : Nat) : Home :=
  match s.homes.find? (fun h => h.line == line) with
  | some h => h
  | none =>
    if !isHbm (line * 128) || s.isRemote (line * 128) then { line := line }
    else
      let d := s.dram (line * 128)
      { line := line
        emax := match s.msc.find? (fun l => l.stack == d.stack && l.row == d.rowKey) with
          | some l => l.bound
          | none => Sparse.get 0 s.mscB (d.stack * 4096 + d.set) }

/-- Replaces the home entry of a line. -/
def State.setHome (s : State) (h : Home) : State :=
  { s with homes := h :: s.homes.filter (fun x => x.line != h.line) }

/-- The lease length in ns (11 Table 11-1). -/
def State.leaseLen (s : State) : Nat := field s.leaselen 15 0

/-- The time at which a home in `HOLD` next performs a write, Pt of 17 Table 17-2: that of the first queued write, or with
none queued the end of the hold (17 R319). -/
def Home.next (h : Home) : Option Nat :=
  match h.queue with
  | w :: _ => if h.pt.isSome then some w.due else none
  | [] => h.pt

/-- Whether a row command holds a line (18 R334). -/
def Home.rowHeld (h : Home) : Bool := h.queue.any (fun w => w.row != 0)

/-- A fetch at a home (17 Table 17-2): the lease granted. In `HOLD` the lease is clipped to Pt and the bytes
returned are those before the queued writes, which memory still holds. -/
def State.grant (s : State) (line : Nat) (remoteSource : Bool) : Nat × State :=
  let h := s.home line
  let e := s.time + s.leaseLen
  match h.next with
  | none => (e, s.setHome { h with
      emax := max h.emax e
      remote := if h.emax < e then remoteSource else if h.emax == e then h.remote || remoteSource else h.remote })
  | some pt => (min e pt, s.setHome h)

/-- A fetch at the home of another module (17 R309): the lease that the home grants is a free value up to the longest that a
module may grant (assumption log 6), clipped to the writes that this module has queued there. This module keeps the latest it
was granted. -/
def State.grantAway (s : State) (core line : Nat) : Nat × State :=
  let (d, s) := (s.request (some core) line (s.ticks + 5 * s.homeCycles core (line * 128))).drawNat
  let h := s.home line
  let e := (h.queue.map (·.due)).foldl min (s.time + d % 65586)
  (e, s.setHome { h with emax := max h.emax e })

/-- Whether a fetch meets a structure under test (21 R388): the set of the memory-side cache, or the row of a sector that is
not in it. -/
def State.fetchTested (s : State) (pa : Nat) : Bool :=
  if s.tests.isEmpty || !isHbm pa || s.isRemote pa then false
  else
    let d := s.dram pa
    let hit := s.msc.any (fun l => l.stack == d.stack && l.row == d.rowKey && l.valid.getLsbD (d.byte / 64))
    s.underTest 7 (d.stack * 4096 + d.set) || (!hit && s.underTest 5 d.place)

/-- Whether a write to a line meets a structure under test at its home: its set of the memory-side cache (21 R388). -/
def State.homeTested (s : State) (line : Nat) : Bool :=
  !s.tests.isEmpty && isHbm (line * 128) && !s.isRemote (line * 128) &&
    (let d := s.dram (line * 128)
     s.underTest 7 (d.stack * 4096 + d.set))

/-- Whether a fetch of a line must wait: a row command holds the line and its `Pt` has come (18 R334), its structure is under
test, or there is no route to its module. -/
def State.fetchHeld (s : State) (pa : Nat) : Bool :=
  let h := s.home (pa / 128)
  (h.rowHeld && (match h.next with
    | some t => t ≤ s.time
    | none => false)) || s.fetchTested pa || s.routeHeld pa

/-- The bytes of a line as its home stands. -/
def State.lineBytes (s : State) (line : Nat) : List Byte := Memory.bytes s.mem (line * 128) 128

/-- The new value of an atomic operation (07 Table 7-3) on an old value: `op` and `ty` are its codes. -/
def atomNew (op ty : Nat) (old v : W64) : W64 :=
  let w := if 2 ≤ ty && op < 7 then 64 else 32
  let a := old.toNat % 2 ^ w
  let b := v.toNat % 2 ^ w
  let sg := ty % 2 == 0
  let lt := if sg then signed w a < signed w b else a < b
  match op with
  | 0 => w64 ((a + b) % 2 ^ w)
  | 1 => w64 (if lt then a else b)
  | 2 => w64 (if lt then b else a)
  | 3 => w64 (a &&& b)
  | 4 => w64 (a ||| b)
  | 5 => w64 (a ^^^ b)
  | 6 => w64 b
  | _ =>
    if ty == 0 then w64 (fpAdd .f32 {} a b).1
    else w64 ((fpAdd .f16 {} (a % 65536) (b % 65536)).1 + 65536 * (fpAdd .f16 {} (a / 65536) (b / 65536)).1)

/-- The width in bytes of an atomic's word. -/
def atomBytes (op ty : Nat) : Nat := if 2 ≤ ty && op < 7 then 8 else 4

/-- Kinds of operation on a barrier object (13 R251). -/
inductive ObjKind where
  | arrive
  | bytes (err : Bool)
  deriving DecidableEq, Repr

/-- `ObjOp` (13 R251) on an object whose fields `rd` reads by offset and size: its new bytes; none where the object rejects
the operation. -/
def objBytes (rd : Nat → Nat → Nat) (k : ObjKind) (v : Nat) : Option (List Byte) :=
  let need := rd 0x00 4
  let arr := rd 0x04 4
  let expb := rd 0x08 8
  let doneb := rd 0x10 8
  let phase := rd 0x18 4
  let flags := rd 0x1E 2
  if rd 0x1C 2 ≠ 0x424F then none
  else if k == .arrive && arr == need then none
  else
    let arr := if k == .arrive then arr + 1 else arr
    let expb := if k == .arrive then (expb + v) % 2 ^ 64 else expb
    let doneb := if k == .arrive then doneb else (doneb + v) % 2 ^ 64
    let flags := if k == .bytes true then flags ||| 1 else flags
    let full := arr == need && expb ≤ doneb
    let doneb := if full then doneb - expb else doneb
    let arr := if full then 0 else arr
    let expb := if full then 0 else expb
    let phase := if full then (phase + 1) % 2 ^ 32 else phase
    some (leOf 4 need ++ leOf 4 arr ++ leOf 8 expb ++ leOf 8 doneb ++ leOf 4 phase ++ leOf 2 0x424F ++ leOf 2 flags)

/-- The bytes that a write changes, and the old value it reads, on a memory; for an addition to a barrier object, 1 where the
object rejects it. -/
def WriteOp.apply (op : WriteOp) (m : List Host.Cell) : List (Nat × Byte) × W64 :=
  let rd := fun (a n : Nat) => w64 (leVal (Memory.bytes m a n))
  let wr := fun (a n : Nat) (v : W64) => (List.range n).map (fun i => (a + i, BitVec.ofNat 8 (v.toNat / 2 ^ (8 * i))))
  match op with
  | .store bs => (bs, 0)
  | .atom a op ty v =>
    let n := atomBytes op ty
    let old := rd a n
    (wr a n (atomNew op ty old v), old)
  | .cas a wide c v =>
    let n := if wide then 8 else 4
    let old := rd a n
    (if old == c then wr a n v else [], old)
  | .dec a =>
    let old := rd a 8
    (if old == 0 then [] else wr a 8 (old - 1), old)
  | .add a err v => match objBytes (fun o n => leVal (Memory.bytes m (a + o) n)) (.bytes err) v with
    | none => ([], 1)
    | some bs => ((List.range bs.length).map (fun i => (a + i, bs.getD i 0)), 0)

/-! ### Transactions (07 R141 to R143) -/

/-- The number of lines in a transaction's sets (07 Table 7-5). -/
def Tx.lines (t : Tx) : Nat := (t.reads ++ t.writes.filter (fun l => !t.reads.contains l)).length

/-- Aborts a group's transaction (07 R143): `TXSTAT` records the cause, the buffered bytes are dropped, and
every lane of the set resumes after its `TXBEGIN` with `pd` false. -/
def Group.txAbort (g : Group) (cause code : Nat) : Group :=
  match g.tx with
  | none => g
  | some t =>
    let g := { g with tx := none, txstat := w32 (t.lines * 65536 + code * 256 + cause) }
    (lanesOf t.lanes).foldl (fun g i =>
      let g := g.retire i true
      (g.writeP i t.pd false).modLane i (fun l =>
        if l.ended then l else { l with pc := t.resume, park := 0, wait := .none, replay := false })) g

/-- Aborts the transaction of a group of the state: a lane that waited on a queue waits no more, and those behind it are
served (07 R143, 09 R192). -/
def State.txAbort (s : State) (gid cause code : Nat) : State :=
  let g := s.group gid
  let waiting := match g.tx with
    | some t => (lanesOf t.lanes).filter (fun i => (g.lane i).park == 3)
    | none => []
  let s := s.modGroup gid (fun g => g.txAbort cause code)
  if waiting.isEmpty then s else s.leaveQueues g.team gid waiting

/-- A transaction that another party aborts: its lanes resume at the next instruction boundary of their group
(07 R143). -/
def Group.txKill (g : Group) (cause code : Nat) : Group :=
  match g.tx with
  | none => g
  | some t => if t.dead.isSome then g else { g with tx := some { t with dead := some (cause, code) } }

/-- Whether an access by a lane of a group is one by another party of a transaction (07 R142). -/
def Group.isOther (g : Group) (gid : Option Nat) (lane : Option Nat) : Bool :=
  match g.tx with
  | none => false
  | some t => gid != some g.id || (match lane with | some i => !inMask t.lanes i | none => false)

/-- A write by another party, which `other` tells of a group, to a line of a transaction's sets aborts it with `CONFLICT`
(07 R142). -/
def State.txWriteConflict (s : State) (line : Nat) (other : Group → Bool) : State :=
  { s with groups := s.groups.map (fun g =>
      match g.tx with
      | none => g
      | some t => if (t.reads.contains line || t.writes.contains line) && other g then g.txKill 1 0 else g) }

/-- A load by another party of a line of a transaction's write set aborts it with `CONFLICT` (07 R142). -/
def State.txReadConflict (s : State) (line : Nat) (gid : Option Nat) (lane : Option Nat) : State :=
  { s with groups := s.groups.map (fun g =>
      match g.tx with
      | none => g
      | some t => if t.writes.contains line && g.isOther gid lane then g.txKill 1 0 else g) }

/-- An engine, or another module, loads bytes of global memory: a transaction that has written one of their lines aborts
with `CONFLICT` (07 R142). -/
def State.engineLoads (s : State) (pa n : Nat) : State :=
  if s.groups.all (fun g => g.tx.isNone) then s
  else (List.range ((pa + n - 1) / 128 + 1 - pa / 128)).foldl (fun s i => s.txReadConflict (pa / 128 + i) none none) s

/-! ### Performing writes at their homes -/

/-- Whether a signal's value meets the condition of a `WAIT` packet (21 Table 21-3): `EQ`, `NE`, `LT`, `GE`,
the last two signed. -/
def waitCond (c : Nat) (v ref : W64) : Bool :=
  match c % 4 with
  | 0 => v == ref
  | 1 => v != ref
  | 2 => v.slt ref
  | _ => !(v.slt ref)

/-- Memory at a tenant's virtual address as its home stands; none where a byte is not mapped, or its module refuses the
request. A byte of another module is a free value (assumption log 6). -/
def State.homeRead (s : State) (tenant a n : Nat) : Option (List Byte) :=
  ((List.range n).map (fun i => match s.translate tenant (a + i) .read with
    | .ok pa =>
      if !s.isRemote pa then some (Memory.byte s.mem pa)
      else if (s.remoteRefusal pa (a + i)).isSome || s.routeHeld pa then none
      else some (Config.remoteText pa s.ticks)
    | .error _ => none)).foldr (fun x acc => match x, acc with
      | some b, some r => some (b :: r)
      | _, _ => none) (some [])

/-- A read of a few bytes at a tenant's address, by firmware or a front end, is an engine's load (07 R142). -/
def State.homeLoads (s : State) (tenant a n : Nat) : State :=
  match s.translate tenant a .read with
  | .ok pa => if s.isRemote pa then s else s.engineLoads pa n
  | .error _ => s

/-- The packet at a queue's read index (21 R370). -/
def State.packet (s : State) (q : HostQueue) : List Byte :=
  (s.homeRead q.tenant (q.ring + 64 * (q.ri % 2 ^ q.log2)) 64).getD []

/-- A write performed at a word's home shows its value to every queue that waits on it (21 R373): a value
that meets a queue's condition is remembered, so that one that holds only briefly is still seen. -/
def State.showSignal (s : State) (line : Nat) : State :=
  { s with queues := s.queues.map (fun q =>
      match q.st with
      | .wait _ =>
        let pk := q.now.getD (s.packet q)
        let a := leVal ((pk.drop 8).take 8)
        match s.translate q.tenant a .read with
        | .error _ => q
        | .ok pa =>
          let v := w64 (leVal (Memory.bytes s.mem pa 8))
          let hit := (pk.headD 0).toNat == 4 && pa / 128 == line &&
            waitCond ((pk.getD 24 0).toNat) v (w64 (leVal ((pk.drop 16).take 8)))
          if hit then { q with seen := q.seen ++ [v] } else q
      | _ => q) }

/-- The completion time of a write reaches its group (07 R138, R139), or, where that has ended, its launch (17 R316). -/
def State.complete (s : State) (gid : Option Nat) (t : Nat) : State :=
  match gid with
  | none => s
  | some id =>
    if s.groups.any (fun g => g.id == id) then s.modGroup id (fun g => { g with wctime := max g.wctime t })
    else { s with launches := updWhere (fun (l : Launch) => l.left.contains id) (fun l => { l with leftT := max l.leftT t }) s.launches }

/-- The completion time of a write reaches every group that it returns to; one from another module is remembered as such
(17 R322). -/
def State.completeAll (s : State) (w : HWrite) (t : Nat) (away : Bool) : State :=
  let ids := w.gid.toList ++ w.also
  let s := ids.foldl (fun s id => s.complete (some id) t) s
  if away then ids.foldl (fun s id => s.modGroup id (fun g => { g with rctime := max g.rctime t })) s else s

/-- Whether a write is one by another party of a group's transaction (07 R142): of another group or engine, of a lane
outside the lane set, or of a committed transaction of other lanes. -/
def HWrite.isOther (w : HWrite) (g : Group) : Bool :=
  match g.tx with
  | none => false
  | some t => w.gid != some g.id || (if w.tx then w.set &&& ~~~t.lanes != 0 else !inMask t.lanes w.lane)

/-- Whether a write returns its word's old value. -/
def WriteOp.isAtom : WriteOp → Bool
  | .atom _ _ _ _ | .cas _ _ _ _ => true
  | _ => false

/-- The first address a write touches. -/
def WriteOp.addr : WriteOp → Nat
  | .store bs => (bs.headD (0, 0)).1
  | .atom a _ _ _ => a
  | .cas a _ _ _ => a
  | .dec a => a
  | .add a _ _ => a

/-- What a performed `JOIN` decrement does to its lane (09 R180): a counter that held zero traps; the last
arrival waits for the completion time and runs on; every other lane ends. `settleJoins` does what follows. -/
def State.joinDone (s : State) (gid lane : Nat) (old : W64) (t : Nat) : State :=
  s.modLane gid lane (fun l => { l with wait := if old == 0 then .joinZero else .until t (old != 1) })

/-- A write touches the sectors of the memory-side cache that it lies in (18 R325), each with its hint (07 R130). -/
def State.touchWritten (s : State) (w : HWrite) (bs : List (Nat × Byte)) : State :=
  let secs := if bs.isEmpty then [w.op.addr / 64] else (bs.map (fun c => c.1 / 64)).eraseDups
  secs.foldl (fun s x => s.mscTouch (x * 64) (Sparse.get 0 w.hints (x % 2)) (!bs.isEmpty)
    (64 ≤ (bs.filter (fun c => c.1 / 64 == x)).length)) s

/-- The address of a module's frame. -/
def frameOf (m pa : Nat) : Nat := m * 2 ^ 51 + pa % 2 ^ 51

/-- A flit leaves on the route to an address. -/
def State.sendTo (s : State) (pa : Nat) : State :=
  match s.portFor pa with
  | none => s
  | some p => s.sendFlit p

/-- Answers a request of another module: the answer leaves on the route to that module. -/
def State.answerTo (s : State) (src tag pa : Nat) (a : RemoteAnswer) : State :=
  State.sendTo { s with answers := s.answers ++ [(src, tag, a)] } (frameOf src pa)

/-- What a performed write gives its group: the old value of an atomic, or what a `JOIN` finds (07 R135, 09 R180). -/
def State.giveOld (s : State) (w : HWrite) (old : W64) (t : Nat) : State :=
  match w.gid with
  | none => s
  | some id =>
    match w.op with
    | .store _ | .add _ _ _ => s
    | .dec _ => s.joinDone id w.lane old t
    | _ => s.modGroup id (fun g => g.deliver w.lane w.serial [if w.status then 0 else old])

/-- Performs a write of a line at time `t` (17 R309, R312): the bytes are written, the old value
is delivered, the completion time is returned, transactions of other parties abort, and waiting queues see
the new value. -/
def State.performBytes (s : State) (line : Nat) (w : HWrite) (t : Nat) : State :=
  let (bs, old) := w.op.apply s.mem
  let s := { s with mem := Memory.setCells s.mem bs }
  let s := s.txWriteConflict line w.isOther
  let s := (s.completeAll w t false).giveOld w old t
  let s := match w.reply with
    | none => s
    | some (src, tag) =>
      let a := match w.op with
        | .store _ => RemoteAnswer.done t
        | _ => .old old t
      s.answerTo src tag (line * 128) a
  s.showSignal line

/-- Performs a write of a line at its home, through the memory-side cache. -/
def State.perform (s : State) (line : Nat) (w : HWrite) (t : Nat) : State :=
  (s.performBytes line w t).touchWritten w (w.op.apply s.mem).1

/-- Whether a line is homed on a module that cannot be reached (22 R397). -/
def State.unreachable (s : State) (line : Nat) : Bool :=
  s.isRemote (line * 128) && (320 ≤ moduleOf (line * 128) || s.unrouted (moduleOf (line * 128)))

/-- The dirty bytes of a line whose home cannot be reached are discarded: the home keeps its own, and an error record names
the line and the tenant (22 R397). -/
def State.discard (s : State) (line : Nat) (writers : List Nat) : State :=
  let tenants := (writers.map (fun o => (s.group ((o - 1) / 32)).tenant)).eraseDups
  tenants.foldl (fun s t => s.report { sev := 1, src := 9, loc := line, tenant := t }) s

/-- A write is performed at the home of another module at time `t` (17 R309); one of bytes whose home can no longer be reached
is discarded (22 R397): its completion time and an old value, which
is a free value, come back (assumption log 6). A `JOIN` there waits 50 ns more (17 R316). -/
def State.performAway (s : State) (line : Nat) (w : HWrite) (t : Nat) : State :=
  let s := (s.txWriteConflict line w.isOther).completeAll w t true
  match w.op with
  | .store _ => if s.unreachable line then s.discard line (w.gid.toList.map (fun g => g * 32 + 1)) else s
  | _ =>
    let (v, s) := s.drawWord
    s.giveOld w v (t + 50)

/-- The earliest time of a write at a home: its latest lease's expiry, with 1 µs more where another module may
hold the lease and this one is not synchronised (22 R398). -/
def State.writeTime (s : State) (h : Home) : Nat := if h.remote && !s.synced then h.emax + 1000 else h.emax

/-- Whether a write that reaches a home now is performed at once (17 Table 17-2). -/
def State.performsNow (s : State) (line : Nat) : Bool :=
  let h := s.home line
  !s.isRemote (line * 128) && h.pt.isNone && s.writeTime h ≤ s.time && !s.homeTested line

/-- The bound in ns of the time that a write to another module takes beyond the leases that this module knows of: the drain of
a pre-emption waits for it (17 R322) and keeps within the 2,000 ns of 15 R284 (DEDUCED, assumption log 6). -/
def awayTime : Nat := 1500

/-- A write that reaches its home (17 Table 17-2): performed at once when no lease lives, else queued; the
home then holds it until the latest lease expires, and while its structure is under test (21 R388). One to a home on another
module is performed there when its free completion time comes (assumption log 6), not before the latest lease that this
module was granted, in the order of the writes to its line, and until then this module merges it (17 R311). -/
def State.writeAtHome (s : State) (line : Nat) (w : HWrite) : State :=
  let h := s.home line
  let w := { w with sent := s.ticks }
  if s.isRemote (line * 128) then
    let (d, s) := s.drawNat
    let due := max (s.time + d % awayTime) (max h.emax (maxOf (h.queue.map (·.due))))
    (s.request w.core line 0).setHome { h with queue := h.queue ++ [{ w with due := due }] }
  else match h.pt with
    | some pt => s.setHome { h with queue := h.queue ++ [{ w with due := pt }] }
    | none =>
      let e := s.writeTime h
      if e ≤ s.time && !s.homeTested line then s.perform line w s.time
      else if e ≤ s.time then s.setHome { h with pt := some s.time, queue := h.queue ++ [{ w with due := s.time }] }
      else s.setHome { h with pt := some e, queue := h.queue ++ [{ w with due := e }] }

/-- Performs the writes of a list, each with the completion time at which it was due. -/
def State.performList (s : State) (line : Nat) (ws : List HWrite) : State :=
  ws.foldl (fun s w => if s.isRemote (line * 128) then s.performAway line w w.due else s.perform line w w.due) s

/-- Whether the queued writes of a line wait although their time has come: its structure is under test (21 R388), or there is
no route to its module (22 R397). -/
def State.homeHeld (s : State) (line : Nat) : Bool := s.homeTested line || s.routeHeld (line * 128)

/-- Writes that wait so are performed later than their time. -/
def State.postpone (s : State) : State :=
  { s with homes := s.homes.map (fun h =>
      if h.queue.isEmpty || !s.homeHeld h.line then h
      else { h with
        pt := h.pt.map (max s.time)
        queue := h.queue.map (fun w => { w with due := max w.due s.time }) }) }

/-- The end of a hold (17 Table 17-2): the queued writes whose time has come are performed in arrival order, each with its
completion time, up to a row command that has not ended (18 R334). -/
def State.releaseHold (s : State) (line : Nat) : State :=
  let h := s.home line
  let due := if s.homeHeld line then [] else h.queue.takeWhile (fun w => w.row == 0 && w.due ≤ s.time)
  let rest := h.queue.drop due.length
  let pt := match h.pt with
    | some p => if rest.isEmpty && p ≤ s.time then none else some p
    | none => none
  if h.pt.isNone && h.queue.isEmpty then s else (s.setHome { h with pt := pt, queue := rest }).performList line due

/-- The write of a value at a physical address by an engine or firmware, in parts that each lie in one line; `origin` marks
the parts (`HWrite.origin`). -/
def State.engineWrite (s : State) (gid : Option Nat) (pa : Nat) (bs : List Byte) (origin : Nat := 0) : State :=
  let cells := (List.range bs.length).map (fun i => (pa + i, bs.getD i 0))
  let lines := (cells.map (fun c => c.1 / 128)).eraseDups
  lines.foldl (fun s ln => s.writeAtHome ln { gid := gid, op := .store (cells.filter (fun c => c.1 / 128 == ln)), origin := origin }) s

/-- Whether a write with a mark is still queued at a home. -/
def State.originQueued (s : State) (origin : Nat) : Bool := s.homes.any (fun h => h.queue.any (fun w => w.origin == origin))

/-! ### The L1 (11 R223 to R226, 17 R310) -/

/-- A line of a core's L1. -/
def State.l1Line? (s : State) (core line : Nat) : Option L1Line :=
  s.l1.find? (fun l => l.core == core && l.line == line)

/-- Replaces a line of a core's L1. -/
def State.setL1 (s : State) (l : L1Line) : State :=
  { s with l1 := l :: s.l1.filter (fun x => !(x.core == l.core && x.line == l.line)) }

/-- Drops a line of a core's L1. -/
def State.dropL1 (s : State) (core line : Nat) : State :=
  { s with l1 := s.l1.filter (fun x => !(x.core == core && x.line == line)) }

/-- Writes back the dirty sectors of an L1 line to their home (11 R225), the bytes of each storing lane as
one write; the line stays valid and clean. The completion time returns to every group that has stored to it, and to the
lanes of `also`, whose `CWB` or `CINV` asks for the write-back (07 R138). -/
def State.writeBack (s : State) (core line : Nat) (also : Sparse Nat := []) : State :=
  match s.l1Line? core line with
  | none => s
  | some l =>
    if l.dirty.isEmpty then s
    else
      let s := s.setL1 { l with dirty := [], since := none, owners := [], hints := [] }
      let writers := (l.dirty.map (·.2)).eraseDups
      if s.unreachable line then (s.dropL1 core line).discard line writers
      else writers.foldl (fun s o =>
        let bs := (l.dirty.filter (fun d => d.2 == o)).map (fun d => (line * 128 + d.1, Sparse.get 0 l.bytes d.1))
        let gid := (o - 1) / 32
        let lanes := also.foldl (fun m x => if Sparse.get 0 m x.1 == 0 then Sparse.put 0 m x.1 x.2 else m) l.owners
        s.writeAtHome line { core := some core, gid := some gid, lane := (o - 1) % 32, op := .store bs, hints := l.hints,
                             also := (lanes.map (·.1 / 32)).eraseDups.filter (· != gid), lanes := lanes }) s

/-- Whether a group has stored to a line since it was clean. -/
def L1Line.ownedBy (l : L1Line) (gid : Nat) : Bool := l.owners.any (fun x => x.1 / 32 == gid)

/-- Writes back every line of a core that a group has stored to (11 R225). -/
def State.writeBackGroup (s : State) (gid : Nat) : State :=
  let mine := s.l1.filter (fun l => l.ownedBy gid)
  mine.foldl (fun s l => s.writeBack l.core l.line) s

/-- The groups of a core whose open transactions a line belongs to. -/
def State.txOwners (s : State) (core line : Nat) : List Nat :=
  (s.groups.filter (fun g => g.core == core && (match g.tx with
    | some t => t.reads.contains line || t.writes.contains line
    | none => false))).map (·.id)

/-- Makes room for a line in its set (11 R226): a way with no line, else the least recently used line of
priority `.EVF`, then `.NORM`, then `.KEEP`; a transaction's line only when every way holds one, and every transaction that
it belongs to then aborts. -/
def State.makeRoom (s : State) (core line : Nat) : State :=
  let set := line % 128
  let ways := 8 - Sparse.get 0 (s.cores.getD core {}).l1ways set
  let here := s.l1.filter (fun l => l.core == core && l.line % 128 == set)
  if here.length < ways then s
  else
    let free := here.filter (fun l => (s.txOwners core l.line).isEmpty)
    match (if free.isEmpty then here else free) with
    | [] => s
    | c :: r =>
      let v := r.foldl (fun a b => if a.prio < b.prio || (a.prio == b.prio && b.used < a.used) then b else a) c
      let s := (s.txOwners core v.line).foldl (fun s gid => s.txAbort gid 2 0) s
      (s.writeBack core v.line).dropL1 core v.line

/-- A line that a transaction stores to has its place in the L1 (07 R141, 11 R226); no byte of it is valid by that. A hint
sets its priority (07 R130). -/
def State.txLine (s : State) (core line hint : Nat) : State :=
  let s := { s with l1use := s.l1use + 1 }
  match s.l1Line? core line with
  | some l => s.setL1 { l with used := s.l1use, prio := if hint == 0 then l.prio else hint }
  | none => (s.makeRoom core line).setL1
      { core := core, line := line, lease := 0, prio := if hint == 0 then 2 else hint, used := s.l1use }

/-- Whether a load of `n` bytes hits in a core's L1: every sector of it is valid under a live lease (11 R224). -/
def State.l1Hit (s : State) (core pa n : Nat) : Bool :=
  (List.range ((pa + n - 1) / 64 + 1 - pa / 64)).all (fun k =>
    let sec := pa / 64 + k
    match s.l1Line? core (sec / 2) with
    | some l => s.time < l.lease && (if sec % 2 == 0 then l.v0 else l.v1)
    | none => false)

/-- A sector of a line, fetched if it is not there under a live lease (11 R224, 17 Table 17-3). `hint` is the
priority of 07 R130. When the line's lease has lapsed, a dirty other sector keeps the bytes that the core has written, and
its other bytes are those that the home returns with the line, so that none fetched under the old lease is served under the
new one (assumption log 89). -/
def State.l1Fetch (s : State) (core line sec hint : Nat) : State :=
  let s := { s with l1use := s.l1use + 1 }
  let off := sec * 64
  match s.l1Line? core line with
  | some l =>
    let l := { l with used := s.l1use, prio := if hint == 0 then l.prio else hint }
    let live := s.time < l.lease
    let valid := if sec == 0 then l.v0 else l.v1
    if live && valid then s.setL1 l
    else
      let (e, s) := if s.isRemote (line * 128) then s.grantAway core line else s.grant line false
      let (src, s) := if s.isRemote (line * 128) then s.drawBytes 128 else (s.lineBytes line, s)
      let s := s.mscTouch (line * 128 + off) hint false
      let isDirty := fun o => Sparse.get 0 l.dirty o != 0
      let fill := fun (off : Nat) (b : Sparse Byte) => (List.range 64).foldl (fun b i =>
        if isDirty (off + i) then b else Sparse.put 0 b (off + i) (src.getD (off + i) 0)) b
      let other := if sec == 0 then l.v1 else l.v0
      let otherDirty := l.dirty.any (fun d => if sec == 0 then 64 ≤ d.1 else d.1 < 64)
      let keep := other && (live || otherDirty)
      let bytes := fill off l.bytes
      let bytes := if other && !live && otherDirty then fill (64 - off) bytes else bytes
      let lease := if s.isRemote (line * 128) then e - 50 else e
      s.setL1 { l with lease := lease, bytes := bytes, v0 := if sec == 0 then true else keep,
                       v1 := if sec == 0 then keep else true }
  | none =>
    let s := s.makeRoom core line
    let (e, s) := if s.isRemote (line * 128) then s.grantAway core line else s.grant line false
    let (src, s) := if s.isRemote (line * 128) then s.drawBytes 128 else (s.lineBytes line, s)
    let s := s.mscTouch (line * 128 + off) hint false
    let bytes := (List.range 64).foldl (fun b i => Sparse.put 0 b (off + i) (src.getD (off + i) 0)) []
    let lease := if s.isRemote (line * 128) then e - 50 else e
    s.setL1 { core := core, line := line, lease := lease, v0 := sec == 0, v1 := sec == 1, bytes := bytes,
              prio := if hint == 0 then 2 else hint, used := s.l1use }

/-- Whether a queued write is a core's own for a lane (17 R311): an ordinary one of the core, or one of a committed
transaction to whose lane set the lane belongs (07 R141). -/
def HWrite.isOwn (w : HWrite) (core : Nat) (gid lane : Option Nat) : Bool :=
  if w.tx then w.gid.isSome && w.gid == gid && lane.any (inMask w.set) else w.core == some core

/-- The latest byte that a core itself has written to an address and that is not performed yet (17 R311), as a lane of
a group reads it: in the L1, or in the queue of the home. -/
def State.ownByte (s : State) (core pa : Nat) (gid lane : Option Nat) : Option Byte :=
  let line := pa / 128
  let l1 := match s.l1Line? core line with
    | some l => if Sparse.get 0 l.dirty (pa % 128) != 0 then some (Sparse.get 0 l.bytes (pa % 128)) else none
    | none => none
  match l1 with
  | some b => some b
  | none =>
    match s.homes.find? (fun h => h.line == line) with
    | none => none
    | some h => h.queue.foldl (fun acc w =>
        if w.isOwn core gid lane then
          match w.op with
          | .store bs => match bs.filter (fun c => c.1 == pa) with
            | [] => acc
            | c :: r => some ((c :: r).getLastD c).2
          | _ => acc
        else acc) none

/-- A byte as a core reads it after a fetch: its own unperformed write, else the byte its L1 line holds. -/
def State.coreByte (s : State) (core pa : Nat) (gid lane : Option Nat) : Byte :=
  match s.ownByte core pa gid lane with
  | some b => b
  | none =>
    match s.l1Line? core (pa / 128) with
    | some l => Sparse.get 0 l.bytes (pa % 128)
    | none => Memory.byte s.mem pa

/-- A byte of text as a core fetches it (assumption log 25): its own unperformed write, else the byte at its home. A
byte of another module is a free value. -/
def State.textByte (s : State) (core pa : Nat) : Byte :=
  match s.ownByte core pa none none with
  | some b => b
  | none => if s.isRemote pa then Config.remoteText pa s.ticks else Memory.byte s.mem pa

/-- A global load of `n` bytes that lie in one sector or in two sectors of a line (17 R312), by a lane or an
engine of a core. -/
def State.loadGlobal (s : State) (core pa n hint : Nat) (gid : Option Nat) (lane : Option Nat) : List Byte × State :=
  let line := pa / 128
  let s := s.txReadConflict line gid lane
  let secs := ((List.range n).map (fun i => (pa + i) / 64 % 2)).eraseDups
  let s := secs.foldl (fun s x => s.l1Fetch core line x hint) s
  ((List.range n).map (fun i => s.coreByte core (pa + i) gid lane), s)

/-- Bytes of physical memory as their homes stand, with no core's unperformed writes (17 R317). -/
def State.homeBytes (s : State) (pa n : Nat) : List Byte := Memory.bytes s.mem pa n

/-- A write by a lane aborts at once the transactions of its own core that hold the line and that it is
another party of (07 R142): every group of the core sees the bytes from now on (17 R311). -/
def State.coreConflict (s : State) (core line gid lane : Nat) : State :=
  { s with groups := s.groups.map (fun (g : Group) =>
      match g.tx with
      | none => g
      | some t =>
        if g.core == core && (t.reads.contains line || t.writes.contains line) && g.isOther (some gid) (some lane) then
          g.txKill 1 0
        else g) }

/-- A global store by a lane of a core (11 R225): into the L1 line when it is present, marking it dirty, else
to the home. -/
def State.storeGlobal (s : State) (core gid lane pa : Nat) (bs : List Byte) (hint : Nat) : State :=
  let line := pa / 128
  let s := s.coreConflict core line gid lane
  match s.l1Line? core line with
  | some l =>
    let s := { s with l1use := s.l1use + 1 }
    let put := fun (x : L1Line) (i : Nat) =>
      { x with
        bytes := Sparse.put 0 x.bytes (pa % 128 + i) (bs.getD i 0),
        dirty := Sparse.put 0 x.dirty (pa % 128 + i) (gid * 32 + lane + 1) }
    let l := (List.range bs.length).foldl put l
    s.setL1 { l with since := l.since <|> some s.ticks, used := s.l1use, prio := if hint == 0 then l.prio else hint
                     owners := if Sparse.get 0 l.owners (gid * 32 + lane) == 0 then Sparse.put 0 l.owners (gid * 32 + lane) (s.ticks + 1)
                       else l.owners
                     hints := if hint == 0 then l.hints else Sparse.put 0 l.hints (pa / 64 % 2) hint }
  | none =>
    let cells := (List.range bs.length).map (fun i => (pa + i, bs.getD i 0))
    s.writeAtHome line { core := some core, gid := some gid, lane := lane, op := .store cells,
                         hints := Sparse.put 0 [] (pa / 64 % 2) hint }

/-! ### Transactions of a lane (07 R141) -/

/-- Whether a lane of a group runs in its group's open transaction. -/
def Group.inTx (g : Group) (lane : Nat) : Bool :=
  match g.tx with
  | some t => inMask t.lanes lane
  | none => false

/-- Adds a line to a transaction's read or write set; a 33rd line aborts it with `CAPACITY` (07 R142). The
answer says whether the transaction is still open. -/
def State.txJoin (s : State) (gid line : Nat) (write : Bool) : Bool × State :=
  match (s.group gid).tx with
  | none => (true, s)
  | some t =>
    let t' := if write then { t with writes := if t.writes.contains line then t.writes else t.writes ++ [line] }
      else { t with reads := if t.reads.contains line then t.reads else t.reads ++ [line] }
    if 32 < t'.lines then (false, s.txAbort gid 2 0)
    else (true, s.modGroup gid (fun g => { g with tx := some t' }))

/-- The bytes of a load merged with the stores that the transaction has buffered (07 R141). -/
def Group.txMerge (g : Group) (pa : Nat) (bs : List Byte) : List Byte :=
  match g.tx with
  | none => bs
  | some t => (List.range bs.length).map (fun i => (Sparse.get none t.buf (pa + i)).getD (bs.getD i 0))

/-- Buffers bytes in a transaction (07 R141), with the hint of the store (07 R130). -/
def Group.txBuffer (g : Group) (pa : Nat) (bs : List Byte) (hint : Nat) : Group :=
  match g.tx with
  | none => g
  | some t =>
    let buf := (List.range bs.length).foldl (fun b i => Sparse.put none b (pa + i) (some (bs.getD i 0))) t.buf
    { g with tx := some { t with buf := buf, hints := if hint == 0 then t.hints else Sparse.put 0 t.hints (pa / 64) hint } }

/-! ### Vaults (13 R245 to R249, 10 R205, 13 R250 to R252) -/

/-- Whether a vault address lies in a window of a list, writable when asked (13 R245). -/
def vaultGranted (vwin : List W64) (a : Nat) (write : Bool) : Bool :=
  vwin.any (fun w =>
    let base := field w 28 16 * 65536
    let len := field w 44 32 * 65536
    base ≤ a && a < base + len && (!write || w.getLsbD 0))

/-- Whether every byte of a vault range is granted. -/
def vaultRange (vwin : List W64) (a n : Nat) (write : Bool) : Bool :=
  a + n ≤ 2 ^ 29 && (List.range ((a + n - 1) / 65536 + 1 - a / 65536)).all (fun i =>
    vaultGranted vwin (max a ((a / 65536 + i) * 65536)) write)

/-- The vault array of an address (13 R248). -/
def arrayOf (die a : Nat) : Nat := die * 256 + a / 2 ^ 21 % 256

/-- The array number of a core's local store (13 R248). -/
def localArray (core : Nat) : Nat := 512 + core

/-- An array's retention state; an array that no entry names has been active and idle since time 0. -/
def State.retention (s : State) (a : Nat) : Retention := Sparse.get (Retention.active 0) s.arrays a

/-- Sets an array's retention state. -/
def State.setRetention (s : State) (a : Nat) (r : Retention) : State :=
  { s with arrays := Sparse.put (Retention.active 0) s.arrays a r }

/-- The re-encoding time of an array in ticks (13 R248): 2,048 or 256 core cycles. -/
def reencodeTicks (a : Nat) : Nat := if a < 512 then 5 * 2048 else 5 * 256

/-- An access that reaches an array (13 Table 13-4): whether it is performed now; an array out of `ACTIVE`
holds it and starts to leave its low voltage. -/
def State.wakeArray (s : State) (a : Nat) : Bool × State :=
  match s.retention a with
  | .active _ => (true, s.setRetention a (.active s.time))
  | .entering t _ => (false, s.setRetention a (.entering t true))
  | .retained => (false, s.setRetention a (.leaving (s.ticks + reencodeTicks a)))
  | .leaving _ => (false, s)

/-- Whether a vault line is pinned by a slot of a sequencer other than that of `team` (10 R205). -/
def State.pinned (s : State) (die line : Nat) (team : Option Nat) : Bool :=
  s.teams.any (fun t => t.die == die && some t.id != team && (match t.seq with
    | some q => (q.a ++ q.b).any (fun sl => sl.full && sl.pins.contains line)
    | none => false))

/-- Bytes of a die's vaults. -/
def State.vaultBytes (s : State) (die a n : Nat) : List Byte := Memory.bytes s.vault (die * 2 ^ 29 + a) n

/-- The phase bit of a barrier object (13 Table 13-5). -/
def State.phaseBit (s : State) (die a : Nat) : Bool := (Memory.byte s.vault (die * 2 ^ 29 + a + 0x18)).getLsbD 0

/-- The groups that wait on a barrier object test its phase bit again, after every write to it (13 R252). -/
def State.retestObjects (s : State) (die : Nat) : State :=
  s.groups.foldl (fun s g =>
    match g.wait with
    | .object a b ls pops =>
      if dieOfCore g.core == die && s.phaseBit die a != b then
        (s.popWaited g.id pops).modGroup g.id (fun g =>
          { (g.advanceAll ((lanesOf ls).filter (fun i => !(g.lane i).ended)) 8) with wait := .none })
      else s
    | _ => s) s

/-- Writes bytes of a die's vaults and lets waiting groups test their objects (13 R252). -/
def State.setVault (s : State) (die : Nat) (cells : List (Nat × Byte)) : State :=
  ({ s with vault := Memory.setCells s.vault (cells.map (fun (c : Nat × Byte) => (die * 2 ^ 29 + c.1, c.2))) }).retestObjects die

/-- Performs a write at a vault (17 R308): the bytes, the old value and the completion time. -/
def State.vaultPerform (s : State) (h : VHeld) : State :=
  let base := h.die * 2 ^ 29
  let shift := fun (o : WriteOp) => match o with
    | .store bs => WriteOp.store (bs.map (fun (c : Nat × Byte) => (c.1 + base, c.2)))
    | .atom a op ty v => .atom (a + base) op ty v
    | .cas a w c v => .cas (a + base) w c v
    | .dec a => .dec (a + base)
    | .add a e v => .add (a + base) e v
  let (bs, old) := (shift h.op).apply s.vault
  let s := ({ s with vault := Memory.setCells s.vault bs }).retestObjects h.die
  let s := s.complete h.gid s.time
  match h.gid with
  | some id => if h.op.isAtom then s.modGroup id (fun g => g.deliver h.lane h.serial [if h.status then 0 else old]) else s
  | none => match h.op with
    | .add _ _ _ => if h.serial == 0 then s else { s with added := s.added ++ [(h.serial, old == 0)] }
    | _ => s

/-- The array of a vault write. -/
def VHeld.array (h : VHeld) : Nat := arrayOf h.die h.op.addr

/-- Whether an array performs accesses now (13 Table 13-4). -/
def State.arrayActive (s : State) (a : Nat) : Bool :=
  match s.retention a with
  | .active _ => true
  | _ => false

/-- Whether a vault write cannot be performed: a slot of another sequencer pins its line, its array is out of `ACTIVE`, its
line is under test, a read came to that array before it, or a write to the line is held already (10 R205, 13 R248, 21 R388).
Of a read and a write that came in one cycle the read goes first (assumption log 103). -/
def State.vaultKept (s : State) (h : VHeld) : Bool :=
  s.pinned h.die (h.op.addr / 128) h.team || !s.arrayActive h.array || s.underTest 4 (h.die * 2 ^ 22 + h.op.addr / 128) ||
  s.arrivals.any (fun (x : Arrival) => x.array == h.array && x.tick ≤ h.sent) ||
  s.vheld.any (fun x => x.die == h.die && x.op.addr / 128 == h.op.addr / 128)

/-- A write to a vault: whether it is held, its array woken. -/
def State.vaultHolds (s : State) (h : VHeld) : Bool × State :=
  let (_, s) := s.wakeArray h.array
  (s.vaultKept { h with sent := s.ticks }, s)

/-- Holds a write to a vault back. -/
def State.holdWrite (s : State) (h : VHeld) : State := { s with vheld := s.vheld ++ [{ h with sent := s.ticks }] }

/-- A write to a vault by a party that is no sequencer of `team`: held, or performed (10 R205, 13 R248). -/
def State.vaultWrite (s : State) (h : VHeld) : State :=
  match s.vaultHolds h with
  | (true, s) => s.holdWrite h
  | (false, s) => s.vaultPerform h

/-- Held writes are performed, in the order held, once nothing keeps them (10 R205, 13 R248). -/
def State.releasePins (s : State) : State :=
  s.vheld.foldl (fun s h => if s.vaultKept h then { s with vheld := s.vheld ++ [h] } else s.vaultPerform h)
    { s with vheld := [] }

/-- A read that reaches a vault array (13 Table 13-4): whether it is performed now. One that finds its array out of `ACTIVE`
is held, and held accesses are performed in the order in which they came, as far as that tells: no write passes a read that
came before it, and no read a write. -/
def State.readArray (s : State) (a : Nat) (who : Reader) : Bool × State :=
  let here := s.arrivals.filter (fun x => x.array == a)
  let mine := here.find? (fun x => x.who == who)
  let t := (mine.map (·.tick)).getD s.ticks
  let before := s.vheld.any (fun h => h.array == a && h.sent < t && !s.pinned h.die (h.op.addr / 128) h.team)
  let (ok, s) := s.wakeArray a
  if ok && !before then (true, { s with arrivals := s.arrivals.filter (fun x => !(x.array == a && x.who == who)) })
  else (false, if mine.isSome then s else { s with arrivals := s.arrivals ++ [{ array := a, who := who, tick := s.ticks }] })

/-- Adds bytes to a barrier object for an engine (13 R251): none while the write is held, else whether the object took it.
`key` tells the engine's additions apart. -/
def State.addTo (s : State) (die obj : Nat) (err : Bool) (n key : Nat) : Option Bool × State :=
  let take := fun (s : State) => match s.added.find? (fun x => x.1 == key) with
    | some x => (some x.2, { s with added := s.added.filter (fun y => y.1 != key) })
    | none => (none, s)
  if s.vheld.any (fun h => h.serial == key) || s.added.any (fun x => x.1 == key) then take s
  else take (s.vaultWrite { die := die, serial := key, op := .add obj err n })

/-- `ObjOp` (13 R251); none where the object rejects it and stays unchanged. -/
def State.objOp (s : State) (die a : Nat) (k : ObjKind) (v : Nat) : Option State :=
  (objBytes (fun o n => leVal (s.vaultBytes die (a + o) n)) k v).map (fun bs =>
    s.setVault die ((List.range 32).map (fun i => (a + i, bs.getD i 0))))

/-- Whether a vault line takes no write of a group now: pinned, or with writes held before it (10 R205). -/
def State.lineKept (s : State) (die line : Nat) : Bool :=
  s.pinned die line none || s.vheld.any (fun x => x.die == die && x.op.addr / 128 == line)

/-! ### Local stores (11 R219 to R221) -/

/-- Whether the line of a local address is present (11 R220). -/
def Team.present (t : Team) (a : Nat) : Bool := Sparse.get 0 t.absent (a / 128) == 0

/-- Bytes of a team's local store. -/
def Team.lsBytesAt (t : Team) (a n : Nat) : List Byte := Memory.bytes t.ls a n

/-- Writes bytes of a team's local store. -/
def Team.setLs (t : Team) (a : Nat) (bs : List Byte) : Team := { t with ls := Memory.setBytes t.ls a bs }

/-- A fill of a local line begins (11 R220). -/
def Team.beginFill (t : Team) (line : Nat) : Team :=
  { t with absent := Sparse.put 0 t.absent line (Sparse.get 0 t.absent line + 1) }

/-- A fill of a local line has landed; when it was the last, the lanes parked on the line become runnable
(11 R220, R221). -/
def State.endFill (s : State) (team line : Nat) : State :=
  let n := Sparse.get 0 (s.team team).absent line
  let s := s.modTeam team (fun t => { t with absent := Sparse.put 0 t.absent line (n - 1) })
  if n ≤ 1 then
    { s with groups := s.groups.map (fun g =>
        if g.team == team then
          { g with lanes := g.lanes.map (fun l => if l.park == 2 && l.aux == line then { l with park := 0 } else l) }
        else g) }
  else s

/-! ### What a group still waits for -/

/-- Whether a write of a group at a global home is not performed yet: dirty in an L1, or queued at its home; so too one
whose completion time is to return to the group. -/
def State.unwritten (s : State) (gid : Nat) : Bool :=
  s.l1.any (fun l => l.ownedBy gid) ||
  s.homes.any (fun h => h.queue.any (fun w => w.gid == some gid || w.also.contains gid))

/-- Whether a write of a group is not performed yet, at a home or because a pin holds it back. -/
def State.unperformed (s : State) (gid : Nat) : Bool := s.unwritten gid || s.vheld.any (fun h => h.gid == some gid)

/-- Whether a write performs a store, an atomic or a `CWB` that a lane issued before a tick. -/
def HWrite.issuedBy (w : HWrite) (gid lane tick : Nat) : Bool :=
  let t := Sparse.get 0 w.lanes (gid * 32 + lane)
  (t != 0 && t ≤ tick) ||
  (w.lanes.isEmpty && w.gid == some gid && w.sent < tick && (if w.tx then inMask w.set lane else w.lane == lane))

/-- Whether a store, an atomic, a `CWB` or a `CINV` that a lane issued before a tick is not performed yet (18 R329). -/
def State.unperformedBefore (s : State) (gid lane tick : Nat) : Bool :=
  s.l1.any (fun l => Sparse.get 0 l.owners (gid * 32 + lane) != 0 && Sparse.get 0 l.owners (gid * 32 + lane) ≤ tick) ||
  s.homes.any (fun h => h.queue.any (fun w => w.issuedBy gid lane tick)) ||
  s.vheld.any (fun h => h.gid == some gid && h.lane == lane && h.sent < tick)

/-- Whether a lane of a group still awaits the old value of an atomic, or a vault access of the group is held back
(17 Table 17-4). -/
def State.unreturned (s : State) (gid : Nat) : Bool :=
  s.homes.any (fun h => h.queue.any (fun w => w.gid == some gid && w.op.isAtom)) || s.vheld.any (fun h => h.gid == some gid)

/-- Whether every store, atomic and write-back of a group has returned its completion time and the device
time has passed it (17 R316): the condition that `SPAWN`, `JOIN`, `MBAR` and the others wait for. -/
def State.drained (s : State) (gid : Nat) : Bool := !s.unperformed gid && (s.group gid).wctime ≤ s.time

/-- Whether an engine still owes a group a result: a copy, a row command or a splat (17 Table 17-4). -/
def State.engineOwes (s : State) (gid : Nat) : Bool :=
  s.copies.any (fun c => c.slices.any (fun x => x.gid == gid)) ||
  s.rows.any (fun r => r.port.isNone && r.gid == gid) ||
  s.splats.any (fun x => x.gid == some gid)

end Sys2Proof.Machine
end

