-- ==== Sys2Proof/Machine/Queues.lean ====
section
/-! DEFINITION. Queue registers (09 R190 to R194, 08 R160, 02 R32): the ports, the checks of a push or a pop,
blocking and waking. -/

namespace Sys2Proof.Machine

open Sys2Proof

/-- The queue of a team that is bound to a port. -/
def Team.bound? (t : Team) (port : Nat) : Option Nat :=
  (List.range 16).find? (fun q => (t.queue q).port == port)

/-- The check of a pop (`push` false) or a push of queue `q` by an instruction with marker `as` (09 R192,
08 R160): the binding first, then the direction. -/
def Team.queueCheck (t : Team) (q : Nat) (push as : Bool) : Option Trap :=
  let p := (t.queue q).port
  if p == 0 then some (.unbound q)
  else
    let ok := match p with
      | 1 => push == as
      | 2 => push != as
      | 4 => !push
      | 6 => !push
      | _ => push
    if ok then none else some (.illegal 0x0A)

/-- The checks that a port makes on a pushed entry (11 R231, 18 R330): a malformed texture request or row
command entry, or a record outside the allocation. -/
def Team.entryCheck (t : Team) (port : Nat) (v : W64) : Option Trap :=
  if port == 5 then
    if field v 63 48 ≠ 0 || 4 < field v 31 29 || 3 < field v 28 26 || field v 6 0 ≠ 0 then some (.illegal 0x11)
    else if t.lsBytes ≤ field v 17 0 then some (.protection (field v 17 0)) else none
  else if port == 7 then
    if 13 ≤ field v 5 0 || !canonical (field v 63 6 * 64) then some (.illegal 0x14) else none
  else none

/-- Puts popped entries of lanes that could not complete back at the head of their queue, in order. The lanes of `wait`
keep their turn before every other waiting lane; what they leave serves the next (09 R192). -/
def State.unpop (s : State) (team q gid : Nat) (back : List (Nat × W64)) (wait : List Nat) : State :=
  match (s.team team).queue q |>.port with
  | 1 => back.foldr (fun x s => s.modLane gid x.1 (fun l => { l with fwd := x.2 :: l.fwd, fwdBad := unpopBad l.fwdBad })) s
  | 2 => back.foldr (fun x s => s.modLane gid x.1 (fun l => { l with ret := x.2 :: l.ret, retBad := unpopBad l.retBad })) s
  | _ =>
    let mine := wait.map (fun i => (gid, i))
    let s := s.modTeam team (fun t => t.modQueue q (fun x =>
      { x with entries := back.map (fun b => { val := b.2 }) ++ x.entries
               waiters := mine ++ x.waiters.filter (fun w => !mine.contains w) }))
    s.wakeQueue team q false

/-- Whether a push by a lane need not hold the lane back: one to its own stream queue, which, where the queue is full, waits
behind the entries held and blocks that stream alone (08 R157, R160; assumption log 8); or one to the team's queue that has
room and on which nobody waits before it (09 R192). -/
def State.canPush (s : State) (team q gid lane : Nat) : Bool :=
  let tq := (s.team team).queue q
  isStream tq.port || tq.turn gid lane true

/-- A lane that waits to pop its own stream queue goes on with a push into it (08 R160). -/
def Lane.wakeStream (l : Lane) (q : Nat) : Lane := if l.park == 3 && l.aux == q then { l with park := 0 } else l

/-- A push by a lane that `canPush` admits (02 R32, 09 R190): into its own stream queue, or into the team's
queue. A texture request also begins the fill of its record line (11 R231). -/
def State.pushQueue (s : State) (team q gid lane : Nat) (v : W64) : State :=
  let tq := (s.team team).queue q
  match tq.port with
  | 1 => s.modLane gid lane (fun l => { l.wakeStream q with fwd := l.fwd ++ [v] })
  | 2 => s.modLane gid lane (fun l => { l.wakeStream q with ret := l.ret ++ [v] })
  | p =>
    let e : QEntry := { val := v, gid := gid, lane := lane, pc := s.cur.pc, pkt8 := (s.group gid).pkt8 }
    let s := s.modTeam team (fun t =>
      let t := t.modQueue q (fun x =>
        { x with entries := x.entries ++ [e], waiters := x.waiters.filter (fun w => w != (gid, lane)) })
      if p == 5 then t.beginFill (field v 17 7) else t)
    s.wakeQueue team q true

/-- A push by an engine into the queue of a result port (11 R232, 10 R210); none while the queue is full. -/
def State.enginePush (s : State) (team q : Nat) (v : W64) : Option State :=
  let tq := (s.team team).queue q
  if tq.room true == 0 then none
  else
    let s := s.modTeam team (fun t => t.modQueue q (fun x => { x with entries := x.entries ++ [{ val := v }] }))
    some (s.wakeQueue team q false)

/-- An engine takes the entry at the head of a queue; `wait` counts it as taken until its result is produced
(09 R194). -/
def State.engineTake (s : State) (team q : Nat) (counts : Bool) : Option (QEntry × State) :=
  let tq := (s.team team).queue q
  match tq.entries with
  | [] => none
  | e :: r =>
    let s := s.modTeam team (fun t => t.modQueue q (fun x =>
      { x with entries := r, taken := if counts then x.taken + 1 else x.taken }))
    some (e, s.wakeQueue team q true)

/-- An engine has produced the result of entries it took. -/
def State.engineDone (s : State) (team q : Nat) (n : Nat := 1) : State :=
  if n == 0 then s else s.modTeam team (fun t => t.modQueue q (fun x => { x with taken := x.taken - n }))

/-- The entries a lane sees of a queue and the free ones (09 R193): its own for a stream port. -/
def State.queueCounts (s : State) (team q gid lane : Nat) : Nat × Nat :=
  let tq := (s.team team).queue q
  let held := min (portDepth tq.port) (match tq.port with
    | 1 => ((s.group gid).lane lane).fwd.length
    | 2 => ((s.group gid).lane lane).ret.length
    | _ => tq.entries.length)
  (held, portDepth tq.port - held)

end Sys2Proof.Machine
end

