-- ==== Sys2Proof/Machine/Operands.lean ====
section
/-! DEFINITION. Operand forms (02 R30 to R35): reading the source fields, writing the destination field, and
the one way in which a lane instruction runs on the lanes of its issue. -/

namespace Sys2Proof.Machine

open Sys2Proof

/-- Whether the opcode's literal is sign-extended (03 Table 3-1, codes `Bs` and `Cs`). -/
def litSigned (op : Op) : Bool :=
  match op with
  | .iadd | .isub | .imul | .imulh | .imad | .idiv | .irem | .imin | .imax | .sel | .movi | .icmp => true
  | _ => false

/-- The literal as the opcode reads it (02 R33). -/
def litWord (op : Op) (lit : W32) : W64 := if litSigned op then lit.signExtend 64 else lit.setWidth 64

/-- A source field of a class, read from a group's registers: one register, a pair, a predicate, or the
field's own value. `popped` is the entry of a queue register (02 R30, R32). -/
def readField (c : Cls) (ext : Bool) (v : Nat) (g : Group) (i : Nat) (popped : W64) : W64 :=
  match c with
  | .g n _ _ =>
    if ext then (if v < 0x40 then (if n == 1 then (g.readK v).setWidth 32 |>.setWidth 64 else g.readK v)
      else if n == 1 then popped.setWidth 32 |>.setWidth 64 else popped)
    else if n == 1 then (g.readG i v).setWidth 64 else g.readG2 i v
  | .p _ => if g.readP i v then 1 else 0
  | _ => w64 v

/-- Source A. -/
def srcA (op : Op) (f : Full) (g : Group) (i : Nat) (popped : W64) : W64 :=
  let sh := op.shape f
  readField sh.sa (!sh.nform && f.xa) f.sa.toNat g i popped

/-- Source B: the register, or the literal that replaces it (02 R33). -/
def srcB (op : Op) (f : Full) (g : Group) (i : Nat) : W64 :=
  let sh := op.shape f
  match f.lit with
  | some l => if sh.lit = .b then litWord op l else readField sh.sb false f.sb.toNat g i 0
  | none => readField sh.sb false f.sb.toNat g i 0

/-- Source C: the register, or the literal that replaces it (02 R33). -/
def srcC (op : Op) (f : Full) (g : Group) (i : Nat) : W64 :=
  let sh := op.shape f
  match f.lit with
  | some l => if sh.lit = .c then litWord op l else readField sh.sc false f.sc.toNat g i 0
  | none => readField sh.sc false f.sc.toNat g i 0

/-- The cells that a destination field names (02 R30, R32), in the order of the values a meaning gives them. -/
def destCells (c : Cls) (ext : Bool) (v : Nat) : List RCell :=
  match c with
  | .g n _ _ =>
    if ext then (if v < 0x40 then [.k v] else [.q (v - 0x40)])
    else (List.range n).map (fun j => .g (v + j))
  | .p _ => [.p v]
  | .w n _ => (List.range (n * 8)).map (fun j => .w (v + j / 8) (j % 8))
  | _ => []

/-- The destination cells of an instruction. `ATOM.CAS` writes the old value alone: register d, or the pair
d:d+1 (07 R133). -/
def dest (op : Op) (f : Full) : List RCell :=
  let sh := op.shape f
  if !sh.dw then []
  else if op = .atomCas && !f.xd then
    (if f.fam % 2 == 0 then [.g f.dst.toNat] else [.g f.dst.toNat, .g (f.dst.toNat + 1)])
  else destCells sh.dst (!sh.nform && f.xd) f.dst.toNat

/-- The values of the destination cells. A 64-bit result is one value for a `k` register or a queue and two
halves for a pair (00 R7); a 32-bit result zeroes the upper half of a `k` register (02 R32). -/
def destVals (cells : List RCell) (vals : List W64) : List (RCell × W64) :=
  match cells, vals with
  | [.g r, .g r'], [v] => [(.g r, v.setWidth 32 |>.setWidth 64), (.g r', v >>> 32)]
  | cs, vs => cs.zip vs

/-- The queue that the destination field names, if it names one. -/
def destQueue (op : Op) (f : Full) : Option Nat :=
  match destCells (op.shape f).dst (!(op.shape f).nform && f.xd) f.dst.toNat with
  | [.q n] => some n
  | _ => none

/-- The queue that an instruction pops: the one `SA` names, or the one that the data field of a scalar store
names (02 R32, 03 R52). -/
def popQueueOf (op : Op) (f : Full) : Option Nat :=
  if f.popsQueue op then some (f.sa.toNat - 0x40)
  else if (op.shape f).dw then none else destQueue op f

/-- What an instruction does on one lane. -/
inductive LaneStep where
  /-- It completes: the state after its other effects, the destination's values, the flags raised. -/
  | res (s : State) (vals : List W64) (fl : FlagSet)
  /-- It completes, and an engine or a home owes the destination its values under a serial number. -/
  | owe (s : State) (serial : Nat)
  /-- It traps on this lane. -/
  | trap (t : Trap)
  /-- It traps on this lane, and the state has changed beside it. -/
  | trapIn (t : Trap) (s : State)
  /-- It completes with a program counter of its own: a transfer of control, or the lane has ended. -/
  | gone (s : State)
  /-- It does not complete: the lane is parked or must wait, or its transaction was aborted. -/
  | stay (s : State)

/-- Writes the destination of a completed lane: at once, or as a pending result for a lookahead window
(02 R35). A queue destination is pushed. -/
def State.writeDest (s : State) (gid i : Nat) (op : Op) (f : Full) (vals : List W64) : State :=
  let cells := destVals (dest op f) vals
  match cells with
  | [] => s
  | [(.q q, v)] => s.pushQueue (s.group gid).team q gid i v
  | _ =>
    let s := s.modLane gid i (fun l => l.dropCells (cells.map (·.1)))
    if f.la == 0 || !f.isLong op then
      s.modGroup gid (fun g => cells.foldl (fun g c => g.writeNow i c.1 c.2 s.serial) g)
    else
      let (n, s) := s.fresh
      let pend : Pend := { serial := n, window := f.la.toNat + 1, cells := cells.map (fun c => (c.1, some c.2)),
                           tick := s.ticks, pc := s.cur.pc }
      s.modLane gid i (fun l => { l with pend := l.pend ++ [pend] })

/-- Records a destination whose values are owed (02 R35). -/
def State.oweDest (s : State) (gid i : Nat) (op : Op) (f : Full) (serial : Nat) : State :=
  let cells := dest op f
  let s := s.modLane gid i (fun l => l.dropCells cells)
  let pend : Pend := { serial := serial, window := f.la.toNat + 1, cells := cells.map (fun c => (c, none)), tick := s.ticks,
                       pc := s.cur.pc, atom := if op = .atom ∨ op = .atomCas then some f.as else none,
                       high := match cells with
                         | [.g _, .g h] => some h
                         | _ => none }
  s.modLane gid i (fun l => { l with pend := l.pend ++ [pend] })

/-- What has happened so far in one issue: the state, the lanes that completed, those that trapped, those that put back
what they popped, and the lane set of the transaction that was open at the issue. `full` are the lanes whose push finds
no room; which they are is settled before the first push (06 R97). -/
structure Run where
  s     : State
  done  : List Nat := []
  traps : List (Nat × Trap) := []
  back  : List (Nat × W64) := []
  set   : W32 := 0
  full  : List Nat := []

/-- The lanes on which the current issue of an instruction takes effect (02 R34). -/
def State.enabledFor (s : State) (f : Full) : List Nat :=
  (s.group s.cur.gid).enabled s.cur.lanes f.gp.toNat f.gn

/-- The lane set of a group's open transaction, 0 for none. -/
def Group.txSet (g : Group) : W32 :=
  match g.tx with
  | some t => t.lanes
  | none => 0

/-- Whether a group holds no transaction, or one that another party has aborted. -/
def Group.txGone (g : Group) : Bool :=
  match g.tx with
  | some t => t.dead.isSome
  | none => true

/-- Whether a lane belonged to a transaction that this issue has aborted: it has resumed after its `TXBEGIN`
(07 R143). -/
def Run.aborted (r : Run) (i : Nat) : Bool := inMask r.set i && (r.s.group r.s.cur.gid).txGone

/-- The end of an issue: the completed lanes and those whose guard is false advance; the others keep their
program counters; a trap is taken (01 R23). -/
def Run.close (r : Run) (disabled : List Nat) : State :=
  let c := r.s.cur
  let go := laneIds.filter (fun i => (r.done.contains i || disabled.contains i) && !r.aborted i)
  let s := r.s.modGroup c.gid (fun g => g.advanceAll go c.size)
  s.takeTrap c.gid c.pc c.words r.traps

/-- The values that the lanes of an issue popped from the source queue (02 R32). -/
def poppedBy (l : List (Nat × W64)) (i : Nat) : W64 := ((l.find? (fun x => x.1 == i)).map (·.2)).getD 0

/-- The local-store line of the record that a value pushed to `TEX.REQ` names, when it is absent (11 R231). -/
def State.absentRecord (s : State) (op : Op) (f : Full) (g : Group) (v : W64) : Option Nat :=
  match destQueue op f with
  | some q =>
    let t := s.team g.team
    if (op.shape f).dw && (t.queue q).port == 5 && !t.present (field v 17 0) then some (field v 17 7) else none
  | none => none

/-- A lane of the current issue whose instruction could not issue: it still stands at it and waits for nothing that wakes
it, so that it was not ready (08 R152). -/
def State.stayed (s : State) (i : Nat) : State :=
  if (s.group s.cur.gid).wait != .none then s
  else s.modLane s.cur.gid i (fun l =>
    if l.pc == s.cur.pc && l.park == 0 && l.wait == .none && !l.ended then { l with tried := .stayed, stuck := true } else l)

/-- The trap of a stream-queue entry that holds an uncorrectable error (08 R166). -/
def streamError : Trap := { cause := 0x04, detail := 0x05 }

/-- The enabled lanes that would pop an entry with an uncorrectable error from their own stream queue (08 R166). -/
def State.badPops (s : State) (op : Op) (f : Full) : List Nat :=
  let g := s.group s.cur.gid
  let bad := fun (port : Nat) (l : Lane) => match port with
    | 1 => l.fwdBad.contains 0
    | 2 => l.retBad.contains 0
    | _ => false
  match popQueueOf op f with
  | none => []
  | some q => (s.enabledFor f).filter (fun i => bad ((s.team g.team).queue q).port (g.lane i))

/-- One lane of an issue, after its source queue was popped. A memory fault of a lane of a transaction aborts
it and is no trap (07 R142). A request whose record line is absent parks the lane that pushes it (11 R231). In a cross-lane
instruction that lane's value has been counted by then (assumption log 81). -/
def Run.lane (r : Run) (op : Op) (f : Full) (g : Group) (got : List (Nat × W64))
    (body : State → Group → List (Nat × W64) → Nat → LaneStep) (i : Nat) : Run :=
  let gid := r.s.cur.gid
  let l := (r.s.group gid).lane i
  let mine := [(i, poppedBy got i)]
  if l.ended || r.aborted i then r
  else
    if r.full.contains i then
      { r with s := r.s.parkOnQueue g.team ((destQueue op f).getD 0) gid i, back := r.back ++ mine }
    else
      let fault := fun (t : Trap) (s : State) =>
        if t.isMem && g.inTx i then { r with s := s.txAbort gid 4 0, back := r.back ++ mine }
        else { r with s := s, traps := r.traps ++ [(i, t)], back := r.back ++ mine }
      match body r.s g got i with
      | .res s vals fl =>
        match r.s.absentRecord op f g (vals.headD 0) with
        | some line => { r with s := r.s.modLane gid i (fun l => { l with park := 2, aux := line }), back := r.back ++ mine }
        | none => { r with s := (s.writeDest gid i op f vals).modLane gid i (fun l => l.raise fl), done := r.done ++ [i] }
      | .owe s n => { r with s := s.oweDest gid i op f n, done := r.done ++ [i] }
      | .trap t => fault t r.s
      | .trapIn t s => fault t s
      | .gone s => { r with s := s }
      | .stay s => { r with s := s.stayed i, back := r.back ++ mine }

/-- The entry check of a value that is about to be pushed to a port (11 R231, 18 R330). -/
def State.pushTrap (s : State) (op : Op) (f : Full) (g : Group) (v : W64) : Option Trap :=
  match destQueue op f with
  | some q => (s.team g.team).entryCheck ((s.team g.team).queue q).port v
  | none => none

/-- The source queue and the destination queue are checked first (09 R192): the trap of every enabled lane. -/
def State.queueTraps (s : State) (op : Op) (f : Full) : Option Trap :=
  let g := s.group s.cur.gid
  let t := s.team g.team
  let a := if f.popsQueue op then t.queueCheck (f.sa.toNat - 0x40) false f.as else none
  match a with
  | some x => some x
  | none => match destQueue op f with
    | some q => t.queueCheck q (op.shape f).dw f.as
    | none => none

/-- The instructions that a lane of a transaction may not execute (07 R142 item 7): stores and atomics to the
local and vault spaces, the engines' and the synchronising instructions named there, and queue pushes. -/
def unsafeInTx (op : Op) (f : Full) : Bool :=
  ((destQueue op f).isSome && (op.shape f).dw) ||
  match op with
  | .stL | .stV | .tcopy | .tcopy2d | .rowCopy | .rowFill | .rowAnd | .rowOr | .rowXor | .rowNot | .rowMaj | .rowAllb
  | .rowBcst | .rowMac | .rowSadd | .rowRdacc | .rowProg | .rowWait | .fsplatW | .cwb | .cinv | .fence | .barTeam
  | .barNum | .barTree | .bobjInit | .bobjExpect | .bobjWait | .mbar | .fwcall | .spawn | .cont | .join | .exit => true
  | .stv | .stw | .tst | .atom | .atomCas => f.spc != 0
  | _ => false

/-- Whether an issue aborts its group's transaction with `UNSAFE_OP`: an enabled lane of the lane set executes
a forbidden instruction (07 R142). The instruction then has no effect on any lane (assumption log 9). -/
def State.unsafeIssue (s : State) (op : Op) (f : Full) : Bool :=
  unsafeInTx op f && (s.enabledFor f).any (fun i => (s.group s.cur.gid).inTx i)

/-- The lanes that can push now, of lanes that push in ascending order (09 R192). -/
def State.admitted (s : State) (op : Op) (f : Full) (g : Group) (ls : List Nat) : List Nat :=
  match destQueue op f with
  | none => ls
  | some q =>
    let tq := (s.team g.team).queue q
    if !(op.shape f).dw then ls
    else if isStream tq.port then ls
    else if tq.waiters.isEmpty then ls.take (tq.room true)
    else
      let order := tq.waiters.map (·.2)
      ((tq.waiters.zip ls).takeWhile (fun x => x.1 == (g.id, x.2))).map (·.2) |>.take (tq.room true)
        |>.filter (fun i => order.contains i)

/-- The end of an issue's queue operations: lanes that could not complete put back what they popped, those of them that
wait keep their turn, and the lanes that the queues can now serve are woken (09 R192). -/
def Run.queues (r : Run) (op : Op) (f : Full) (g : Group) : State :=
  let s := match popQueueOf op f with
    | some q => if r.back.isEmpty then r.s
      else r.s.unpop g.team q g.id r.back (r.back.map (·.1) |>.filter (fun i => !r.traps.any (fun x => x.1 == i)))
    | none => r.s
  match destQueue op f with
  | some q => if (op.shape f).dw then s.wakeQueue g.team q true else s
  | none => s

/-- Runs a lane instruction on its issue (02 R34, R54, 09 R192): the transaction check, the queue checks, the lanes that
would pop an entry with an error, then every other pop in ascending lane order, then each lane that popped in ascending order, on the registers as they
stood before the issue. `body` gets the lanes that go on with what they popped. -/
def laneExec (op : Op) (f : Full) (s : State) (body : State → Group → List (Nat × W64) → Nat → LaneStep) : State :=
  let gid := s.cur.gid
  match s.group? gid with
  | none => s
  | some g =>
    let en := s.enabledFor f
    let dis := (lanesOf s.cur.lanes).filter (fun i => !en.contains i)
    if s.unsafeIssue op f then s.txAbort gid 7 0
    else match s.queueTraps op f with
    | some t => Run.close { s := s, traps := en.map (fun i => (i, t)) } dis
    | none =>
      let bad := s.badPops op f
      let (got, s) := match popQueueOf op f with
        | some q => s.popAll g.team q gid (en.filter (fun i => !bad.contains i))
        | none => (en.map (fun i => (i, 0)), s)
      let ls := got.map (·.1)
      let ok := s.admitted op f g ls
      let body' := fun s g _ i => body s g (got.filter (fun x => ok.contains x.1)) i
      let r := ls.foldl (fun (r : Run) i => r.lane op f g got body' i)
        { s := s, set := g.txSet, full := ls.filter (fun i => !ok.contains i), traps := bad.map (fun i => (i, streamError)) }
      Run.close { r with s := r.queues op f g } dis

/-- The value an instruction pushes passes the port's entry check, or the lane traps. -/
def finishAlu (s : State) (op : Op) (f : Full) (g : Group) (vals : List W64) (fl : FlagSet) : LaneStep :=
  match s.pushTrap op f g (vals.headD 0) with
  | some t => .trap t
  | none => .res s vals fl

/-- An instruction whose result on each lane is a function of its sources: `fn` gets the group before the
issue, the lane and sources A, B and C, and gives the destination's values and the flags raised. -/
def aluExec (op : Op) (f : Full) (s : State) (fn : Group → Nat → W64 → W64 → W64 → List W64 × FlagSet) : State :=
  laneExec op f s (fun s g got i =>
    let (vals, fl) := fn g i (srcA op f g i (poppedBy got i)) (srcB op f g i) (srcC op f g i)
    finishAlu s op f g vals fl)

/-- A cross-lane instruction (06 R96, R97): `fn` gets the participating lanes in ascending order, each lane's
source A, and a lane with its source B; every source is read before any destination is written. A lane whose pop or
push blocks does not participate in this issue (assumption log 81). -/
def crossExec (op : Op) (f : Full) (s : State) (fn : Group → List Nat → (Nat → W64) → Nat → W64 → List W64 × FlagSet) :
    State :=
  laneExec op f s (fun s g got i =>
    let (vals, fl) := fn g (got.map (·.1)) (fun j => srcA op f g j (poppedBy got j)) i (srcB op f g i)
    finishAlu s op f g vals fl)

/-- The effective address of a memory operand on a lane, modulo 2^64 (07 R122). -/
def effAddr (f : Full) (g : Group) (i : Nat) : Nat :=
  let b := if f.bk then g.readK f.sa.toNat else g.readG2 i f.sa.toNat
  let x := if f.idx then (g.readG i f.sb.toNat).signExtend 64 <<< f.scale else 0
  let d := match f.lit with
    | some l => l.signExtend 64
    | none => if f.idx then 0 else f.sb.signExtend 64
  (b + x + d).toNat

/-- What an instruction answers. -/
abbrev Result := Host.Outcome State Fault Refusal

/-- What an instruction computes on a lane from sources A, B and C: the destination's values and the flags. -/
abbrev LaneFn := Group → Nat → W64 → W64 → W64 → List W64 × FlagSet

/-- The environment an instruction of the current issue rounds with (01 R21, 03 R52). -/
def State.envFor (s : State) (f : Full) : FpEnv := (s.fpEnv (s.group s.cur.gid)).withFam f.fam

end Sys2Proof.Machine
end

