-- ==== Sys2Proof/Machine/Int.lean ====
section
/-! DEFINITION. Integer, logic, move, compare and predicate instructions (05 R74 to R83). -/

namespace Sys2Proof.Machine

open Sys2Proof

/-- `ReadInt` (05 R75): the low bits of a source as type code `t` reads them. -/
def readInt (t : Nat) (v : W64) : Int :=
  let w := tyWidth t
  if t % 2 == 0 then signed w v.toNat else (v.toNat % 2 ^ w : Nat)

/-- `MinOf` (05 R75). -/
def minOf (t : Nat) : Int := if t % 2 == 0 then -(2 ^ (tyWidth t - 1) : Int) else 0
/-- `MaxOf` (05 R75). -/
def maxOfTy (t : Nat) : Int := if t % 2 == 0 then (2 ^ (tyWidth t - 1) : Int) - 1 else (2 ^ tyWidth t : Int) - 1

/-- `WrapTo` (05 R75). -/
def wrapTo (t : Nat) (v : Int) : Int :=
  if t % 2 == 0 then signed (tyWidth t) (wrapNat (tyWidth t) v) else wrapNat (tyWidth t) v

/-- `Clamp` (05 R75). -/
def clamp (v lo hi : Int) : Int := if v < lo then lo else if hi < v then hi else v

/-- `WriteInt` (05 R75, 04 R59): a value of the type's range in the full register or the pair. -/
def writeInt (t : Nat) (v : Int) : W64 := w64 (wrapNat (if tyWidth t == 64 then 64 else 32) v)

/-- The value of an integer operation fitted to its type: clamped under `SAT`, else wrapped (05 R76). -/
def fitInt (f : Full) (v : Int) : Int :=
  let t := f.fam % 8
  if 8 ≤ f.fam then clamp v (minOf t) (maxOfTy t) else wrapTo t v

/-- An instruction of 05 Table 5-3 from its value on exact integers. -/
def intFn (f : Full) (v : Int → Int → Int) : LaneFn := fun _ _ a b _ =>
  let t := f.fam % 8
  ([writeInt t (fitInt f (v (readInt t a) (readInt t b)))], 0)

/-- The upper half of a product (05 Table 5-3). -/
def mulHigh (f : Full) (a b : Int) : Int := (a * b).fdiv (2 ^ tyWidth (f.fam % 8) : Nat)

/-- `IDIV` and `IREM` (05 R77): quotient and remainder. -/
def divRem (t : Nat) (a b : Int) : Int × Int :=
  if b == 0 then (wrapTo t (-1), a)
  else if t % 2 == 0 && a == minOf t && b == -1 then (a, 0)
  else (a.tdiv b, a - a.tdiv b * b)

/-- `IMAD` (05 R78). -/
def madFn (f : Full) : LaneFn := fun _ _ a b c =>
  let t := f.fam % 8
  ([writeInt t (wrapTo t (readInt t a * readInt t b + readInt t c))], 0)

/-- `IMADW` (05 R78): the factors are 32 bits wide, the addend and the sum 64. -/
def madwFn (f : Full) : LaneFn := fun _ _ a b c =>
  let t := f.fam % 8
  ([w64 (wrapNat 64 (readInt t a * readInt t b + readInt (t + 2) c))], 0)

/-- The width of a shift, logic or bit-count instruction (05 R79). -/
def opWidth (f : Full) : Nat := tyWidth (f.fam % 8)

/-- The low `w` bits of a source. -/
def lowBits (w : Nat) (v : W64) : Nat := v.toNat % 2 ^ w

/-- A shift, from its value on the operand's `w` bits and the count's 32 bits (05 R79). -/
def shiftFn (f : Full) (v : Nat → Nat → Nat → Nat) : LaneFn := fun _ _ a b _ =>
  let w := opWidth f
  ([w64 (v w (lowBits w a) (lowBits 32 b))], 0)

/-- `SHL` (05 Table 5-4). -/
def shlVal (w a n : Nat) : Nat := if w ≤ n then 0 else a * 2 ^ n % 2 ^ w
/-- `SHR` (05 Table 5-4). -/
def shrVal (w a n : Nat) : Nat := if w ≤ n then 0 else a / 2 ^ n
/-- `SAR` (05 Table 5-4). -/
def sarVal (w a n : Nat) : Nat :=
  let s := signed w a
  if w ≤ n then (if s < 0 then 2 ^ w - 1 else 0) else wrapNat w (s.fdiv (2 ^ n : Nat))
/-- `ROL` (05 Table 5-4). -/
def rolVal (w a n : Nat) : Nat :=
  let k := n % w
  a * 2 ^ k % 2 ^ w + a / 2 ^ (w - k)

/-- A bitwise instruction (05 Table 5-4). -/
def logicFn (f : Full) (v : W64 → W64 → W64) : LaneFn := fun _ _ a b _ =>
  ([w64 (lowBits (opWidth f) (v a b))], 0)

/-- `CLZ` (05 Table 5-4). -/
def clzVal (w a : Nat) : Nat := w - bitLen a
/-- The number of one bits below `w`. -/
def popcVal (w a : Nat) : Nat := ((List.range w).filter (fun i => a.testBit i)).length
/-- `BREV` (05 Table 5-4). -/
def brevVal (w a : Nat) : Nat := (List.range w).foldl (fun r i => if a.testBit i then r + 2 ^ (w - 1 - i) else r) 0

/-- `MOVI` (05 R80): the immediate of the F64 form is signed in eight bits. -/
def moviVal (f : Full) (b : W64) : W64 :=
  let v := match f.lit with
    | some _ => b
    | none => (b.setWidth 8).signExtend 64
  w64 (lowBits (opWidth f) v)

/-- The truth of an `ICMP` (05 R82). -/
def icmpVal (f : Full) (a b : W64) : Bool :=
  let t := f.fam % 4
  let x := readInt t a
  let y := readInt t b
  match f.fam / 4 with
  | 0 => x == y
  | 1 => x != y
  | 2 => x < y
  | _ => y ≤ x

/-- A predicate result. -/
def predFn (v : W64 → W64 → Bool) : LaneFn := fun _ _ a b _ => ([if v a b then 1 else 0], 0)

/-- `IADD` (05 R76). -/
def execIadd (f : Full) (s : State) : Result := .next (aluExec .iadd f s (intFn f (fun a b => a + b)))

/-- `IADD` in its compact form (02 R37, 05 R76). -/
def execIaddC32 (x : Comp) (s : State) : Result := .next (aluExec .iadd x.expand s (intFn x.expand (fun a b => a + b)))

/-- `ISUB` (05 R76). -/
def execIsub (f : Full) (s : State) : Result := .next (aluExec .isub f s (intFn f (fun a b => a - b)))

/-- `ISUB` in its compact form (02 R37, 05 R76). -/
def execIsubC32 (x : Comp) (s : State) : Result := .next (aluExec .isub x.expand s (intFn x.expand (fun a b => a - b)))

/-- `IMUL` (05 R76). -/
def execImul (f : Full) (s : State) : Result := .next (aluExec .imul f s (intFn f (fun a b => a * b)))

/-- `IMUL` in its compact form (02 R37, 05 R76). -/
def execImulC32 (x : Comp) (s : State) : Result := .next (aluExec .imul x.expand s (intFn x.expand (fun a b => a * b)))

/-- `IMULH` (05 R76). -/
def execImulh (f : Full) (s : State) : Result := .next (aluExec .imulh f s (intFn f (mulHigh f)))

/-- `IMAD` (05 R78). -/
def execImad (f : Full) (s : State) : Result := .next (aluExec .imad f s (madFn f))

/-- `IMADW` (05 R78). -/
def execImadw (f : Full) (s : State) : Result := .next (aluExec .imadw f s (madwFn f))

/-- `IDIV` (05 R77). -/
def execIdiv (f : Full) (s : State) : Result := .next (aluExec .idiv f s (intFn f (fun a b => (divRem (f.fam % 8) a b).1)))

/-- `IREM` (05 R77). -/
def execIrem (f : Full) (s : State) : Result := .next (aluExec .irem f s (intFn f (fun a b => (divRem (f.fam % 8) a b).2)))

/-- `IMIN` (05 R76). -/
def execImin (f : Full) (s : State) : Result := .next (aluExec .imin f s (intFn f (fun a b => if b < a then b else a)))

/-- `IMIN` in its compact form (02 R37, 05 R76). -/
def execIminC32 (x : Comp) (s : State) : Result := .next (aluExec .imin x.expand s (intFn x.expand (fun a b => if b < a then b else a)))

/-- `IMAX` (05 R76). -/
def execImax (f : Full) (s : State) : Result := .next (aluExec .imax f s (intFn f (fun a b => if a < b then b else a)))

/-- `IMAX` in its compact form (02 R37, 05 R76). -/
def execImaxC32 (x : Comp) (s : State) : Result := .next (aluExec .imax x.expand s (intFn x.expand (fun a b => if a < b then b else a)))

/-- `IABS` (05 R76). -/
def execIabs (f : Full) (s : State) : Result := .next (aluExec .iabs f s (intFn f (fun a _ => if a < 0 then -a else a)))

/-- `INEG` (05 R76). -/
def execIneg (f : Full) (s : State) : Result := .next (aluExec .ineg f s (intFn f (fun a _ => -a)))

/-- `SHL` (05 R79). -/
def execShl (f : Full) (s : State) : Result := .next (aluExec .shl f s (shiftFn f shlVal))

/-- `SHL` in its compact form (02 R37, 05 R79). -/
def execShlC32 (x : Comp) (s : State) : Result := .next (aluExec .shl x.expand s (shiftFn x.expand shlVal))

/-- `SHR` (05 R79). -/
def execShr (f : Full) (s : State) : Result := .next (aluExec .shr f s (shiftFn f shrVal))

/-- `SHR` in its compact form (02 R37, 05 R79). -/
def execShrC32 (x : Comp) (s : State) : Result := .next (aluExec .shr x.expand s (shiftFn x.expand shrVal))

/-- `SAR` (05 R79). -/
def execSar (f : Full) (s : State) : Result := .next (aluExec .sar f s (shiftFn f sarVal))

/-- `SAR` in its compact form (02 R37, 05 R79). -/
def execSarC32 (x : Comp) (s : State) : Result := .next (aluExec .sar x.expand s (shiftFn x.expand sarVal))

/-- `ROL` (05 R79). -/
def execRol (f : Full) (s : State) : Result := .next (aluExec .rol f s (shiftFn f rolVal))

/-- `ROL` in its compact form (02 R37, 05 R79). -/
def execRolC32 (x : Comp) (s : State) : Result := .next (aluExec .rol x.expand s (shiftFn x.expand rolVal))

/-- `AND` (05 R79). -/
def execAnd (f : Full) (s : State) : Result := .next (aluExec .and f s (logicFn f (fun a b => a &&& b)))

/-- `AND` in its compact form (02 R37, 05 R79). -/
def execAndC32 (x : Comp) (s : State) : Result := .next (aluExec .and x.expand s (logicFn x.expand (fun a b => a &&& b)))

/-- `OR` (05 R79). -/
def execOr (f : Full) (s : State) : Result := .next (aluExec .or f s (logicFn f (fun a b => a ||| b)))

/-- `OR` in its compact form (02 R37, 05 R79). -/
def execOrC32 (x : Comp) (s : State) : Result := .next (aluExec .or x.expand s (logicFn x.expand (fun a b => a ||| b)))

/-- `XOR` (05 R79). -/
def execXor (f : Full) (s : State) : Result := .next (aluExec .xor f s (logicFn f (fun a b => a ^^^ b)))

/-- `XOR` in its compact form (02 R37, 05 R79). -/
def execXorC32 (x : Comp) (s : State) : Result := .next (aluExec .xor x.expand s (logicFn x.expand (fun a b => a ^^^ b)))

/-- `ANDN` (05 R79). -/
def execAndn (f : Full) (s : State) : Result := .next (aluExec .andn f s (logicFn f (fun a b => a &&& ~~~b)))

/-- `ANDN` in its compact form (02 R37, 05 R79). -/
def execAndnC32 (x : Comp) (s : State) : Result := .next (aluExec .andn x.expand s (logicFn x.expand (fun a b => a &&& ~~~b)))

/-- `NOT` (05 R79). -/
def execNot (f : Full) (s : State) : Result := .next (aluExec .not f s (logicFn f (fun a _ => ~~~a)))

/-- `LEA` (05 R81, 07 R122). -/
def execLea (f : Full) (s : State) : Result := .next (aluExec .lea f s (fun g i _ _ _ => ([w64 (effAddr f g i)], 0)))

/-- `SEL` (05 R80). -/
def execSel (f : Full) (s : State) : Result := .next (aluExec .sel f s (fun _ _ a b c => ([w64 (lowBits (opWidth f) (if c != 0 then a else b))], 0)))

/-- `MOV` (05 R80). -/
def execMov (f : Full) (s : State) : Result := .next (aluExec .mov f s (fun _ _ a _ _ => ([a], 0)))

/-- `MOVI` (05 R80). -/
def execMovi (f : Full) (s : State) : Result := .next (aluExec .movi f s (fun _ _ _ b _ => ([moviVal f b], 0)))

/-- `CLZ` (05 R79). -/
def execClz (f : Full) (s : State) : Result := .next (aluExec .clz f s (fun _ _ a _ _ => ([w64 (clzVal (opWidth f) (lowBits (opWidth f) a))], 0)))

/-- `POPC` (05 R79). -/
def execPopc (f : Full) (s : State) : Result := .next (aluExec .popc f s (fun _ _ a _ _ => ([w64 (popcVal (opWidth f) (lowBits (opWidth f) a))], 0)))

/-- `BREV` (05 R79). -/
def execBrev (f : Full) (s : State) : Result := .next (aluExec .brev f s (fun _ _ a _ _ => ([w64 (brevVal (opWidth f) (lowBits (opWidth f) a))], 0)))

/-- `ICMP` (05 R82). -/
def execIcmp (f : Full) (s : State) : Result := .next (aluExec .icmp f s (predFn (icmpVal f)))

/-- `PSET` (05 R83). -/
def execPset (f : Full) (s : State) : Result := .next (aluExec .pset f s (predFn (fun _ b => b != 0)))

/-- `PAND` (05 R83). -/
def execPand (f : Full) (s : State) : Result := .next (aluExec .pand f s (predFn (fun a b => a != 0 && b != 0)))

/-- `PAND` in its compact form (02 R37, 05 R83). -/
def execPandC32 (x : Comp) (s : State) : Result := .next (aluExec .pand x.expand s (predFn (fun a b => a != 0 && b != 0)))

/-- `POR` (05 R83). -/
def execPor (f : Full) (s : State) : Result := .next (aluExec .por f s (predFn (fun a b => a != 0 || b != 0)))

/-- `POR` in its compact form (02 R37, 05 R83). -/
def execPorC32 (x : Comp) (s : State) : Result := .next (aluExec .por x.expand s (predFn (fun a b => a != 0 || b != 0)))

/-- `PXOR` (05 R83). -/
def execPxor (f : Full) (s : State) : Result := .next (aluExec .pxor f s (predFn (fun a b => (a != 0) != (b != 0))))

/-- `PXOR` in its compact form (02 R37, 05 R83). -/
def execPxorC32 (x : Comp) (s : State) : Result := .next (aluExec .pxor x.expand s (predFn (fun a b => (a != 0) != (b != 0))))

/-- `PNOT` (05 R83). -/
def execPnot (f : Full) (s : State) : Result := .next (aluExec .pnot f s (predFn (fun a _ => a == 0)))

/-- `PMOV` (05 R83). -/
def execPmov (f : Full) (s : State) : Result := .next (aluExec .pmov f s (predFn (fun a _ => a != 0)))

end Sys2Proof.Machine
end

