-- ==== Sys2Proof/Machine/Float.lean ====
section
/-! DEFINITION. Scalar and packed floating point without the transcendentals (05 R84 to R89, R92, R93). -/

namespace Sys2Proof.Machine

open Sys2Proof

/-- An F32 instruction of two operands. -/
def f32Fn (op : Nat → Nat → Nat × FlagSet) : LaneFn := fun _ _ a b _ =>
  let (r, fl) := op (lowBits 32 a) (lowBits 32 b)
  ([w64 r], fl)

/-- An F32 instruction of three operands. -/
def f32Fn3 (op : Nat → Nat → Nat → Nat × FlagSet) : LaneFn := fun _ _ a b c =>
  let (r, fl) := op (lowBits 32 a) (lowBits 32 b) (lowBits 32 c)
  ([w64 r], fl)

/-- An F32 encoding after the `FTZ` flush of an operand (04 R62). -/
def flush32 (ftz : Bool) (a : Nat) : Nat :=
  if ftz && a / 2 ^ 23 % 256 == 0 then a / 2 ^ 31 % 2 * 2 ^ 31 else a

/-- `FMIN` (`max` false) and `FMAX` (05 R86): −0 is below +0. -/
def minMax32 (env : FpEnv) (max : Bool) (a b : Nat) : Nat × FlagSet :=
  let a := flush32 env.ftz a
  let b := flush32 env.ftz b
  let va := Val.ofBits .f32 env.ftz a
  let vb := Val.ofBits .f32 env.ftz b
  let fl := va.sig ||| vb.sig
  match va.isNan, vb.isNan with
  | true, true => (0x7FC00000, fl)
  | true, false => (b, fl)
  | false, true => (a, fl)
  | false, false =>
    let (lt, eq) := cmpVal va vb
    let less := lt || (eq && 2 ^ 31 ≤ a)
    (if less != max then a else b, fl)

/-- A condition code of 05 R87 on two F32 values: `EQ`, `LT`, `LE`, `NE`, `UN`. -/
def fcmpVal (env : FpEnv) (cond a b : Nat) : Bool × FlagSet :=
  let va := Val.ofBits .f32 env.ftz a
  let vb := Val.ofBits .f32 env.ftz b
  let un := va.isNan || vb.isNan
  let (lt, eq) := cmpVal va vb
  let r := match cond with
    | 0 => !un && eq
    | 1 => !un && lt
    | 2 => !un && (lt || eq)
    | 3 => un || !eq
    | _ => un
  (r, va.sig ||| vb.sig)

/-- `FCLASS` (05 R88), on the raw encoding. -/
def fclassVal (a : Nat) : Nat :=
  let neg := a / 2 ^ 31 % 2 == 1
  let ex := a / 2 ^ 23 % 256
  let fr := a % 2 ^ 23
  if ex == 255 then
    if fr == 0 then (if neg then 1 else 128) else if fr < 2 ^ 22 then 256 else 512
  else if ex == 0 then
    if fr == 0 then (if neg then 8 else 16) else if neg then 4 else 32
  else if neg then 2 else 64

/-- `FRND` (05 R89). -/
def frndVal (env : FpEnv) (a : Nat) : Nat × FlagSet :=
  match Val.ofBits .f32 env.ftz a with
  | .nan s => (0x7FC00000, flagIf s flIV)
  | .inf _ => (a, 0)
  | .fin s m e =>
    let (q, _) := roundAt env.mode s m e false 0
    ((roundTo .f32 {} (Exact.dyadic s q 0)).1, 0)

/-- An instruction on the packed elements of 32-bit registers (04 R66, 05 R92). -/
def packedFn (fmt : Fmt) (op : Nat → Nat → Nat → Nat × FlagSet) : LaneFn := fun _ _ a b c =>
  let w := fmt.width
  let el := fun (v : W64) (i : Nat) => v.toNat / 2 ^ (w * i) % 2 ^ w
  let rs := (List.range (32 / w)).map (fun i => op (el a i) (el b i) (el c i))
  ([w64 ((rs.map (·.1)).foldr (fun x acc => x + 2 ^ w * acc) 0)], (rs.map (·.2)).foldl (· ||| ·) 0)

/-- The 8-bit format that `FAM` [3] selects (05 R92). -/
def quarterFmt (f : Full) : Fmt := if 8 ≤ f.fam then .e5m2 else .e4m3

/-- `QCVT` (05 R93): four F16 values to four 8-bit elements. -/
def qcvtFn (env : FpEnv) (fmt : Fmt) : LaneFn := fun _ _ a b _ =>
  let src := [a.toNat % 65536, a.toNat / 65536 % 65536, b.toNat % 65536, b.toNat / 65536 % 65536]
  let rs := src.map (fun x =>
    let v := Val.ofBits .f16 env.ftz x
    finish fmt env (v.exact, v.sig))
  ([w64 ((rs.map (·.1)).foldr (fun x acc => x + 256 * acc) 0)], (rs.map (·.2)).foldl (· ||| ·) 0)

/-- The floating type of a `CVT` code (05 Table 5-5). -/
def cvtFmt (c : Nat) : Option Fmt :=
  match c with
  | 8 => some .f32
  | 9 => some .f16
  | 10 => some .b16
  | 11 => some .e4m3
  | 12 => some .e5m2
  | _ => none

/-- The integer type code of 05 Table 5-1 for a `CVT` code. -/
def cvtInt (c : Nat) : Nat :=
  match c with
  | 0 => 6
  | 1 => 4
  | 2 => 0
  | 3 => 2
  | 4 => 7
  | 5 => 5
  | 6 => 1
  | _ => 3

/-- `CVT` (05 R84). -/
def cvtVal (env : FpEnv) (dt st : Nat) (a : W64) : W64 × FlagSet :=
  match cvtFmt st, cvtFmt dt with
  | none, none => (writeInt (cvtInt dt) (wrapTo (cvtInt dt) (readInt (cvtInt st) a)), 0)
  | none, some df =>
    let (r, fl) := roundTo df env (Exact.ofInt (readInt (cvtInt st) a))
    (w64 r, fl)
  | some sf, some df =>
    let v := Val.ofBits sf env.ftz (lowBits sf.width a)
    let (r, fl) := finish df env (v.exact, v.sig)
    (w64 r, fl)
  | some sf, none =>
    let t := cvtInt dt
    let (r, fl) := floatToInt env.mode (Val.ofBits sf env.ftz (lowBits sf.width a)) (minOf t) (maxOfTy t)
    (writeInt t r, fl)

/-- `FADD` (05 R85). -/
def execFadd (f : Full) (s : State) : Result := .next (aluExec .fadd f s (f32Fn (fpAdd .f32 (s.envFor f))))

/-- `FADD` in its compact form (02 R37, 05 R85). -/
def execFaddC32 (x : Comp) (s : State) : Result := .next (aluExec .fadd x.expand s (f32Fn (fpAdd .f32 (s.envFor x.expand))))

/-- `FSUB` (05 R85). -/
def execFsub (f : Full) (s : State) : Result := .next (aluExec .fsub f s (f32Fn (fpSub .f32 (s.envFor f))))

/-- `FSUB` in its compact form (02 R37, 05 R85). -/
def execFsubC32 (x : Comp) (s : State) : Result := .next (aluExec .fsub x.expand s (f32Fn (fpSub .f32 (s.envFor x.expand))))

/-- `FMUL` (05 R85). -/
def execFmul (f : Full) (s : State) : Result := .next (aluExec .fmul f s (f32Fn (fpMul .f32 (s.envFor f))))

/-- `FMUL` in its compact form (02 R37, 05 R85). -/
def execFmulC32 (x : Comp) (s : State) : Result := .next (aluExec .fmul x.expand s (f32Fn (fpMul .f32 (s.envFor x.expand))))

/-- `FFMA` (05 R85). -/
def execFfma (f : Full) (s : State) : Result := .next (aluExec .ffma f s (f32Fn3 (fpFma .f32 (s.envFor f))))

/-- `FMIN` (05 R86). -/
def execFmin (f : Full) (s : State) : Result := .next (aluExec .fmin f s (f32Fn (minMax32 (s.envFor f) false)))

/-- `FMIN` in its compact form (02 R37, 05 R86). -/
def execFminC32 (x : Comp) (s : State) : Result := .next (aluExec .fmin x.expand s (f32Fn (minMax32 (s.envFor x.expand) false)))

/-- `FMAX` (05 R86). -/
def execFmax (f : Full) (s : State) : Result := .next (aluExec .fmax f s (f32Fn (minMax32 (s.envFor f) true)))

/-- `FMAX` in its compact form (02 R37, 05 R86). -/
def execFmaxC32 (x : Comp) (s : State) : Result := .next (aluExec .fmax x.expand s (f32Fn (minMax32 (s.envFor x.expand) true)))

/-- `FCMP` (05 R87). -/
def execFcmp (f : Full) (s : State) : Result := .next (aluExec .fcmp f s (fun _ _ a b _ =>
    let (r, fl) := fcmpVal (s.fpEnv (s.group s.cur.gid)) (f.fam % 8) (lowBits 32 a) (lowBits 32 b)
    ([if r then 1 else 0], fl)))

/-- `FCLASS` (05 R88). -/
def execFclass (f : Full) (s : State) : Result := .next (aluExec .fclass f s (fun _ _ a _ _ => ([w64 (fclassVal (lowBits 32 a))], 0)))

/-- `FRND` (05 R89). -/
def execFrnd (f : Full) (s : State) : Result := .next (aluExec .frnd f s (f32Fn (fun a _ => frndVal (s.envFor f) a)))

/-- `CVT` (05 R84). -/
def execCvt (f : Full) (s : State) : Result := .next (aluExec .cvt f s (fun _ _ a _ _ =>
    let (r, fl) := cvtVal (s.envFor f) (f.sc.toNat / 16) (f.sc.toNat % 16) a
    ([r], fl)))

/-- `HADD2` (05 R92). -/
def execHadd2 (f : Full) (s : State) : Result := .next (aluExec .hadd2 f s (packedFn .f16 (fun a b _ => fpAdd .f16 (s.envFor f) a b)))

/-- `HADD2` in its compact form (02 R37, 05 R92). -/
def execHadd2C32 (x : Comp) (s : State) : Result := .next (aluExec .hadd2 x.expand s (packedFn .f16 (fun a b _ => fpAdd .f16 (s.envFor x.expand) a b)))

/-- `HFMA2` (05 R92). -/
def execHfma2 (f : Full) (s : State) : Result := .next (aluExec .hfma2 f s (packedFn .f16 (fpFma .f16 (s.envFor f))))

/-- `BADD2` (05 R92). -/
def execBadd2 (f : Full) (s : State) : Result := .next (aluExec .badd2 f s (packedFn .b16 (fun a b _ => fpAdd .b16 (s.envFor f) a b)))

/-- `BADD2` in its compact form (02 R37, 05 R92). -/
def execBadd2C32 (x : Comp) (s : State) : Result := .next (aluExec .badd2 x.expand s (packedFn .b16 (fun a b _ => fpAdd .b16 (s.envFor x.expand) a b)))

/-- `BFMA2` (05 R92). -/
def execBfma2 (f : Full) (s : State) : Result := .next (aluExec .bfma2 f s (packedFn .b16 (fpFma .b16 (s.envFor f))))

/-- `QADD4` (05 R92). -/
def execQadd4 (f : Full) (s : State) : Result := .next (aluExec .qadd4 f s (packedFn (quarterFmt f) (fun a b _ => fpAdd (quarterFmt f) (s.envFor f) a b)))

/-- `QADD4` in its compact form (02 R37, 05 R92). -/
def execQadd4C32 (x : Comp) (s : State) : Result := .next (aluExec .qadd4 x.expand s (packedFn (quarterFmt x.expand) (fun a b _ => fpAdd (quarterFmt x.expand) (s.envFor x.expand) a b)))

/-- `QMUL4` (05 R92). -/
def execQmul4 (f : Full) (s : State) : Result := .next (aluExec .qmul4 f s (packedFn (quarterFmt f) (fun a b _ => fpMul (quarterFmt f) (s.envFor f) a b)))

/-- `QMUL4` in its compact form (02 R37, 05 R92). -/
def execQmul4C32 (x : Comp) (s : State) : Result := .next (aluExec .qmul4 x.expand s (packedFn (quarterFmt x.expand) (fun a b _ => fpMul (quarterFmt x.expand) (s.envFor x.expand) a b)))

/-- `QCVT` (05 R93). -/
def execQcvt (f : Full) (s : State) : Result := .next (aluExec .qcvt f s (qcvtFn (s.envFor f) (quarterFmt f)))

end Sys2Proof.Machine
end

