-- ==== Sys2Proof/Machine/Bits.lean ====
section
/-! DEFINITION. GF(2), bit-field and cross-lane instructions (06 R96 to R107). -/

namespace Sys2Proof.Machine

open Sys2Proof

/-- The number whose low `w` bits are those that a test gives. -/
def ofTest (w : Nat) (p : Nat → Bool) : Nat := (List.range w).foldr (fun i r => 2 * r + (if p i then 1 else 0)) 0
/-- A 64-bit instruction of two operands. -/
def pairFn (op : Nat → Nat → Nat) : LaneFn := fun _ _ a b _ => ([w64 (op a.toNat b.toNat)], 0)

/-- The 8 × 8 bit products (06 R98): `xor` sums over GF(2), else the sum is OR. -/
def bitMatrix (xor : Bool) (a b : Nat) : Nat :=
  ofTest 64 (fun p =>
    let i := p / 8
    let j := p % 8
    let ts := (List.range 8).map (fun k => a.testBit (8 * i + k) && b.testBit (8 * k + j))
    if xor then ts.foldl (fun x y => x != y) false else ts.any id)

/-- How many ones a mask has below a position. -/
def onesBelow (m i : Nat) : Nat := ((List.range i).filter (fun j => m.testBit j)).length
/-- `BSCAT` (06 R99). -/
def bscatVal (a m : Nat) : Nat := ofTest 64 (fun i => m.testBit i && a.testBit (onesBelow m i))
/-- `BGATH` (06 R99). -/
def bgathVal (a m : Nat) : Nat :=
  let pos := (List.range 64).filter (fun i => m.testBit i)
  ofTest 64 (fun k => match pos[k]? with
    | some i => a.testBit i
    | none => false)

/-- `BPERM` (06 R100): the index table is the twelve registers from `t`. -/
def bpermVal (g : Group) (i t a : Nat) : Nat :=
  let tab := (List.range 12).foldr (fun j r => (g.readG i (t + j)).toNat + 2 ^ 32 * r) 0
  ofTest 64 (fun j => a.testBit (tab / 2 ^ (6 * j) % 64))

/-- `BFX` (06 R101). -/
def bfxVal (sgn : Bool) (a o n : Nat) : Nat :=
  if 32 ≤ o || n == 0 then 0
  else
    let n2 := min n (32 - o)
    let f := a / 2 ^ o % 2 ^ n2
    if sgn then wrapNat 32 (signed n2 f) else f

/-- `BFI` (06 R102). -/
def bfiVal (a b c : Nat) : Nat :=
  let o := c % 256
  let n := c / 256 % 256
  if 32 ≤ o || n == 0 then a
  else
    let n2 := min n (32 - o)
    ofTest 32 (fun i => if o ≤ i && i < o + n2 then b.testBit (i - o) else a.testBit i)

/-- `FSHL` and `FSHR` (06 R103). -/
def funnel (left : Bool) (hi lo n : Nat) : Nat :=
  let v := hi * 2 ^ 32 + lo
  let c := min n 32
  if left then v * 2 ^ c % 2 ^ 64 / 2 ^ 32 else v / 2 ^ c % 2 ^ 32

/-- A 32-bit instruction of three operands. -/
def bits3 (op : Nat → Nat → Nat → Nat) : LaneFn := fun _ _ a b c => ([w64 (op (lowBits 32 a) (lowBits 32 b) (lowBits 32 c))], 0)

/-- The key that `MATCH` compares (06 R104). -/
def matchKey (ty : Nat) (a : W64) : Nat :=
  match ty with
  | 2 => a.toNat
  | 1 =>
    let v := lowBits 32 a
    match Val.ofBits .f32 false v with
    | .nan _ => 0x7FC00000
    | .fin _ 0 _ => 0
    | _ => v
  | _ => lowBits 32 a

/-- `VOTE` (06 R105): the truth that a quorum gives for `t` of `n` lanes. -/
def quorum (q t n : Nat) : Bool := if q == 33 then t == n else if q == 34 then t == 0 || t == n else q ≤ t

/-- The lane that `SHFL` reads for lane `i`, if any (06 R106). -/
def shflSource (fam i b : Nat) : Option Nat :=
  let w := 32 / 2 ^ (fam / 4)
  let seg := i - i % w
  match fam % 4 with
  | 0 => if b < w then some (seg + b) else none
  | 1 =>
    let t : Int := i + signed 32 b
    if t < seg || (seg + w : Nat) ≤ t then none else some t.toNat
  | 2 => some (seg + (((i - seg : Nat) : Int) + signed 32 b).emod w |>.toNat)
  | _ => some (((i &&& (b % 32)) ||| (b / 32 % 32)) ^^^ (b / 1024 % 32))

/-- `SHFL` (06 R106). -/
def shflFn (f : Full) (part : List Nat) (val : Nat → W64) (i : Nat) (b : W64) : W64 :=
  match shflSource f.fam i (lowBits 32 b) with
  | some s => if part.contains s then val s else val i
  | none => val i

/-- One combination of `REDUX` (06 R107). -/
def reduxOp (o a b : Nat) : Nat :=
  match o with
  | 0 => (a + b) % 2 ^ 32
  | 1 => if signed 32 b < signed 32 a then b else a
  | 2 => if signed 32 a < signed 32 b then b else a
  | 3 => min a b
  | 4 => max a b
  | 5 => a &&& b
  | 6 => a ||| b
  | _ => a ^^^ b

/-- The identity of a `REDUX` operation (06 R107). -/
def reduxId (o : Nat) : Nat :=
  match o with
  | 1 => 0x7FFFFFFF
  | 2 => 0x80000000
  | 3 | 5 => 0xFFFFFFFF
  | _ => 0

/-- `REDUX` (06 R107): over every participating lane, or over those below. -/
def reduxVal (fam : Nat) (part : List Nat) (val : Nat → W64) (i : Nat) : Nat :=
  let ls := if 8 ≤ fam then part.filter (· < i) else part
  ls.foldl (fun r j => reduxOp (fam % 8) r (lowBits 32 (val j))) (reduxId (fam % 8))

/-- `BMM8` (06 R98). -/
def execBmm8 (f : Full) (s : State) : Result := .next (aluExec .bmm8 f s (pairFn (bitMatrix true)))

/-- `BMO8` (06 R98). -/
def execBmo8 (f : Full) (s : State) : Result := .next (aluExec .bmo8 f s (pairFn (bitMatrix false)))

/-- `BSCAT` (06 R99). -/
def execBscat (f : Full) (s : State) : Result := .next (aluExec .bscat f s (pairFn bscatVal))

/-- `BGATH` (06 R99). -/
def execBgath (f : Full) (s : State) : Result := .next (aluExec .bgath f s (pairFn bgathVal))

/-- `BPERM` (06 R100). -/
def execBperm (f : Full) (s : State) : Result := .next (aluExec .bperm f s (fun g i a _ _ => ([w64 (bpermVal g i f.sb.toNat a.toNat)], 0)))

/-- `BFX` (06 R101). -/
def execBfx (f : Full) (s : State) : Result := .next (aluExec .bfx f s (bits3 (bfxVal (f.fam % 2 == 1))))

/-- `BFI` (06 R102). -/
def execBfi (f : Full) (s : State) : Result := .next (aluExec .bfi f s (bits3 bfiVal))

/-- `FSHL` (06 R103). -/
def execFshl (f : Full) (s : State) : Result := .next (aluExec .fshl f s (bits3 (funnel true)))

/-- `FSHR` (06 R103). -/
def execFshr (f : Full) (s : State) : Result := .next (aluExec .fshr f s (bits3 (funnel false)))

/-- `MATCH` (06 R104). -/
def execMatchLanes (f : Full) (s : State) : Result := .next (crossExec .matchLanes f s (fun _ part val i _ =>
    ([(maskOf (fun j => part.contains j && matchKey (f.fam % 4) (val j) == matchKey (f.fam % 4) (val i))).setWidth 64], 0)))

/-- `VOTE` (06 R105). -/
def execVote (f : Full) (s : State) : Result := .next (crossExec .vote f s (fun _ part val _ _ =>
    ([if quorum f.sb.toNat (part.filter (fun j => val j != 0)).length part.length then 1 else 0], 0)))

/-- `VOTE.MASK` (06 R105). -/
def execVoteMask (f : Full) (s : State) : Result := .next (crossExec .voteMc f s (fun _ part val _ _ =>
    ([(maskOf (fun j => part.contains j && val j != 0)).setWidth 64], 0)))

/-- `VOTE.CNT` (06 R105). -/
def execVoteCnt (f : Full) (s : State) : Result := .next (crossExec .voteMc f s (fun _ part val _ _ => ([w64 (part.filter (fun j => val j != 0)).length], 0)))

/-- `SHFL` (06 R106). -/
def execShfl (f : Full) (s : State) : Result := .next (crossExec .shfl f s (fun _ part val i b => ([shflFn f part val i b], 0)))

/-- `REDUX` (06 R107). -/
def execRedux (f : Full) (s : State) : Result := .next (crossExec .redux f s (fun _ part val i _ => ([w64 (reduxVal f.fam part val i)], 0)))

end Sys2Proof.Machine
end

