-- ==== Sys2Proof/WellFormed.lean ====
section
/-! DEFINITION. Well-formed instructions: those that the checks of 02 Table 2-8 (lane instructions), of
10 R203 and R210 (sequencer instructions) and of 18 R342 (row-program steps) let through. -/

namespace Sys2Proof

/-- Whether an instruction passes every check of its decoder, and is the form that its fields name (03 R55: four
opcodes have a form for each value of a field). An event of the module has no encoding and nothing to check. -/
def Instr.wellFormed (i : Instr) : Bool :=
  match i.full? with
  | some (op, f) => (f.illegal op).isNone && Instr.ofFull op f == i
  | none =>
    match i.comp? with
    | some (c, x) => (x.illegal c).isNone
    | none =>
      match i with
      | .p64Pair _ h0 h1 => h0.illegal.isNone && h1.illegal.isNone && (pairIllegal h0 h1).isNone
      | .mloop n _ => n != 0
      | .mwait _ c => c.toNat ≤ 33
      | .msig _ c => c != 0 && c.toNat ≤ 33
      | .macb _ c0 n | .mace _ c0 n => n != 0 && n.toNat ≤ 16 && c0.toNat + n.toNat ≤ 64
      | _ => true

end Sys2Proof
end

