-- ==== Sys2Proof/Decode.lean ====
section
/-! DEFINITION. The three instruction streams of the part (lane 02, sequencer 10 R202, row programs
18 R342): a decoder for each, total on any bytes and rejecting by code, and after them the encoder. -/

namespace Sys2Proof

/-- Little-endian value of a list of bytes (00 R2). -/
def leNat : List Byte → Nat
  | [] => 0
  | b :: bs => b.toNat + 256 * leNat bs

/-- The `n` bytes of a number, least significant first (00 R2). -/
def leBytes : Nat → Nat → List Byte
  | 0, _ => []
  | n + 1, v => BitVec.ofNat 8 v :: leBytes n (v / 256)

/-- The 32-bit words of a list of bytes; a last part shorter than a word is left out. -/
def wordsOf : List Byte → List W32
  | a :: b :: c :: d :: rest => BitVec.ofNat 32 (leNat [a, b, c, d]) :: wordsOf rest
  | _ => []

/-- What the lane decoder answers: an instruction; `ILLEGAL` or `ILLEGAL_PAIR` with its `DETAIL` (02 R42,
03 R57); or that the bytes end before the instruction does. -/
inductive Decoded where
  | ok (i : Instr)
  | illegal (detail : Nat)
  | illegalPair (detail : Nat)
  | short
  deriving DecidableEq, Repr

/-- The length in words of the instruction that a first word begins (02 Table 2-1). -/
def formWords (w : W32) : Nat :=
  match w.toNat % 4 with
  | 0 => 1
  | 1 => 2
  | 2 => 2
  | _ => 3

/-- The fields of an F64 or L96 instruction (02 Table 2-2). -/
def Full.ofBits (w : W64) (lit : Option W32) : Full :=
  { as := w.getLsbD 2, dst := w.extractLsb' 13 8, sa := w.extractLsb' 21 8, sb := w.extractLsb' 29 8,
    sc := w.extractLsb' 37 8, gp := w.extractLsb' 45 6, gn := w.getLsbD 51, la := w.extractLsb' 52 4,
    mod := w.extractLsb' 56 6, lit := lit }

/-- The fields of a C32 instruction (02 Table 2-6). -/
def Comp.ofBits (w : W32) : Comp :=
  { as := w.getLsbD 2, dst := w.extractLsb' 10 8, src := w.extractLsb' 18 8, gp := w.extractLsb' 26 3,
    gn := w.getLsbD 29, mod := w.extractLsb' 30 2 }

/-- The fields of half 0 of a P64 (02 Table 2-7). -/
def Half.ofBits0 (c : COp) (w : W64) : Half :=
  { op := c, dst := w.extractLsb' 10 8, src := w.extractLsb' 18 8, gp := w.extractLsb' 26 3,
    gn := w.getLsbD 29, mod := w.extractLsb' 30 2 }

/-- The fields of half 1 of a P64 (02 Table 2-7). -/
def Half.ofBits1 (c : COp) (w : W64) : Half :=
  { op := c, dst := w.extractLsb' 40 8, src := w.extractLsb' 48 8, gp := w.extractLsb' 56 3,
    gn := w.getLsbD 59, mod := w.extractLsb' 60 2 }

/-- A C32 word (02 Table 2-8, R37). -/
def decodeC32 (w : W32) : Decoded :=
  match COp.ofCode (w.extractLsb' 3 7).toNat with
  | none => .illegal 0x02
  | some c =>
    let x := Comp.ofBits w
    match x.illegal c with
    | some d => .illegal d
    | none => .ok (.ofComp c x)

/-- A P64 pair (02 Table 2-8, R38, R39): reserved bits, opcodes of both halves, fields, pairing. -/
def decodeP64 (w : W64) : Decoded :=
  if w.getLsbD 32 then .illegal 0x01
  else if w.getLsbD 63 then .illegal 0x01
  else if w.getLsbD 62 then .illegal 0x81
  else
    match COp.ofCode (w.extractLsb' 3 7).toNat, COp.ofCode (w.extractLsb' 33 7).toNat with
    | none, _ => .illegal 0x02
    | some _, none => .illegal 0x82
    | some c0, some c1 =>
      let h0 := Half.ofBits0 c0 w
      let h1 := Half.ofBits1 c1 w
      match h0.illegal, h1.illegal, pairIllegal h0 h1 with
      | some d, _, _ => .illegal d
      | none, some d, _ => .illegal (0x80 + d)
      | none, none, some d => .illegalPair d
      | none, none, none => .ok (.p64Pair (w.getLsbD 2) h0 h1)

/-- An F64 instruction, or an L96 one with its literal (02 Table 2-8, R29, R33). -/
def decodeFull (w : W64) (lit : Option W32) : Decoded :=
  if w.extractLsb' 62 2 != 0 then .illegal 0x01
  else
    match Op.ofCode (w.extractLsb' 3 10).toNat with
    | none => .illegal 0x02
    | some op =>
      let f := Full.ofBits w lit
      match f.illegal op with
      | some d => .illegal d
      | none => .ok (.ofFull op f)

/-- The lane instruction at the front of a list of words (02 Table 2-1, Table 2-8). -/
def decodeWords : List W32 → Decoded
  | [] => .short
  | w0 :: rest =>
    match w0.toNat % 4, rest with
    | 0, _ => decodeC32 w0
    | 1, w1 :: _ => decodeP64 (w1 ++ w0)
    | 2, w1 :: _ => decodeFull (w1 ++ w0) none
    | 3, w1 :: w2 :: _ => decodeFull (w1 ++ w0) (some w2)
    | _, _ => .short

/-- The lane instruction at the front of a list of bytes. -/
def decodeBytes (bs : List Byte) : Decoded := decodeWords (wordsOf bs)

/-- What the sequencer decoder answers: an instruction, or the code of 10 Table 10-6 that halts it. -/
inductive SeqDecoded where
  | ok (i : Instr)
  | halt (code : Nat)
  deriving DecidableEq, Repr

/-- A sequencer word (10 Table 10-8, R203): `ILL_OP` for an unassigned `SOP`, `ILL_FIELD` for a field out
of range or a nonzero zero field. -/
def decodeSeq (w : W32) : SeqDecoded :=
  let d := w.extractLsb' 21 5
  let a := w.extractLsb' 16 5
  let b := w.extractLsb' 11 5
  let t := w.extractLsb' 21 3
  let big := w.extractLsb' 24 2 != 0
  let low := w.extractLsb' 0 11
  let off := w.extractLsb' 0 16
  let ok (c : Bool) (i : Instr) : SeqDecoded := if c then .ok i else .halt 0x02
  match (w.extractLsb' 26 6).toNat with
  | 0x01 =>
    ok (!big && w.extractLsb' 18 3 == 0 && w.extractLsb' 13 3 == 0 && w.extractLsb' 2 9 == 0)
      (.mma t (w.extractLsb' 16 2) (w.extractLsb' 11 2) (w.getLsbD 0) (w.getLsbD 1))
  | 0x02 => ok (!big && w.extractLsb' 0 21 == 0) (.mzero t)
  | 0x03 => ok (w.extractLsb' 23 3 == 0 && low == 0) (.mlda (w.extractLsb' 21 2) a b)
  | 0x04 => ok (w.extractLsb' 23 3 == 0 && low == 0) (.mldb (w.extractLsb' 21 2) a b)
  | 0x05 => ok (!big && w.extractLsb' 0 21 == 0) (.munpin t)
  | 0x06 =>
    if w.getLsbD 5 then ok (!big && w.extractLsb' 6 15 == 0 && w.extractLsb' 0 5 == 0) (.mstQ t)
    else ok (!big && w.extractLsb' 7 4 == 0)
      (if w.getLsbD 6 then .mstB16 t a b (w.extractLsb' 0 5) else .mstF32 t a b (w.extractLsb' 0 5))
  | 0x07 => ok (w.extractLsb' 0 21 == 0) (.msparse d)
  | 0x08 => ok (a == 0) (.mloop d off)
  | 0x09 =>
    let zero := w.extractLsb' 18 3 == 0
    match (w.extractLsb' 16 2).toNat with
    | 0 => ok (zero && d == 0) (.mbraAl off)
    | 1 => ok zero (.mbraZ d off)
    | 2 => ok zero (.mbraNz d off)
    | _ => ok (zero && d == 0 && off == 0) .mbraStop
  | 0x0A =>
    let sh := w.extractLsb' 17 2
    let zero := !w.getLsbD 16
    match (w.extractLsb' 19 2).toNat with
    | 0 => ok zero (.msetI d sh off)
    | 1 => ok (zero && sh == 0 && off == 0) (.msetQ d)
    | 2 => ok (zero && sh == 0 && off == 0) (.msetR d)
    | _ => .halt 0x02
  | 0x0B => .ok (.maddx d a b low)
  | 0x0C => ok (d == 0 && !w.getLsbD 20 && w.extractLsb' 0 10 == 0) (.mwait (w.extractLsb' 16 4) (w.extractLsb' 10 6))
  | 0x0D => ok (d == 0 && !w.getLsbD 20 && w.extractLsb' 0 10 == 0) (.msig (w.extractLsb' 16 4) (w.extractLsb' 10 6))
  | _ => .halt 0x01

/-- A row-program step (18 Table 18-7); none ends the command with `PROG_BAD`. -/
def decodeStep (w : W32) : Option Instr :=
  match (w.extractLsb' 28 4).toNat with
  | 0 => if w.extractLsb' 0 28 == 0 then some .stepEnd else none
  | 1 => if w.extractLsb' 0 28 == 0 then some .stepOpen else none
  | 2 => if w.extractLsb' 0 14 == 0 then
      some (.macb (w.extractLsb' 25 3) (w.extractLsb' 19 6) (w.extractLsb' 14 5)) else none
  | 3 => if w.extractLsb' 0 14 == 0 then
      some (.mace (w.extractLsb' 25 3) (w.extractLsb' 19 6) (w.extractLsb' 14 5)) else none
  | 4 => if w.extractLsb' 0 28 == 0 then some .stepClr else none
  | 5 => if w.extractLsb' 5 23 == 0 then some (.stepLoop (w.extractLsb' 0 5)) else none
  | _ => none

/-- One bit from a flag. -/
def bit (b : Bool) : BitVec 1 := BitVec.ofBool b

/-- The two words of an F64 instruction, or the first two of an L96 one (02 Table 2-2). -/
def Full.bits (op : Op) (f : Full) : W64 :=
  (0#2 ++ f.mod ++ f.la ++ bit f.gn ++ f.gp ++ f.sc ++ f.sb ++ f.sa ++ f.dst ++ BitVec.ofNat 10 op.code ++
    bit f.as ++ (if f.lit.isSome then 0b11#2 else 0b10#2)).cast (by decide)

/-- A C32 word (02 Table 2-6). -/
def Comp.bits (c : COp) (x : Comp) : W32 :=
  (x.mod ++ bit x.gn ++ x.gp ++ x.src ++ x.dst ++ BitVec.ofNat 7 c.code ++ bit x.as ++ 0b00#2).cast (by decide)

/-- A P64 pair (02 Table 2-7). -/
def pairBits (as : Bool) (h0 h1 : Half) : W64 :=
  (0#2 ++ h1.mod ++ bit h1.gn ++ h1.gp ++ h1.src ++ h1.dst ++ BitVec.ofNat 7 h1.op.code ++ 0#1 ++
    h0.mod ++ bit h0.gn ++ h0.gp ++ h0.src ++ h0.dst ++ BitVec.ofNat 7 h0.op.code ++ bit as ++ 0b01#2).cast
    (by decide)

/-- The two halves of a 64-bit value, the low word first (02 Table 2-1). -/
def words2 (w : W64) : List W32 := [w.extractLsb' 0 32, w.extractLsb' 32 32]

/-- The word of a sequencer instruction (10 Table 10-8); none for any other. -/
def encodeSeq : Instr → Option W32
  | .mma t a b ka kb => some ((0x01#6 ++ 0#2 ++ t ++ 0#3 ++ a ++ 0#3 ++ b ++ 0#9 ++ bit kb ++ bit ka).cast (by decide))
  | .mzero t => some ((0x02#6 ++ 0#2 ++ t ++ 0#21).cast (by decide))
  | .mlda s a b => some ((0x03#6 ++ 0#3 ++ s ++ a ++ b ++ 0#11).cast (by decide))
  | .mldb s a b => some ((0x04#6 ++ 0#3 ++ s ++ a ++ b ++ 0#11).cast (by decide))
  | .munpin t => some ((0x05#6 ++ 0#2 ++ t ++ 0#21).cast (by decide))
  | .mstF32 t a b c => some ((0x06#6 ++ 0#2 ++ t ++ a ++ b ++ 0#6 ++ c).cast (by decide))
  | .mstB16 t a b c => some ((0x06#6 ++ 0#2 ++ t ++ a ++ b ++ 0#4 ++ 1#1 ++ 0#1 ++ c).cast (by decide))
  | .mstQ t => some ((0x06#6 ++ 0#2 ++ t ++ 0#15 ++ 1#1 ++ 0#5).cast (by decide))
  | .msparse d => some ((0x07#6 ++ d ++ 0#21).cast (by decide))
  | .mloop n o => some ((0x08#6 ++ n ++ 0#5 ++ o).cast (by decide))
  | .mbraAl o => some ((0x09#6 ++ 0#5 ++ 0#3 ++ 0#2 ++ o).cast (by decide))
  | .mbraZ a o => some ((0x09#6 ++ a ++ 0#3 ++ 1#2 ++ o).cast (by decide))
  | .mbraNz a o => some ((0x09#6 ++ a ++ 0#3 ++ 2#2 ++ o).cast (by decide))
  | .mbraStop => some 0x24030000#32
  | .msetI d sh imm => some ((0x0A#6 ++ d ++ 0#2 ++ sh ++ 0#1 ++ imm).cast (by decide))
  | .msetQ d => some ((0x0A#6 ++ d ++ 1#2 ++ 0#19).cast (by decide))
  | .msetR d => some ((0x0A#6 ++ d ++ 2#2 ++ 0#19).cast (by decide))
  | .maddx d a b imm => some ((0x0B#6 ++ d ++ a ++ b ++ imm).cast (by decide))
  | .mwait b c => some ((0x0C#6 ++ 0#6 ++ b ++ c ++ 0#10).cast (by decide))
  | .msig b c => some ((0x0D#6 ++ 0#6 ++ b ++ c ++ 0#10).cast (by decide))
  | _ => none

/-- The word of a row-program step (18 Table 18-7); none for any other instruction. -/
def encodeStep : Instr → Option W32
  | .stepEnd => some 0x00000000#32
  | .stepOpen => some 0x10000000#32
  | .macb v c0 n => some ((2#4 ++ v ++ c0 ++ n ++ 0#14).cast (by decide))
  | .mace v c0 n => some ((3#4 ++ v ++ c0 ++ n ++ 0#14).cast (by decide))
  | .stepClr => some 0x40000000#32
  | .stepLoop t => some ((5#4 ++ 0#23 ++ t).cast (by decide))
  | _ => none

/-- The words of an instruction, in the stream it belongs to; none for an event of the module. -/
def encode (i : Instr) : List W32 :=
  match i.full? with
  | some (op, f) => words2 (f.bits op) ++ f.lit.toList
  | none =>
    match i.comp? with
    | some (c, x) => [x.bits c]
    | none =>
      match i with
      | .p64Pair as h0 h1 => words2 (pairBits as h0 h1)
      | i => (encodeSeq i).toList ++ (encodeStep i).toList

/-- The stream that an instruction is fetched from. -/
inductive Stream where
  | lane | sequencer | rowProgram | event
  deriving DecidableEq, Repr

/-- The stream of an instruction. -/
def Instr.stream (i : Instr) : Stream :=
  if i.full?.isSome || i.comp?.isSome then .lane
  else match i with
    | .p64Pair _ _ _ => .lane
    | i =>
      if (encodeSeq i).isSome then .sequencer
      else if (encodeStep i).isSome then .rowProgram else .event

/-- The lane instruction among decoder answers. -/
def Decoded.instr? : Decoded → Option Instr
  | .ok i => some i
  | _ => none

/-- The sequencer instruction among decoder answers. -/
def SeqDecoded.instr? : SeqDecoded → Option Instr
  | .ok i => some i
  | _ => none

/-- The reading of one 32-bit word where nothing says which stream it stands in: the wholly fixed steps,
a sequencer word that passes every check, a lane word, a step that passes every check, and last a word that
decodes but fails a check at execution. The three streams overlap, so one word can have several readings. -/
def readWord (w : W32) : Option Instr :=
  let sq := (decodeSeq w).instr?
  let st := decodeStep w
  if w == 0x00000000#32 || w == 0x10000000#32 || w == 0x40000000#32 then st
  else if (sq.any (·.wellFormed)) then sq
  else
    match (decodeWords [w]).instr? with
    | some i => some i
    | none => if st.any (·.wellFormed) then st else if sq.isSome then sq else st

/-- The instruction that the decoders read from an instruction of `nbits` bits with the value `w`, its
words laid out in memory as 00 R2 gives and followed by zero words. -/
def decodeTableWord (nbits w : Nat) : Option Instr :=
  let ws := wordsOf (leBytes 12 (w % 2 ^ nbits))
  if nbits ≤ 32 then readWord (BitVec.ofNat 32 (w % 2 ^ nbits)) else (decodeWords ws).instr?

end Sys2Proof
end

