-- ==== Sys2Proof/Machine/Memory.lean ====
section
/-! DEFINITION. Loads, stores, atomics, cache operations, fences and transactions (07 R122 to R147). -/

namespace Sys2Proof.Machine

open Sys2Proof

/-! ### Checking and placing an access -/

/-- The space of a memory operand (07 R123). -/
inductive Space where
  | global | loc | vault
  deriving DecidableEq, Repr

/-- A space from the code of `SPC` (07 Table 7-1). -/
def Space.ofCode (n : Nat) : Space := if n == 0 then .global else if n == 1 then .loc else .vault

/-- The space of a memory instruction: by the opcode, or by `SPC` (07 R122). -/
def spaceOf (op : Op) (f : Full) : Space :=
  match op with
  | .ldL | .stL | .lspres => .loc
  | .ldV | .stV => .vault
  | .ldG | .stG | .lea => .global
  | _ => Space.ofCode f.spc

/-- The checks of an access of `n` bytes by a group, alignment first (07 R123, R124): the physical, local or
vault address, or the trap. -/
def State.place (s : State) (g : Group) (sp : Space) (a n : Nat) (k : Access) : Except Trap Nat :=
  if a % n != 0 then .error (.misaligned a)
  else match sp with
    | .global =>
      match s.translate g.tenant a k with
      | .error t => .error t
      | .ok pa => match s.remoteRefusal pa a with
        | some t => .error t
        | none => .ok pa
    | .loc => if a + n ≤ (s.team g.team).lsBytes then .ok a else .error (.protection a)
    | .vault => if vaultRange g.vwin a n (k == .write) then .ok a else .error (.protection a)

/-- `REG_ECC` with its detail code (07 R15, 11 R233, 13 R263, 18 R328). -/
def Trap.ecc (d : Nat) : Trap := { cause := 0x04, detail := d }

/-- What another module answers to a request that it may refuse (22 Table 22-4): a refusal by its export
table, an uncorrectable error, an operation that it lacks, which only one of floating point can be (`lacking`, 22 R399), that
it is not synchronised (22 R398), or success. Which of them is a free value
(assumption log 6), one for all lanes of an issue whose accesses fall in one line (07 R138). -/
def State.remoteAnswer (s : State) (pa a : Nat) (lacking : Bool) : Option Trap :=
  if !s.isRemote pa then none
  else match Config.remoteReply (pa / 128) s.ticks (s.cur.gid * 2 ^ 64 + s.cur.pc.toNat) with
    | 1 => some (.protection a 0x02)
    | 2 => some (.ecc 0x04)
    | 3 => if lacking then some (.unsupported a) else none
    | 4 => some (.protection a 0x03)
    | _ => none

/-- Whether an address holds an uncorrectable error, with its detail code. -/
def State.eccAt (s : State) (g : Group) (sp : Space) (p n : Nat) : Option Nat :=
  match sp with
  | .global => if s.poison.any (fun x => x.1 == 0 && p / 64 ≤ x.2 && x.2 ≤ (p + n - 1) / 64) then some 0x03 else none
  | .loc => if s.poison.contains (1, g.team * 2048 + p / 128) then some 0x01 else none
  | .vault => if s.poison.contains (2, dieOfCore g.core * 2 ^ 22 + p / 128) then some 0x02 else none

/-- The trap of a read that meets an uncorrectable error, with its error record and the targeted test of the structure
(11 R219, 13 R263, 18 R328). -/
def State.eccTrap (s : State) (g : Group) (sp : Space) (p n : Nat) : Option (Trap × State) :=
  (s.eccAt g sp p n).map (fun d =>
    (.ecc d, match sp with
      | .loc => s.raiseError { sev := 1, src := 2, tenant := g.tenant } 2 (g.core * 2048 + ((s.team g.team).lsBase + p) / 128)
      | .vault => s.raiseError { sev := 1, src := 4, tenant := g.tenant } 4 (dieOfCore g.core * 2 ^ 22 + p / 128)
      | .global => s.raiseError { sev := 1, src := 6, tenant := g.tenant } 5 (s.dram p).place))

/-- Whether a lane's access meets a structure under test: a line of a local store or a vault, or a set of its core's L1
(21 R388). -/
def State.testHeld (s : State) (g : Group) (sp : Space) (p : Nat) : Bool :=
  match sp with
  | .loc => s.underTest 2 (g.core * 2048 + ((s.team g.team).lsBase + p) / 128)
  | .vault => s.underTest 4 (dieOfCore g.core * 2 ^ 22 + p / 128)
  | .global => s.underTest 3 (g.core * 128 + p / 128 % 128)

/-- Whether an own atomic of a lane on the line of an address is still pending: its new value is not known, and a load of
the line waits for it (07 R146). -/
def State.ownAtomicPending (s : State) (gid lane : Nat) (sp : Space) (die p : Nat) : Bool :=
  match sp with
  | .global => (s.home (p / 128)).queue.any (fun w => w.gid == some gid && w.lane == lane && w.op.isAtom && !w.tx)
  | .vault => s.vheld.any (fun h => h.die == die && h.gid == some gid && h.lane == lane && h.op.addr / 128 == p / 128 && h.op.isAtom)
  | .loc => false

/-- Vault bytes as a lane reads them: its own stores that a pin holds back are merged (07 R146). -/
def State.vaultRead (s : State) (die gid lane a n : Nat) : List Byte :=
  let own := (s.vheld.filter (fun h => h.die == die && h.gid == some gid && h.lane == lane)).flatMap (fun h => match h.op with
    | .store bs => bs
    | _ => [])
  (List.range n).map (fun i =>
    match own.filter (fun c => c.1 == a + i) with
    | [] => Memory.byte s.vault (die * 2 ^ 29 + a + i)
    | c :: r => ((c :: r).getLastD c).2)

/-- What comes of a load: bytes, a trap, or that the lane waits. -/
inductive Loaded where
  | bytes (bs : List Byte) (s : State)
  | trap (t : Trap) (s : State)
  | wait (s : State)

/-- Whether a load of `n` bytes at a virtual address hits in the L1 of a group's core: it then meets no home (11 R224). -/
def State.hits (s : State) (g : Group) (sp : Space) (a n : Nat) : Bool :=
  sp == .global && a % n == 0 && (match s.translate g.tenant a .read with
    | .ok pa => s.l1Hit g.core pa n
    | .error _ => false)

/-- The checks of a load: those of its home are not made where it hits. -/
def State.placeLoad (s : State) (g : Group) (sp : Space) (a n : Nat) : Except Trap Nat :=
  if s.hits g sp a n then s.translate g.tenant a .read else s.place g sp a n .read

/-- The bytes of a global load of a lane, whose transaction takes the line into its read set. -/
def State.loadLine (s : State) (g : Group) (i p n hint : Nat) : Loaded :=
  if g.inTx i then
    let (ok, s) := s.txJoin g.id (p / 128) false
    if !ok then .wait s
    else
      let (bs, s) := s.loadGlobal g.core p n hint (some g.id) (some i)
      if (s.group g.id).tx.isNone then .wait s else .bytes ((s.group g.id).txMerge p bs) s
  else
    let (bs, s) := s.loadGlobal g.core p n hint (some g.id) (some i)
    .bytes bs s

/-- A load of `n` bytes by a lane (07 R125, R141, R147, 17 R312). -/
def State.load (s : State) (g : Group) (i : Nat) (sp : Space) (a n hint : Nat) : Loaded :=
  match s.placeLoad g sp a n with
  | .error t => .trap t s
  | .ok p =>
    if s.ownAtomicPending g.id i sp (dieOfCore g.core) p || s.testHeld g sp p then .wait s
    else match sp with
    | .loc =>
      let t := s.team g.team
      if !t.present p then .wait (s.modLane g.id i (fun l => { l with park := 2, aux := p / 128 }))
      else match s.wakeArray (localArray g.core) with
        | (false, s) => .wait s
        | (true, s) => match s.eccTrap g sp p n with
          | some (x, s) => .trap x s
          | none => .bytes (t.lsBytesAt p n) s
    | .vault =>
      let die := dieOfCore g.core
      match s.readArray (arrayOf die p) (.lane g.id i s.cur.pc) with
      | (false, s) => .wait s
      | (true, s) => match s.eccTrap g sp p n with
        | some (x, s) => .trap x s
        | none => .bytes (s.vaultRead die g.id i p n) s
    | .global =>
      if s.hits g sp a n then s.loadLine g i p n hint
      else if s.fetchHeld p || s.bankHeld p then .wait (s.askBank p)
      else match s.eccTrap g sp p n with
        | some (x, s) => .trap x s
        | none => match s.remoteAnswer p a false with
          | some t => .trap t s
          | none => (s.askBank p).loadLine g i p n hint

/-- A local store's bytes, performed when they are written (07 R139). -/
def State.storeLocal (s : State) (g : Group) (p : Nat) (bs : List Byte) : State :=
  (s.modTeam g.team (fun t => t.setLs p bs)).complete (some g.id) s.time

/-- What comes of a store or a cache operation: done, a trap, or that the lane waits. -/
inductive Stored where
  | done (s : State)
  | trap (t : Trap) (s : State)
  | wait (s : State)

/-- A store by a lane (07 R125, R141, 11 R225, 17 R308). -/
def State.store (s : State) (g : Group) (i : Nat) (sp : Space) (a : Nat) (bs : List Byte) (hint : Nat) : Stored :=
  match s.place g sp a bs.length .write with
  | .error t => .trap t s
  | .ok p =>
    if s.testHeld g sp p then .wait s
    else match sp with
    | .loc =>
      if !(s.team g.team).present p then .wait (s.modLane g.id i (fun l => { l with park := 2, aux := p / 128 }))
      else
        let (ok, s) := s.wakeArray (localArray g.core)
        if ok then .done (s.storeLocal g p bs) else .wait s
    | .vault =>
      let die := dieOfCore g.core
      .done (s.vaultWrite { die := die, gid := some g.id, lane := i,
                                 op := .store ((List.range bs.length).map (fun j => (p + j, bs.getD j 0))) })
    | .global =>
      if s.routeHeld p && (s.l1Line? g.core (p / 128)).isNone then .wait s
      else match s.remoteAnswer p a false with
      | some t => .trap t s
      | none =>
        if g.inTx i then
          let (ok, s) := s.txJoin g.id (p / 128) true
          let s := if ok then s.txLine g.core (p / 128) hint else s
          if (s.group g.id).tx.isNone then .wait s else .done (s.modGroup g.id (fun g => g.txBuffer p bs hint))
        else .done (s.storeGlobal g.core g.id i p bs hint)

/-! ### Loads -/

/-- The value of a scalar load from its bytes (07 Table 7-2). -/
def extendLoad (size : Nat) (bs : List Byte) : W64 :=
  let v := leVal bs
  match size with
  | 1 => w64 (wrapNat 32 (signed 8 v))
  | 3 => w64 (wrapNat 32 (signed 16 v))
  | _ => w64 v

/-- The bytes of a size code (07 Table 7-2). -/
def sizeBytes (c : Nat) : Nat := match c with
  | 0 | 1 => 1
  | 2 | 3 => 2
  | 4 => 4
  | _ => 8

/-- The hint of a global access (07 R130). -/
def hintOf (sp : Space) (f : Full) : Nat := if sp = .global then f.hint else 0

/-- A load of `n` bytes whose destination's values are a function of the bytes. -/
def loadExec (op : Op) (f : Full) (s : State) (n : Group → Nat) (vals : List Byte → List W64) : State :=
  let sp := spaceOf op f
  laneExec op f s (fun s g _ i =>
    match s.load g i sp (effAddr f g i) (n g) (hintOf sp f) with
    | .trap t s => .trapIn t s
    | .wait s => .stay s
    | .bytes bs s => finishAlu s op f g (vals bs) 0)

/-- The 32-bit words of a list of bytes. -/
def wordList (n : Nat) (bs : List Byte) : List W64 := (List.range n).map (fun k => w64 (leVal ((bs.drop (4 * k)).take 4)))

/-- `LD` (07 R125). -/
def scalarLoad (op : Op) (f : Full) (s : State) : State :=
  loadExec op f s (fun _ => sizeBytes (f.fam % 8)) (fun bs => [extendLoad (f.fam % 8) bs])

/-- `LDV` and `TLD` (07 R127). -/
def runLoad (op : Op) (f : Full) (s : State) : State := loadExec op f s (fun _ => 4 * runLen f) (wordList (runLen f))

/-- `LD.G` (07 R125). -/
def execLdG (f : Full) (s : State) : Result := .next (scalarLoad .ldG f s)
/-- `LD.L` (07 R125, R147). -/
def execLdL (f : Full) (s : State) : Result := .next (scalarLoad .ldL f s)
/-- `LD.V` (07 R125, 13 R245). -/
def execLdV (f : Full) (s : State) : Result := .next (scalarLoad .ldV f s)
/-- `LDV` (07 R127). -/
def execLdv (f : Full) (s : State) : Result := .next (runLoad .ldv f s)
/-- `TLD` (07 R127, R129). -/
def execTld (f : Full) (s : State) : Result := .next (runLoad .tld f s)
/-- `LDW` (07 R128): raw words into elements 0 to P − 1, +0.0 above. -/
def execLdw (f : Full) (s : State) : Result :=
  .next (loadExec .ldw f s (fun g => 4 * g.width) (fun bs =>
    (List.range 8).map (fun e => if 4 * e < bs.length then w64 (leVal ((bs.drop (4 * e)).take 4)) else 0)))

/-! ### Stores -/

/-- The bytes that a store's data field gives on a lane, as many as a size (07 R125, R127, R128). -/
def storeData (op : Op) (f : Full) (g : Group) (i : Nat) (popped : W64) (n : Nat) : List Byte :=
  let v := f.dst.toNat
  match (op.shape f).dst with
  | .g k _ _ =>
    if f.xd then (if v < 0x40 then bytes64 (g.readK v) else bytes64 popped).take n
    else ((List.range k).flatMap (fun j => bytes32 (g.readG i (v + j)))).take n
  | .w _ _ => ((List.range 8).flatMap (fun e => bytes32 (g.readW i v e))).take n
  | _ => []

/-- A store of `n` bytes. -/
def storeExec (op : Op) (f : Full) (s : State) (n : Group → Nat) : State :=
  let sp := spaceOf op f
  laneExec op f s (fun s g got i =>
    match s.store g i sp (effAddr f g i) (storeData op f g i (poppedBy got i) (n g)) (hintOf sp f) with
    | .trap t s => .trapIn t s
    | .wait s => .stay s
    | .done s => .res s [] 0)

/-- `ST` (07 R125). -/
def scalarStore (op : Op) (f : Full) (s : State) : State := storeExec op f s (fun _ => sizeBytes (f.fam % 8))

/-- `STV` and `TST` (07 R127). -/
def runStore (op : Op) (f : Full) (s : State) : State := storeExec op f s (fun _ => 4 * runLen f)

/-- `ST.G` (07 R125). -/
def execStG (f : Full) (s : State) : Result := .next (scalarStore .stG f s)
/-- `ST.L` (07 R125, R147). -/
def execStL (f : Full) (s : State) : Result := .next (scalarStore .stL f s)
/-- `ST.V` (07 R125, 10 R205). -/
def execStV (f : Full) (s : State) : Result := .next (scalarStore .stV f s)
/-- `STV` (07 R127). -/
def execStv (f : Full) (s : State) : Result := .next (runStore .stv f s)
/-- `TST` (07 R127, R129). -/
def execTst (f : Full) (s : State) : Result := .next (runStore .tst f s)
/-- `STW` (07 R128). -/
def execStw (f : Full) (s : State) : Result := .next (storeExec .stw f s (fun g => 4 * g.width))

/-! ### Atomics (07 R132 to R135) -/

/-- What comes of an atomic: the old value, the serial number under which it is owed, a trap, or that the lane
waits. -/
inductive Atomic where
  | old (v : W64) (s : State)
  | owed (n : Nat) (s : State)
  | trap (t : Trap) (s : State)
  | wait (s : State)

/-- An atomic on memory held as bytes: the new bytes and the old value. -/
def WriteOp.applyAt (op : WriteOp) (m : List Host.Cell) : List Host.Cell × W64 :=
  let (bs, old) := op.apply m
  (Memory.setCells m bs, old)

/-- An atomic of a lane of an open transaction (07 R141): the old value, or the status of an `.NT` one, at once, the new
value buffered. -/
def State.atomicTx (s : State) (g : Group) (i p n : Nat) (nt : Bool) (mk : Nat → WriteOp) : Atomic :=
  let (ok, s) := s.txJoin g.id (p / 128) false
  if !ok then .wait s
  else
    let (ok, s) := s.txJoin g.id (p / 128) true
    if !ok then .wait s
    else
      let (bs, s) := s.loadGlobal g.core p n 0 (some g.id) (some i)
      let cur := (s.group g.id).txMerge p bs
      let (m, old) := (mk p).applyAt (Memory.setBytes [] p cur)
      if (s.group g.id).tx.isNone then .wait s
      else .old (if nt then 0 else old) (s.modGroup g.id (fun g => g.txBuffer p (Memory.bytes m p n) 0))

/-- Whether an atomic is one of floating point (07 Table 7-3). -/
def WriteOp.isFloat : WriteOp → Bool
  | .atom _ op _ _ => op == 7
  | _ => false

/-- Whether an atomic reaches its word now, so that an error there can be reported: an array of a local store is awake, and
one of the vaults is where the word holds an error (13 Table 13-4). -/
def State.atomicReach (s : State) (g : Group) (i : Nat) (sp : Space) (p n : Nat) : Bool × State :=
  match sp with
  | .loc => s.wakeArray (localArray g.core)
  | .vault => if (s.eccAt g sp p n).isNone then (true, s)
    else s.readArray (arrayOf (dieOfCore g.core) p) (.lane g.id i s.cur.pc)
  | .global => (true, s)

/-- An atomic by a lane on an address of a space: performed at its home (17 R309), its vault (17 R308) or its
local store; owed while a lease, a pin or the way to another module holds it back, in the order of the lanes (07 R134). An
`.NT` one gives a status, 0 where it is performed (07 R135). -/
def State.atomic (s : State) (g : Group) (i : Nat) (sp : Space) (a n : Nat) (nt : Bool) (mk : Nat → WriteOp) : Atomic :=
  match s.place g sp a n .write with
  | .error t => .trap t s
  | .ok p =>
    if s.testHeld g sp p || (sp == .global && s.routeHeld p) || (g.inTx i && s.ownAtomicPending g.id i sp (dieOfCore g.core) p) then
      .wait s
    else if sp == .loc && !(s.team g.team).present p then
      .wait (s.modLane g.id i (fun l => { l with park := 2, aux := p / 128 }))
    else match s.atomicReach g i sp p n with
    | (false, s) => .wait s
    | (true, s) => match s.eccTrap g sp p n with
    | some (x, s) => .trap x s
    | none => match sp with
    | .loc =>
          let (m, old) := (mk p).applyAt (s.team g.team).ls
          .old (if nt then 0 else old) ((s.modTeam g.team (fun t => { t with ls := m })).complete (some g.id) s.time)
    | .vault =>
      let die := dieOfCore g.core
      let (n, s) := s.fresh
      let h : VHeld := { die := die, gid := some g.id, lane := i, serial := n, status := nt, op := mk p }
      match s.vaultHolds h with
      | (true, s) => .owed n (s.holdWrite h)
      | (false, s) =>
        let old := (mk (die * 2 ^ 29 + p)).applyAt s.vault
        .old (if nt then 0 else old.2) (s.vaultPerform h)
    | .global =>
      match s.remoteAnswer p a (mk p).isFloat with
      | some t => if t.cause == 0x08 && nt then .old 1 s else .trap t s
      | none =>
        if g.inTx i then s.atomicTx g i p n nt mk
        else
          let s := s.coreConflict g.core (p / 128) g.id i
          let s := (s.writeBack g.core (p / 128)).dropL1 g.core (p / 128)
          let (n, s) := s.fresh
          let w : HWrite := { core := some g.core, gid := some g.id, lane := i, serial := n, op := mk p, status := nt }
          if s.performsNow (p / 128) then
            let old := (mk p).applyAt s.mem
            .old (if nt then 0 else old.2) (s.writeAtHome (p / 128) w)
          else .owed n (s.writeAtHome (p / 128) w)

/-- A 64-bit type of `ATOM` (07 Table 7-3). -/
def atomWide (f : Full) : Bool := 2 ≤ f.hint && f.fam % 8 < 7

/-- The operand of `ATOM` on a lane: its destination register as it stands. A queue gives none, and the
operand is a free value (assumption log 12). -/
def atomOperand (f : Full) (s : State) (g : Group) (i : Nat) : W64 × State :=
  let v := f.dst.toNat
  if f.xd && 0x40 ≤ v then s.drawWord
  else (readField (gW (if atomWide f then 64 else 32)) f.xd v g i 0, s)

/-- The compare value and the new value of `ATOM.CAS` on a lane (07 R133). A `k` register of `.X32` is read as
the pair; the operands that a `k` register or a queue cannot hold are free values (assumption log 12). -/
def casOperands (f : Full) (s : State) (g : Group) (i : Nat) : (W64 × W64) × State :=
  let v := f.dst.toNat
  let wide := f.fam % 2 == 1
  if f.xd then
    if v < 0x40 then
      let k := g.readK v
      if wide then
        let (n, s) := s.drawWord
        ((k, n), s)
      else ((k.setWidth 32 |>.setWidth 64, k >>> 32), s)
    else
      let (c, s) := s.drawWord
      let (n, s) := s.drawWord
      if wide then ((c, n), s) else ((c.setWidth 32 |>.setWidth 64, n.setWidth 32 |>.setWidth 64), s)
  else if wide then ((g.readG2 i v, g.readG2 i (v + 2)), s)
  else (((g.readG i v).setWidth 64, (g.readG i (v + 1)).setWidth 64), s)

/-- How an atomic ends on its lane. -/
def Atomic.finish (op : Op) (f : Full) (g : Group) : Atomic → LaneStep
  | .old v s => finishAlu s op f g [v] 0
  | .owed n s => .owe s n
  | .trap t s => .trapIn t s
  | .wait s => .stay s

/-- `ATOM` (07 R132, R134, R135). -/
def execAtom (f : Full) (s : State) : Result :=
  .next (laneExec .atom f s (fun s g _ i =>
    let (v, s) := atomOperand f s g i
    (s.atomic g i (spaceOf .atom f) (effAddr f g i) (atomBytes (f.fam % 8) f.hint) (8 ≤ f.fam)
      (fun p => .atom p (f.fam % 8) f.hint v)).finish .atom f g))

/-- `ATOM.CAS` (07 R133, R135). -/
def execAtomCas (f : Full) (s : State) : Result :=
  .next (laneExec .atomCas f s (fun s g _ i =>
    let ((c, n), s) := casOperands f s g i
    let wide := f.fam % 2 == 1
    (s.atomic g i (spaceOf .atomCas f) (effAddr f g i) (if wide then 8 else 4) (8 ≤ f.fam)
      (fun p => .cas p wide c n)).finish .atomCas f g))

/-! ### Cache operations (07 R131, 11 R222) -/

/-- A cache operation on each enabled lane whose address is a permitted global one; it never traps. A lane whose line
`held` waits. -/
def lineExec (op : Op) (f : Full) (s : State) (held : State → Nat → Bool) (act : State → Group → Nat → Nat → State) : State :=
  laneExec op f s (fun s g _ i =>
    if spaceOf op f != .global then .res s [] 0
    else match s.translate g.tenant (effAddr f g i) .read with
      | .error _ => .res s [] 0
      | .ok p => if held s p then .stay s else .res (act s g i p) [] 0)

/-- A lane as one that asks for a write-back now. -/
def State.asking (s : State) (g : Group) (i : Nat) : Sparse Nat := [(g.id * 32 + i, s.ticks + 1)]

/-- `CWB` (07 R131): the completion times of its write-backs return to its group too (07 R138). -/
def execCwb (f : Full) (s : State) : Result :=
  .next (lineExec .cwb f s (fun _ _ => false) (fun s g i p => s.writeBack g.core (p / 128) (s.asking g i)))
/-- `CINV` (07 R131): as `CWB`, then the line is dropped. -/
def execCinv (f : Full) (s : State) : Result :=
  .next (lineExec .cinv f s (fun _ _ => false) (fun s g i p => (s.writeBack g.core (p / 128) (s.asking g i)).dropL1 g.core (p / 128)))
/-- `PREF` (07 R131): both sectors of the line are fetched, once no row command holds it (18 R334); not from a module that
refuses. -/
def execPref (f : Full) (s : State) : Result :=
  .next (lineExec .pref f s (fun s p => s.fetchHeld p || s.bankHeld p) (fun s g _ p =>
    if (s.remoteRefusal p 0).isSome || s.routeHeld p then s
    else (s.l1Fetch g.core (p / 128) 0 f.hint).l1Fetch g.core (p / 128) 1 f.hint))

/-- `LSPRES` (11 R222). -/
def execLspres (f : Full) (s : State) : Result :=
  .next (laneExec .lspres f s (fun s g _ i =>
    let a := effAddr f g i
    let t := s.team g.team
    if t.lsBytes ≤ a then .trap (.protection a) else .res s [if t.present a then 1 else 0] 0))

/-! ### Fences (07 R140, 17 R314) -/

/-- Moves every lane of an issue past a group instruction, whose windows are over. -/
def State.passAll (s : State) : State :=
  s.modGroup s.cur.gid (fun g => g.advanceAll (lanesOf s.cur.lanes) s.cur.size)

/-- `FENCE` (07 R140): the group stalls past it. Its dirty lines are written back at once; a narrow scope waits
only for what `operandsReady` has already seen, a wide one for every write and engine of the group, then for
the device time. -/
def execFence (f : Full) (s : State) : Result :=
  if s.unsafeIssue .fence f then .next (s.txAbort s.cur.gid 7 0)
  else if (s.enabledFor f).isEmpty then .next s.passAll
  else
    let scope := f.fam % 8
    let slack := scope == 6
    let s := (s.writeBackGroup s.cur.gid).passAll
    .next (s.modGroup s.cur.gid (fun g => { g with wait := .fence (3 ≤ scope) slack }))

/-! ### Transactions (07 R141 to R145) -/

/-- `TXBEGIN` (07 R141, R142): opens a transaction whose lane set is the participating set; inside one it aborts
with `NESTED`, and its own lanes outside the set write `pd` false and go on. -/
def execTxbegin (f : Full) (s : State) : Result :=
  let gid := s.cur.gid
  let g := s.group gid
  let part := s.enabledFor f
  let all := lanesOf s.cur.lanes
  let pd := f.dst.toNat
  match g.tx with
  | none =>
    if part.isEmpty then .next s.passAll
    else
      let resume := s.cur.pc + w64 s.cur.size
      .next ((s.modGroup gid (fun g =>
        let g := part.foldl (fun g i => (g.modLane i (fun l => l.dropCells [.p pd])).writeP i pd true) g
        { g with txstat := 0, tx := some { lanes := maskOf part.contains, pd := pd, resume := resume } })).passAll)
  | some t =>
    if part.isEmpty then .next s.passAll
    else
      let s := s.txAbort gid 6 0
      .next (s.modGroup gid (fun g =>
        let out := all.filter (fun i => !inMask t.lanes i)
        let g := (out.filter part.contains).foldl (fun g i => g.writeP i pd false) g
        g.advanceAll out s.cur.size))

/-- The commit time of a transaction (17 R319): the latest of now and the times at which its written lines can
be written; on another module that time is a free value (assumption log 6). -/
def State.commitTime (s : State) (t : Tx) : Nat × State :=
  let local_ := (t.writes.map (fun ln =>
    let h := s.home ln
    max (if s.isRemote (ln * 128) then max h.emax (maxOf (h.queue.map (·.due))) else s.writeTime h) (h.pt.getD 0))).foldl max s.time
  if t.writes.any (fun ln => s.isRemote (ln * 128)) then
    let (d, s) := s.drawNat
    (max local_ (s.time + d % awayTime), s)
  else (local_, s)

/-- Whether a line has writes queued that another transaction has committed: one of another group, or of lanes that are no
party of this one (07 R142). -/
def State.txQueued (s : State) (g : Group) (line : Nat) : Bool := (s.home line).queue.any (fun w => w.tx && w.isOther g)

/-- Holds a line until the commit time `c` (17 R319): what the transaction writes to it is performed then, after the writes
queued before of the transaction's own lanes and of other transactions, and before those of other parties, which are
performed at `c` at the earliest. -/
def Home.holdFor (h : Home) (away : Bool) (t : Tx) (gid c : Nat) (mine : List HWrite) : Home :=
  let first := fun (w : HWrite) => w.tx || (w.gid == some gid && inMask t.lanes w.lane && w.row == 0)
  { h with
    pt := if away then h.pt else some (max c (h.pt.getD 0))
    queue := h.queue.filter first ++ mine ++
      (h.queue.filter (fun w => !first w)).map (fun w => { w with due := max c w.due }) }

/-- Every buffered write of a committed transaction is queued at its home, to be performed at the commit time, before
the writes of other parties that wait there; the lines of the read set are held until then (17 R319). For every other
transaction the queued writes count as writes at once. A line of another module is held by the time before which no write of
this module reaches it. -/
def State.txQueue (s : State) (g : Group) (t : Tx) (c : Nat) : State :=
  let s := t.writes.foldl (fun s ln =>
    let bs := t.buf.filterMap (fun x => if x.1 / 128 == ln then x.2.map (fun b => (x.1, b)) else none)
    let hints := (List.range 2).foldl (fun m k => Sparse.put 0 m k (Sparse.get 0 t.hints (2 * ln + k))) []
    let mine : HWrite := { gid := some g.id, op := .store bs, tx := true, set := t.lanes, due := c, hints := hints, sent := s.ticks }
    (s.setHome ((s.home ln).holdFor (s.isRemote (ln * 128)) t g.id c [mine])).txWriteConflict ln mine.isOther) s
  (t.reads.filter (fun ln => !t.writes.contains ln)).foldl (fun s ln =>
    let away := s.isRemote (ln * 128)
    let h := (s.home ln).holdFor away t g.id c []
    if s.time < c then s.setHome { h with emax := if away then max h.emax c else h.emax } else s) s

/-- `TXCOMMIT` (07 R144, 17 R319): it aborts where it finds another transaction's writes queued on a line of its sets. Where it
aborts, its participating lanes outside the lane set keep their `pd` and go on past it (assumption log 104). -/
def execTxcommit (f : Full) (s : State) : Result :=
  let gid := s.cur.gid
  let g := s.group gid
  let part := s.enabledFor f
  let pd := f.dst.toNat
  let write := fun (v : Bool) (g : Group) => part.foldl (fun g i => (g.modLane i (fun l => l.dropCells [.p pd])).writeP i pd v) g
  if part.isEmpty then .next s.passAll
  else match g.tx with
  | none => .next ((s.modGroup gid (fun g => { write false g with txstat := 9 })).passAll)
  | some t =>
    let stop := fun (cause : Nat) => Host.Outcome.next ((s.txAbort gid cause 0).modGroup gid (fun g =>
      g.advanceAll ((lanesOf s.cur.lanes).filter (fun i => !inMask t.lanes i)) s.cur.size))
    if maskOf part.contains != t.lanes then stop 8
    else if (t.reads ++ t.writes).any (s.txQueued g) then stop 1
    else
      let s := s.writeBackGroup gid
      let (c, s) := s.commitTime t
      let s := (s.modGroup gid (fun g => { write true g with tx := none, txstat := w32 (t.lines * 65536) })).passAll
      let s := s.txQueue g t c
      .next (t.writes.foldl (fun s ln => s.releaseHold ln) s)

/-- `TXABORT` (07 R144). Where lanes would pop an entry with an error, those trap and no lane moves (08 R166, assumption log
102). -/
def execTxabort (f : Full) (s : State) : Result :=
  let gid := s.cur.gid
  let g := s.group gid
  let part := s.enabledFor f
  match g.tx with
  | none => .next (laneExec .txabort f s (fun s _ _ _ => .res s [] 0))
  | some t =>
    match part.filter (inMask t.lanes) with
    | [] => .next (laneExec .txabort f s (fun s _ _ _ => .res s [] 0))
    | i :: _ =>
      if (s.queueTraps .txabort f).isSome then .next (laneExec .txabort f s (fun s _ _ _ => .res s [] 0))
      else if !(s.badPops .txabort f).isEmpty then .next (laneExec .txabort f s (fun s _ _ _ => .stay s))
      else
        let (got, s) := match popQueueOf .txabort f with
          | some q => s.popAll g.team q gid part
          | none => (part.map (fun j => (j, 0)), s)
        if !(got.any (fun x => x.1 == i)) then .next s
        else
          let code := (srcA .txabort f g i (poppedBy got i)).toNat % 256
          .next ((s.txAbort gid 5 code).modGroup gid (fun g =>
            g.advanceAll ((lanesOf s.cur.lanes).filter (fun i => !inMask t.lanes i)) s.cur.size))

/-- `TXSTAT` (07 R145). -/
def execTxstat (f : Full) (s : State) : Result :=
  .next (aluExec .txstat f s (fun g _ _ _ _ => ([g.txstat.setWidth 64], 0)))

end Sys2Proof.Machine
end

