-- ==== Sys2Proof/Machine/Latency.lean ====
section
/-! DEFINITION. How long results take (01 R14, 05 R77, R91, R408, 06 R110, 07 R146, 11 Table 11-5, 13 R247, R264,
18 R323, R347, 22 Table 22-3): the core cycles from an issue until its result retires, and which lanes wait for one. -/

namespace Sys2Proof.Machine

open Sys2Proof

/-! ### Results that are computed -/

/-- Whether a class names a pair of general registers. -/
def clsPair : Cls → Bool
  | .g 2 _ _ => true
  | _ => false

/-- The cycles to the result of an instruction that does not access memory, for a packet width of 8 or 4; none for one
that no rule times, whose result is there in the next cycle. -/
def opCycles (op : Op) (f : Full) (p8 : Bool) : Option Nat :=
  let sh := op.shape f
  let wide := clsPair sh.dst || clsPair sh.sa || clsPair sh.sb
  let by_ := fun (a b : Nat) => some (if p8 then b else a)
  match op with
  | .mov | .movi | .sel | .iadd | .isub | .imin | .imax | .iabs | .ineg | .shl | .shr | .sar | .rol | .and | .or | .xor
  | .andn | .not | .clz | .popc | .brev | .icmp => some (if wide then 6 else 4)
  | .lea | .pset | .pand | .por | .pxor | .pnot | .pmov => some 4
  | .imul | .imulh | .imad | .imadw => some 6
  | .idiv | .irem => some (if wide then 34 else 18)
  | .fadd | .fsub | .fmul | .ffma | .fmin | .fmax | .fcmp | .fclass | .frnd | .cvt | .hadd2 | .hfma2 | .badd2 | .bfma2
  | .qadd4 | .qmul4 | .qcvt => some 6
  | .bmm8 | .bmo8 | .bscat | .bgath | .bperm | .bfx | .bfi | .fshl | .fshr => some 6
  | .matchLanes | .vote | .voteMc | .shfl | .redux => some 8
  | .wadd | .wsub | .wmul | .wfma | .wmin | .wmax | .wscl | .wbcst | .wset | .wget | .wsum | .wcmp | .wsel | .wcvt
  | .wpack | .wlen | .muelF | .muelRot => by_ 6 8
  | .wfres | .muelG => by_ 10 14
  | .rdsr | .clock | .qstat | .txstat | .tcstat | .lspres => some 8
  | .frcp | .frsq => some 12
  | .fexp2 | .flog2 => some 14
  | .fsqrt => some 16
  | .fsin | .fcos => some 20
  | .wexp => by_ 16 18
  | .tqry => some 12
  | .tfet | .tsmpF => some 32
  | .tsmpW | .tups => by_ 36 40
  | _ => none

/-! ### Results that are loaded -/

/-- The mesh links of a route between two clusters, along the row first or along the column first (13 R243). -/
def meshRoute (a b : Nat) (rowFirst : Bool) : List (Nat × Nat) :=
  let along := fun (r c c' : Nat) => (List.range 4).filterMap (fun k =>
    if min c c' ≤ k && k < max c c' then some (r * 4 + k, r * 4 + k + 1) else none)
  let across := fun (c : Nat) => if a / 4 == b / 4 then [] else [(c, c + 4)]
  if rowFirst then along (a / 4) (a % 4) (b % 4) ++ across (b % 4) else across (a % 4) ++ along (b / 4) (a % 4) (b % 4)

/-- The cycles of an access from a cluster to a vault of its die (13 Table 13-3); a failed link sends it along the
column first, or, where that fails too, by a detour of two hops (13 R264). -/
def State.vaultCycles (s : State) (die cluster vault : Nat) : Nat :=
  let open_ := fun (l : List (Nat × Nat)) => !l.any (fun x => s.meshDown.contains (die, x.1, x.2))
  let base := [40, 90, 125, 160, 200].getD (meshRoute cluster vault true).length 200
  if open_ (meshRoute cluster vault true) || open_ (meshRoute cluster vault false) then base else base + 70

/-- The cycles of a global load (07 Table 7-6): an L1 hit, or the access to its home. -/
def State.globalCycles (s : State) (core pa : Nat) : Nat :=
  match s.l1Line? core (pa / 128) with
  | some l => if s.time < l.lease && (if pa / 64 % 2 == 0 then l.v0 else l.v1) then 28 else s.homeCycles core pa
  | none => s.homeCycles core pa

/-- The cycles of the access of a load or an atomic on a lane. -/
def State.accessCycles (s : State) (g : Group) (op : Op) (f : Full) (i : Nat) : Nat :=
  let a := effAddr f g i
  match spaceOf op f with
  | .loc => 18
  | .vault => s.vaultCycles (dieOfCore g.core) (clusterOfCore g.core) (a / 2 ^ 26 % 8)
  | .global => match s.translate g.tenant a .read with
    | .error _ => 0
    | .ok pa => match op with
      | .atom | .atomCas => s.homeCycles g.core pa
      | _ => s.globalCycles g.core pa

/-- Whether an operation returns what it reads of a memory (07 R140). -/
def opReturns : Op → Bool
  | .ldG | .ldL | .ldV | .ldv | .tld | .ldw | .atom | .atomCas => true
  | _ => false

/-- Whether an operation reads memory into a register: a load, an atomic, or a texture read (17 R313). -/
def opReads (op : Op) : Bool :=
  opReturns op || (match op with
    | .tsmpW | .tups | .tsmpF | .tfet | .tqry => true
    | _ => false)

/-- Whether an operation accesses memory (17 R313). -/
def opAccesses (op : Op) : Bool :=
  opReads op || (match op with
    | .stG | .stL | .stV | .stv | .stw | .tst | .cwb | .cinv | .pref | .fsplatW | .spawn | .cont | .join | .tcopy | .tcopy2d
    | .bobjInit | .bobjExpect | .bobjWait | .rowCopy | .rowFill | .rowAnd | .rowOr | .rowXor | .rowNot | .rowMaj | .rowAllb
    | .rowBcst | .rowMac | .rowSadd | .rowRdacc | .rowProg => true
    | _ => false)

/-- The cycles from issue to retirement on a lane (05 R408): four more where a source lies in the slow partition
(01 R14). -/
def State.resultCycles (s : State) (g : Group) (op : Op) (f : Full) (i : Nat) : Nat :=
  let slow := if (f.uses op).any (fun r => match r with
    | .g n => 192 ≤ n
    | _ => false) then 4 else 0
  if opReturns op then s.accessCycles g op f i + slow
  else match opCycles op f g.pkt8 with
    | some n => n + slow
    | none => 0

/-! ### Waiting for a result -/

/-- The operations of an instruction with their fields: one, or the two halves of a pair. -/
def instrOps (i : Instr) : List (Op × Full) :=
  match i.full? with
  | some x => [x]
  | none => match i.comp? with
    | some (c, x) => [(c.op, x.expand)]
    | none => match i with
      | .p64Pair as h0 h1 => [(h0.op.op, h0.expand as), (h1.op.op, h1.expand as)]
      | _ => []

/-- Whether a lane is inside the window of a result for a register. -/
def Lane.inWindow (l : Lane) (r : Reg) : Bool := l.pend.any (fun p => p.window != 0 && p.cells.any (fun c => c.1.reg == r))

/-- A lane's registers `rs` can be read from the tick `t` on. Within the window of a result (`long`) the registers keep
what they held before it, and that is awaited until its own time: an earlier result whose own window is over stays awaited
there, while one whose window is open is dropped. Writes of a register retire in program order (02 R35 rules 2 and 3). A push
into a queue makes no reader wait (05 R408). -/
def Lane.noteResult (l : Lane) (now : Nat) (rs : List Reg) (t : Nat) (long : Bool) : Lane :=
  let rs := rs.filter (fun r => !r.isQueue)
  let live := l.busy.filter (fun x => now < x.2.1 && !(rs.contains x.1 && x.2.2 && l.inWindow x.1))
  let left := live.filterMap (fun x => if !rs.contains x.1 then some x else if long then some (x.1, x.2.1, false) else none)
  let after := fun (r : Reg) => maxOf (t :: (live.filter (fun x => x.1 == r)).map (fun x => x.2.1))
  { l with busy := left ++ rs.map (fun r => (r, after r, long)) }

/-- The unmarked instructions that a later marked load of the lane awaits (08 R158). -/
def opAwaited : Op → Bool
  | .stG | .stL | .stV | .stv | .stw | .tst | .atom | .atomCas | .cwb | .cinv | .txcommit => true
  | _ => false

/-- The module that a global load or atomic of a lane asks (15 R289). -/
def State.askedModule (s : State) (g : Group) (op : Op) (f : Full) (i : Nat) : Option Nat :=
  if !opReturns op || spaceOf op f != .global then none
  else match s.translate g.tenant (effAddr f g i) .read with
    | .error _ => none
    | .ok pa => some (moduleOf pa)

/-- The addresses that an instruction translates on its lanes: those of its global accesses, and of a `JOIN`'s counter. -/
def State.translated (s : State) (g : Group) (op : Op) (f : Full) : List Nat :=
  let takes := opReturns op || (match op with
    | .stG | .stv | .stw | .tst | .pref | .cwb | .cinv => true
    | _ => false)
  if op == .join then
    if f.popsQueue op then [] else (s.enabledFor f).map (fun i => (srcA op f g i 0).toNat)
  else if !takes || spaceOf op f != .global then []
  else (s.enabledFor f).map (effAddr f g)

/-- The cycles to the results of an instruction on a lane: the two halves of a pair retire together (02 R40). -/
def State.instrCycles (s : State) (g : Group) (i : Instr) (j : Nat) : Nat :=
  maxOf ((instrOps i).map (fun x => if g.readP j x.2.gp.toNat != x.2.gn then s.resultCycles g x.1 x.2 j else 0))

/-- The results of an instruction that issues are noted on the lanes that it takes effect on. -/
def State.timeResults (s : State) (i : Instr) : State :=
  let g := s.group s.cur.gid
  let s := (instrOps i).foldl (fun s x => s.useTlbs g.core g.tenant (s.translated g x.1 x.2)) s
  (instrOps i).foldl (fun s x =>
    let rs := x.2.writes x.1
    let after := !x.2.as && opAwaited x.1
    if rs.isEmpty && !opReturns x.1 && !after then s
    else (s.enabledFor x.2).foldl (fun s j =>
      let t := s.ticks + 5 * s.instrCycles g i j
      s.modLane s.cur.gid j (fun l =>
        { l.noteResult s.ticks rs t (x.2.la != 0) with
          reads := l.reads.filter (fun r => s.ticks < r.2.1) ++ (if opReads x.1 then rs.map (fun r => (r, t, x.2.as)) else [])
          asks := l.asks.filter (fun a => s.ticks < a.2.1) ++ ((s.askedModule g x.1 x.2 j).map (fun m => (s.ticks, t, m))).toList
          back := if opReturns x.1 then max l.back t else l.back
          stored := l.stored || after }))
      s) s

/-- Whether a result for a register of a lane has not retired; of those of an open window (`inside`) only what the
register held before it counts. -/
def Lane.isBusy (l : Lane) (now : Nat) (r : Reg) (inside : Bool) : Bool :=
  l.busy.any (fun x => x.1 == r && now < x.2.1 && !(inside && x.2.2))

/-- Whether an access of a lane, with marker `as`, must wait for the value of an earlier load, atomic or texture read
outside whose window it lies; a marked one waits for no unmarked one (17 R313). -/
def Lane.behindRead (l : Lane) (now : Nat) (as : Bool) : Bool :=
  l.reads.any (fun x => now < x.2.1 && (x.2.2 || !as) && !l.inWindow x.1) ||
  l.pend.any (fun p => p.window == 0 && p.cells.any (fun c => c.2.isNone) && (match p.atom with
    | some m => m || !as
    | none => false))

/-- Whether a lane must wait for a result before it reads `rs` (05 R408, 02 R35 rule 3), or before an instruction that
ends its windows (02 R35 rule 4). Inside a window the earlier value is read, when that is there. A scalar register of
the group is awaited whichever lane writes it. -/
def Group.waitsFor (g : Group) (i now : Nat) (rs : List Reg) (ends : Bool) : Bool :=
  let l := g.lane i
  let busy := fun (r : Reg) (inside : Bool) => match r with
    | .k _ => g.live.any (fun j => (g.lane j).isBusy now r inside)
    | _ => l.isBusy now r inside
  rs.any (fun r => busy r (l.inWindow r)) || (ends && l.pend.any (fun p => p.cells.any (fun c => busy c.1.reg false)))

end Sys2Proof.Machine
end

