-- ==== Sys2Proof/Machine/Issue.lean ====
section
/-! DEFINITION. Issue: fetching and decoding at a program counter (02 R28, R42), when a lane is ready (08 R152
to R155, 02 R35, 09 R181), which addresses a cycle issues (08 R153), and the checks that come before a
sequencer instruction (10 R203) or a row-program step (18 R342). -/

namespace Sys2Proof.Machine

open Sys2Proof

/-! ### Fetch and decode -/

/-- A 32-bit word of a tenant's text as a core reads it, or the trap that its fetch raises. -/
def State.fetchWord (s : State) (core tenant a : Nat) : Except Trap W32 :=
  match s.translate tenant (a % 2 ^ 64) .exec with
  | .error t => .error t
  | .ok pa => match s.remoteRefusal pa a with
    | some t => .error t
    | none => .ok (w32 (leVal ((List.range 4).map (fun i => s.textByte core (pa + i)))))

/-- What a fetch at an address gives: an instruction with its words, or a decode trap with the words fetched. -/
inductive Fetched where
  | instr (i : Instr) (ws : List W32)
  | trap (t : Trap) (ws : List W32)

/-- Words fetched one after another, up to the first that faults. -/
def State.fetchWords (s : State) (core tenant a : Nat) : Nat → List W32 × Option Trap
  | 0 => ([], none)
  | n + 1 =>
    match s.fetchWord core tenant a with
    | .error t => ([], some t)
    | .ok w =>
      let (ws, t) := s.fetchWords core tenant (a + 4) n
      (w :: ws, t)

/-- Fetch and decode at a program counter (02 Table 2-8 steps 1 to 7). -/
def State.fetchAt (s : State) (core tenant : Nat) (pc : W64) : Fetched :=
  match s.fetchWord core tenant pc.toNat with
  | .error t => .trap t []
  | .ok w0 =>
    let (ws, t) := s.fetchWords core tenant (pc.toNat + 4) (formWords w0 - 1)
    match t with
    | some t => .trap t (w0 :: ws)
    | none =>
      match decodeWords (w0 :: ws) with
      | .ok i => .instr i (w0 :: ws)
      | .illegal d => .trap (.illegal d) (w0 :: ws)
      | .illegalPair d => .trap { cause := 0x02, detail := d } (w0 :: ws)
      | .short => .trap (.illegal 0x02) (w0 :: ws)

/-- The words at a program counter, as far as they can be fetched. -/
def State.wordsAt (s : State) (core tenant : Nat) (pc : W64) : List W32 :=
  match s.fetchAt core tenant pc with
  | .instr _ ws => ws
  | .trap _ ws => ws

/-! ### What an instruction names -/

/-- The registers that the fields of a lane instruction name as sources (02 R39). -/
def instrReads (i : Instr) : List Reg := (instrOps i).flatMap (fun x => x.2.reads x.1)

/-- Instructions whose operands are those of the lowest enabled lane alone (13 R252, R254). -/
def lowestOnly (op : Op) : Bool :=
  match op with
  | .bobjInit | .bobjExpect | .bobjWait | .tcopy | .tcopy2d => true
  | _ => false

/-- The lanes, of those that issue an operation, on which it reads its operands (02 R34, 13 R252): those whose guard is
true, or the lowest of them. -/
def Group.readers (g : Group) (lanes : List Nat) (op : Op) (f : Full) : List Nat :=
  let en := lanes.filter (fun i => g.readP i f.gp.toNat != f.gn)
  if lowestOnly op then en.take 1 else en

/-- The check of register budgets, step 8 of 02 Table 2-8 (01 R13): none, or the `DETAIL` of `REG_RANGE`. -/
def rangeTrap (i : Instr) (n m : Nat) : Option Nat :=
  let bad := fun (op : Op) (f : Full) => (f.named op).any (fun r => r.outside n m)
  match i.full? with
  | some (op, f) => if bad op f then some 0 else none
  | none =>
    match i.comp? with
    | some (c, x) => if bad c.op x.expand then some 0 else none
    | none => match i with
      | .p64Pair as h0 h1 =>
        if bad h0.op.op (h0.expand as) then some 0 else if bad h1.op.op (h1.expand as) then some 0x80 else none
      | _ => none

/-- The guard of a lane instruction (02 R34). -/
def instrGuard (i : Instr) : Nat × Bool :=
  match i.full? with
  | some (_, f) => (f.gp.toNat, f.gn)
  | none => (0, false)

/-- The opcode of a lane instruction in the full form. -/
def instrOp (i : Instr) : Option Op := i.full?.map (·.1)

/-- Instructions that end every lookahead window of their lane (02 R35 rule 4); a `BRA` or `CALL` only where
it is taken. "Any barrier" takes in `BOBJ.INIT`, `BOBJ.EXPECT` and `BOBJ.WAIT`, the model's choice (assumption log 107). -/
def endsWindow (i : Instr) (taken : Bool) : Bool :=
  match instrOp i with
  | some op => match op with
    | .bra => taken
    | .brx | .call | .ret | .exit | .cont | .jarr | .yield | .nap | .barTeam | .barNum | .barTree | .mbar
    | .fence | .txcommit | .bobjInit | .bobjExpect | .bobjWait => true
    | _ => false
  | none => false

/-- Instructions that issue only when every lane of the group that has not ended stands at them (09 R181,
10 R201, 13 R252, R254). -/
def collective (i : Instr) : Bool :=
  match instrOp i with
  | some op => match op with
    | .barTeam | .barNum | .barTree | .mbar | .bobjInit | .bobjExpect | .bobjWait | .tcopy | .tcopy2d => true
    | _ => false
  | none => false

/-! ### Readiness (08 R152, R154) -/

/-- A lane that has not ended, is not parked and waits for nothing (08 R154). -/
def Lane.runnable (l : Lane) : Bool := !l.ended && l.park == 0 && l.wait == .none

/-- Whether a group can issue at all: not stopped by a trap, not being pre-empted, not stalled as a whole, not
held out by a stall hint (01 R23, 07 R140, 15 R289). -/
def Group.canIssue (g : Group) (now : Nat) : Bool :=
  !g.stopped && !g.preempt && g.wait == .none && g.hint ≤ now && (g.tx.isNone || !g.txGone)

/-- Whether an operation is a marked load that must wait until an earlier unmarked store, atomic, `CWB`, `CINV` or
transaction of its lane is performed (08 R158 item 4). -/
def State.behindStore (s : State) (g : Group) (i : Nat) (op : Op) (f : Full) : Bool :=
  f.as && (match op with
    | .ldG | .ldL | .ldV | .ldv | .tld | .ldw => true
    | _ => false) && (g.lane i).stored && s.unperformed g.id

/-- Whether a lane must push before it goes on: a value that it owes a queue whose port checks it (02 R36, 11 R231, 18
R330), or one for any queue that is known, its window over (09 R187, R192). -/
def State.mustPush (s : State) (g : Group) (i : Nat) : Bool :=
  (g.lane i).pend.any (fun p => p.cells.any (fun c => match c.1 with
    | .q q => (c.2.isSome && p.window == 0) || (match ((s.team g.team).queues.getD q {}).port with
      | 5 | 7 => true
      | _ => false)
    | _ => false))

/-- The synchronising instructions, which neither stream of a lane passes until both have reached them (08 R159). -/
def synchronises (op : Op) : Bool :=
  match op with
  | .jarr | .yield | .nap | .exit | .cont | .spawn | .join | .barTeam | .barNum | .barTree | .mbar | .fence | .txbegin
  | .txcommit | .txabort | .txstat | .trap | .bkpt | .fwcall | .rdsr | .wrsr | .qbind | .qflush | .bobjInit | .bobjExpect
  | .bobjWait => true
  | _ => false

/-- Whether a stream of a lane is blocked: a push of it waits for room in its stream queue (08 R160). -/
def Lane.overfull (l : Lane) : Bool := portDepth 1 < l.fwd.length || portDepth 2 < l.ret.length

/-- Whether what an instruction needs on a lane of those that stand at it is there (02 R35, 05 R408): its guard and its
operands, whatever the guard, but where the lowest enabled lane alone reads them only there (13 R252); for a queue
that it pushes to, what it owes that queue already; and at a synchronising instruction both streams of the lane. -/
def State.operandsReady (s : State) (g : Group) (here : List Nat) (i : Nat) (ins : Instr) : Bool :=
  let (gp, gn) := instrGuard ins
  let ends := endsWindow ins (g.readP i gp != gn)
  !s.mustPush g i && (instrOps ins).all (fun x =>
    let qs := (x.2.writes x.1).filter Reg.isQueue
    let rs := if !lowestOnly x.1 || (g.readers here x.1 x.2).contains i then x.2.uses x.1 else [.p x.2.gp.toNat]
    !(g.lane i).owedFor (rs ++ qs) ends && !g.scalarOwed rs && !g.waitsFor i s.ticks rs ends &&
      !(synchronises x.1 && (g.lane i).overfull) &&
      !(opAccesses x.1 && (g.lane i).behindRead s.ticks x.2.as) && !s.behindStore g i x.1 x.2)

/-- Whether a fetch of an instruction waits for a row command that holds its line (18 R334). -/
def State.textHeld (s : State) (tenant : Nat) (pc : W64) : Bool :=
  match s.translate tenant pc.toNat .exec with
  | .ok pa => s.fetchHeld pa
  | .error _ => false

/-- The lanes that are ready at an address whose text can be fetched (08 R152, 09 R181): runnable, not yielding unless `all`, with their operands;
at a collective instruction, all or none, unless lanes that trapped at it replay it (07 R137; DEDUCED,
assumption log 13). -/
def State.readyAt (s : State) (g : Group) (all : Bool) (pc : W64) : List Nat :=
  let here := g.live.filter (fun i => (g.lane i).pc == pc && (g.lane i).runnable && (all || (g.lane i).yield == 0))
  if s.textHeld g.tenant pc then [] else
  match s.fetchAt g.core g.tenant pc with
  | .trap _ _ => here
  | .instr ins _ =>
    let ok := here.filter (fun i => s.operandsReady g here i ins)
    if collective ins && ok.length != g.live.length && !ok.all (fun i => (g.lane i).replay) then [] else ok

/-- The distinct program counters of a group's lanes. -/
def Group.pcs (g : Group) : List W64 := (g.live.map (fun i => (g.lane i).pc)).eraseDups

/-- The addresses of a group that hold ready lanes, with those lanes; with `all` the yielding ones too. -/
def State.setsOf (s : State) (g : Group) (all : Bool) : List (W64 × List Nat) :=
  if !g.canIssue s.time then [] else (g.pcs.map (fun pc => (pc, s.readyAt g all pc))).filter (fun x => !x.2.isEmpty)

/-- The addresses at which a group has ready lanes, with those lanes. A `YIELD` holds lanes back only while another
address holds a ready lane (09 R175); one whose instruction could not issue in this cycle is none. -/
def State.readySets (s : State) (g : Group) : List (W64 × List Nat) :=
  let sets := s.setsOf g false
  if sets.all (fun x => x.2.all (fun i => (g.lane i).tried == .stayed)) then s.setsOf g true else sets

/-! ### Which addresses issue (08 R153) -/

/-- The rank of a branch hint: group-uniform, likely, none, unlikely (08 R153). -/
def hintRank (ins : Option Instr) : Nat :=
  match ins.bind Instr.full? with
  | some (.bra, f) | some (.brx, f) | some (.call, f) =>
    match f.mod.toNat % 4 with
    | 3 => 0
    | 1 => 1
    | 0 => 2
    | _ => 3
  | _ => 2

/-- The instruction at an address, if it decodes. -/
def State.peek (s : State) (g : Group) (pc : W64) : Option Instr :=
  match s.fetchAt g.core g.tenant pc with
  | .instr i _ => some i
  | .trap _ _ => none

/-- Inserts an element into a list ordered by `lt`. -/
def insertBy {α : Type} (lt : α → α → Bool) (x : α) : List α → List α
  | [] => [x]
  | y :: r => if lt y x then y :: insertBy lt x r else x :: y :: r

/-- Sorts a list by `lt`. -/
def sortBy {α : Type} (lt : α → α → Bool) (l : List α) : List α := l.foldr (insertBy lt) []

/-- The general-register banks that the instruction at an address reads. -/
def State.banksAt (s : State) (g : Group) (pc : W64) : List Nat :=
  match s.peek g pc with
  | some i => Sys2Proof.banks (instrReads i)
  | none => []

/-- The addresses of a group's ready lanes in the order in which a cycle picks them (08 R153): the old ones by age first,
then by population, hint and address. -/
def State.pickOrder (s : State) (g : Group) (sets : List (W64 × List Nat)) : List (W64 × List Nat) :=
  let age := fun (x : W64 × List Nat) => maxOf (x.2.map (fun i => (g.lane i).age))
  let old := sortBy (fun a b => age b < age a || (age a == age b && a.1.toNat < b.1.toNat)) (sets.filter (fun x => 32 ≤ age x))
  let hr := fun (x : W64 × List Nat) => hintRank (s.peek g x.1)
  let young := sortBy (fun a b => b.2.length < a.2.length ||
    (a.2.length == b.2.length && (hr a < hr b || (hr a == hr b && a.1.toNat < b.1.toNat))))
    (sets.filter (fun x => age x < 32))
  old ++ young

/-- The address at which an instruction of a lane issued in this cycle. -/
def Tried.issuedAt : Tried → Option W64
  | .issued pc => some pc
  | _ => Option.none

/-- The addresses at which instructions of a group have issued in this cycle. -/
def Group.issuedPcs (g : Group) : List W64 := (g.lanes.filterMap (fun l => l.tried.issuedAt)).eraseDups

/-- Whether a partition has considered a group in this cycle. -/
def Group.seen (g : Group) : Bool := g.lanes.any (fun l => l.tried != .none)

/-- The addresses of a group that can issue in this cycle: those of its ready lanes, once it has been considered only of those
that were found ready then and have not been tried. -/
def State.untried (s : State) (g : Group) : List (W64 × List Nat) :=
  ((s.readySets g).map (fun x => (x.1, x.2.filter (fun i => match (g.lane i).tried with
    | .none => !g.seen
    | .ready => true
    | _ => false)))).filter (fun x => !x.2.isEmpty)

/-- The picks of a cycle (08 R153): at most two addresses, the second only where its source banks are disjoint from the
first's. An address whose instruction could not issue after all was not ready, and the next takes its place. -/
def State.picks (s : State) (g : Group) : List (W64 × List Nat) :=
  let apart := fun (a b : W64) => disjointBanks (s.banksAt g a) (s.banksAt g b)
  match g.issuedPcs, s.pickOrder g (s.untried g) with
  | [], a :: b :: _ => if apart a.1 b.1 then [a, b] else [a]
  | [], l => l
  | [a], b :: _ => if apart a b.1 then [b] else []
  | _, _ => []

/-- The ready lanes of a group that a partition has chosen (08 R153). -/
def Group.noteReady (g : Group) (ready : List (W64 × List Nat)) : Group :=
  g.modLanes ((ready.map (·.2)).flatten) (fun l => { l with tried := .ready })

/-- A lane after its group's issue cycle, in which the addresses `pcs` issued (08 R153, 09 R175): its `Age`, and its `YIELD`,
which another address of the group ends, and which else counts the issue cycle. -/
def Lane.endCycle (l : Lane) (pcs : List W64) : Lane :=
  match l.tried with
  | .issued _ => { l with tried := .none, age := 0 }
  | t =>
    let y := if l.yield == 0 || pcs.isEmpty then l.yield else if pcs.any (· != l.pc) then 0 else max 1 (l.yield - 1)
    { l with tried := .none, age := if t == .ready && l.yield == 0 then l.age + 1 else l.age, yield := y }

/-- The end of a cycle's issues: the ages and `YIELD`s of the lanes, and which group each partition chose (08 R152, R153). -/
def State.endIssues (s : State) : State :=
  let chosen := s.groups.filter (fun g => !g.issuedPcs.isEmpty)
  let s := chosen.foldl (fun (s : State) g =>
    { s with cores := modAt (fun c => { c with last := setAt c.last g.part (g.resident + 1) }) s.cores g.core }) s
  { s with groups := s.groups.map (fun g =>
      let pcs := g.issuedPcs
      { g with lanes := g.lanes.map (fun l => l.endCycle pcs) }) }

/-- The group that a partition issues from (08 R152): the first ready one, in residency order, after the one
it chose last. -/
def State.chooseGroup (s : State) (core part : Nat) : Option Group :=
  let here := sortBy (fun (a b : Group) => a.resident < b.resident) (s.groups.filter (fun g => g.core == core && g.part == part))
  let last := (s.cores.getD core {}).last.getD part 0
  let after := here.filter (fun g => last < g.resident + 1)
  let before := here.filter (fun g => g.resident + 1 ≤ last)
  match here.find? (fun g => !g.issuedPcs.isEmpty) with
  | some g => some g
  | none => (after ++ before).find? (fun g => !(s.untried g).isEmpty)

/-- One partition's issue for this cycle: the chosen group's picks as work. -/
def State.issuePartition (s : State) (core part : Nat) : State :=
  match s.chooseGroup core part with
  | none => s
  | some g =>
    let picked := s.picks g
    let s := if g.seen then s else s.modGroup g.id (fun g => g.noteReady (s.setsOf g true))
    s.push (picked.map (fun p => .lane g.id p.1 (maskOf p.2.contains)))

/-- Whether a pick of a partition could not issue in this cycle, so that it picks again. -/
def State.missed (s : State) (core part : Nat) : Bool :=
  s.groups.any (fun g => g.core == core && g.part == part && g.lanes.any (fun l => l.tried == .stayed))

/-! ### Issue of one address (02 R42) -/

/-- What comes of an attempt to issue: an instruction to execute, or a state in which nothing executes. -/
inductive Issued where
  | run (i : Instr) (s : State)
  | idle (s : State)

/-- Whether an operation reads a register that holds an uncorrectable error (01 R15): its guard on a lane that it issued
to, or an operand on a lane that reads it. -/
def Group.readsBad (g : Group) (lanes : List Nat) (op : Op) (f : Full) : Bool :=
  let js := match op with
    | .jenr | .jstr => [f.dst.toNat]
    | .jarr => [f.sa.toNat]
    | _ => []
  let bad := fun (i : Nat) (r : Reg) => match r with
    | .q _ | .p 0 => false
    | .k _ => g.bad.contains (regKey 0 r)
    | _ => g.bad.contains (regKey i r)
  !g.bad.isEmpty && (lanes.any (fun i => bad i (.p f.gp.toNat)) ||
    (g.readers lanes op f).any (fun i => (f.uses op).any (bad i) || js.any (fun j => g.bad.contains (joinKey j))))

/-- The `DETAIL` of `REG_ECC` for an instruction that reads a register with an uncorrectable error: 0, with bit [7] naming
the half of a pair (02 R39). -/
def Group.eccDetail (g : Group) (lanes : List Nat) (ins : Instr) : Option Nat :=
  match (instrOps ins).map (fun x => g.readsBad lanes x.1 x.2) with
  | true :: _ => some 0
  | [_, true] => some 0x80
  | _ => none

/-- Lanes of a group issue at an address: they yield no longer. -/
def Group.noteIssue (g : Group) (pc : W64) (lanes : List Nat) : Group :=
  g.modLanes lanes (fun l => { l with tried := .issued pc, yield := 0, stuck := false })

/-- Issue of lanes of a group at an address, those of them that are ready still: the instruction is fetched, decoded and
checked against the budgets, and a decode trap covers every lane it issued to (01 R23). The times of its results are
noted before it runs. -/
def State.issueLane (s : State) (gid : Nat) (pc : W64) (picked : W32) : Issued :=
  match s.group? gid with
  | none => .idle s
  | some g =>
    if !g.canIssue s.time then .idle s
    else
      let lanes := (s.readyAt g true pc).filter (inMask picked)
      if lanes.isEmpty then .idle s
      else
        let s := s.modGroup gid (fun g => g.noteIssue pc lanes)
        let all := fun (t : Trap) => lanes.map (fun i => (i, t))
        match s.fetchAt g.core g.tenant pc with
        | .trap t ws =>
          if t.isMem && lanes.any g.inTx then
            let s := s.txAbort gid 4 0
            .idle (s.takeTrap gid pc ws ((lanes.filter (fun i => !g.inTx i)).map (fun i => (i, t))))
          else .idle (s.takeTrap gid pc ws (all t))
        | .instr ins ws =>
          match rangeTrap ins g.n g.m with
          | some d => .idle (s.takeTrap gid pc ws (all { cause := 0x03, detail := d }))
          | none =>
          match g.eccDetail lanes ins with
          | some d =>
            .idle ((s.takeTrap gid pc ws (all { cause := 0x04, detail := d })).raiseError { sev := 1, src := 1, tenant := g.tenant } 1
              (g.core * 4 + g.part))
          | none =>
            let (gp, gn) := instrGuard ins
            let s := s.modGroup gid (fun g => lanes.foldl (fun g i =>
              g.retire i (endsWindow ins (g.readP i gp != gn))) g)
            let cur : Cur := { gid := gid, pc := pc, size := 4 * ws.length, lanes := maskOf lanes.contains, words := ws,
                               team := g.team }
            .run ins (State.timeResults ({ s with cur := cur }.useTlb g.core g.tenant pc.toNat) ins)

/-! ### The sequencer's and the row program's streams -/

/-- Whether a team is being pre-empted: no engine takes a further entry of it (08 R163, 09 R195, 10 R215). -/
def State.preempting (s : State) (team : Nat) : Bool := s.groups.any (fun (g : Group) => g.team == team && g.preempt)

/-- The sequencer of a team. -/
def State.seq? (s : State) (team : Nat) : Option Sequencer := (s.team? team).bind (·.seq)

/-- Changes the sequencer of a team. -/
def State.modSeq (s : State) (team : Nat) (f : Sequencer → Sequencer) : State :=
  s.modTeam team (fun t => { t with seq := t.seq.map f })

/-- Empties a slot: its pins are released with it (10 R205). -/
def emptySlot : Slot := {}

/-- The errors of slots that are emptied are gone with their bytes (10 R213). -/
def State.clearSlots (s : State) (team : Nat) (ns : List Nat) : State :=
  { s with poison := s.poison.filter (fun x => !(x.1 == 6 && x.2 / 8 == team && ns.contains (x.2 % 8))) }

/-- The error record of a halt (10 Table 10-5). -/
def seqError (code addr : Nat) (tile : Option Nat) : W64 :=
  w64 (code + (match tile with | some t => t * 2 ^ 8 + 2 ^ 15 | none => 0) + addr % 2 ^ 29 * 2 ^ 32)

/-- A halt (10 R213, R214): it waits for every earlier `MMA` to retire, marks a tile invalid where one is named,
empties every slot, records the error, and traps the lanes of the team that wait at a matrix or numbered
barrier, those too of a group that another trap has stopped (assumption log 88). `pc` is the address of the instruction
where it is not the one that issues. -/
def State.haltSeq (s : State) (team code addr : Nat) (tile : Option Nat) (pc : Option W64 := none) : State :=
  if ((s.seq? team).map (fun q => !q.mma.isEmpty)).getD false then s
  else
  let s := (s.clearSlots team (List.range 8)).modSeq team (fun q =>
    { q with st := .halted, epc := pc.getD q.pc, err := seqError code addr tile, pushed := 0,
             a := q.a.map (fun _ => emptySlot), b := q.b.map (fun _ => emptySlot),
             acc := match tile with | some t => modAt (fun x => { x with valid := false }) q.acc t | none => q.acc })
  let s := s.releasePins
  let waiting := s.groups.filter (fun g => g.team == team)
  waiting.foldl (fun s g =>
    let ls := g.live.filter (fun i => match (g.lane i).wait with | .num _ _ _ => true | _ => false)
    match ls with
    | [] => s
    | i :: _ =>
      let s := s.modGroup g.id (fun g => g.modLanes ls (fun l => { l with wait := .none }))
      let pc := (g.lane i).pc
      s.takeTrap g.id pc (s.wordsAt g.core g.tenant pc) (ls.map (fun j => (j, { cause := 0x0A, detail := code })))) s

/-- A word of a sequencer's stream, fetched through the L1 of its core (10 R202). -/
def State.fetchSeq (s : State) (t : Team) (pc : Nat) : Except Trap (W32 × State) :=
  match s.translate t.tenant (pc % 2 ^ 64) .exec with
  | .error x => .error x
  | .ok pa => match s.remoteRefusal pa pc with
    | some x => .error x
    | none =>
      let (bs, s) := (s.useTlb t.core t.tenant (pc % 2 ^ 64)).loadGlobal t.core pa 4 0 none none
      .ok (w32 (leVal bs), s)

/-- The tile that a failing word names: that of an `MMA` or `MZERO` whose tile field holds 0 to 7 (10 R213). -/
def seqTile (w : W32) : Option Nat :=
  let sop := (w.extractLsb' 26 6).toNat
  let tile := (w.extractLsb' 21 5).toNat
  if (sop == 1 || sop == 2) && tile < 8 then some tile else none

/-- The tile that a word names whose fetch fails (10 R213): where the address is mapped, and only not executable, the word
stands there (assumption log 93). -/
def State.unfetchedTile (s : State) (t : Team) (pc : Nat) : Option Nat :=
  match s.page? t.tenant pc with
  | none => none
  | some p =>
    let pa := p.pa + (pc - p.va)
    if !canonical pc || s.isRemote pa then none
    else seqTile (w32 (leVal ((List.range 4).map (fun i => s.textByte t.core (pa + i)))))

/-- Issue of a sequencer (10 R203): fetch, `SOP`, fields; the first failed check halts it. A blocked sequencer
tries its instruction again. A failing `MMA` or
`MZERO` marks its tile invalid when its tile field holds 0 to 7 (10 R213). A fetch waits for a row command that holds its
line (18 R334). -/
def State.issueSeq (s : State) (team : Nat) : Issued :=
  match s.team? team, s.seq? team with
  | some t, some q =>
    if (q.st != .running && q.st != .blocked) || s.preempting team || s.underTest 6 (t.core * 4 + q.slot) then .idle s
    else
      if s.textHeld t.tenant q.pc then .idle s
      else match s.fetchSeq t q.pc.toNat with
      | .error _ => .idle (s.haltSeq team 0x03 0 (s.unfetchedTile t q.pc.toNat))
      | .ok (w, s) =>
        match decodeSeq w with
        | .ok i => .run i { s with cur := { team := team, pc := q.pc, size := 4, words := [w] } }
        | .halt c => .idle (s.haltSeq team c 0 (seqTile w))
  | _, _ => .idle s

end Sys2Proof.Machine
end

