-- ==== Sys2Proof/Machine/Rows.lean ====
section
/-! DEFINITION. Row commands (18 R329 to R346): reading a descriptor, the checks, the row operations, the
near-bank units and their step programs, and the end of a command. -/

namespace Sys2Proof.Machine

open Sys2Proof

/-! ### Kinds of command and the fields each uses (18 R331, R333, R340) -/

/-- A row operation of 18 Table 18-6. -/
def isRowOp (op : Nat) : Bool := op ≤ 6 || op == 10
/-- The commands that use `D`. -/
def usesD (op : Nat) : Bool := op != 9 && op != 12
/-- The commands that use source `k`. -/
def usesS (op k : Nat) : Bool :=
  match k with
  | 0 => [0, 2, 3, 4, 5, 6, 8, 9, 10, 12].contains op
  | 1 => [2, 3, 4, 6, 9, 10, 12].contains op
  | _ => op == 6 || op == 12
/-- The commands that use `ROWS`. -/
def usesRows (op : Nat) : Bool := isRowOp op || op == 9 || op == 12

/-- The limits of `ARG` (18 Tables 18-6 and 18-8). -/
def argOk (op : Nat) (a : W64) : Bool :=
  let n := a.toNat
  match op with
  | 1 => true
  | 7 => n ≤ 1
  | 8 => n < 8
  | 9 => n < 2 ^ 32 && (n / 2 ^ 28 == 2 || n / 2 ^ 28 == 3)
  | 10 => n < 2 ^ 16
  | 11 => n ≤ 1
  | 12 => 1 ≤ n && n < 2 ^ 16
  | _ => n == 0

/-- A source address of a command. -/
def RowCmd.src (c : RowCmd) (k : Nat) : Nat := if k == 0 then c.s0 else if k == 1 then c.s1 else c.s2

/-! ### Finding commands and near-bank units -/

/-- A row command by its number. -/
def State.row? (s : State) (id : Nat) : Option RowCmd := s.rows.find? (fun c => c.id == id)

/-- Changes a row command. -/
def State.modRow (s : State) (id : Nat) (f : RowCmd → RowCmd) : State :=
  { s with rows := updWhere (fun (c : RowCmd) => c.id == id) f s.rows }

/-- The near-bank units of a pseudo-channel. -/
def State.near (s : State) (stack pch : Nat) : NearBank :=
  (s.banks.find? (fun b => b.stack == stack && b.pch == pch)).getD { stack := stack, pch := pch }

/-- Replaces the near-bank units of a pseudo-channel. -/
def State.setNear (s : State) (b : NearBank) : State :=
  { s with banks := b :: s.banks.filter (fun x => !(x.stack == b.stack && x.pch == b.pch)) }

/-! ### Ranges -/

/-- The physical pieces of a virtual range, or the trap of its first piece that does not translate. -/
def State.pieces (s : State) (tenant : Nat) (k : Access) : Nat → Nat → Nat → Except Trap (List (Nat × Nat))
  | 0, _, _ => .ok []
  | fuel + 1, a, n =>
    if n == 0 then .ok []
    else
      let m := min n (16384 - a % 16384)
      match s.translate tenant (a % 2 ^ 64) k with
      | .error t => .error t
      | .ok pa => match s.pieces tenant k fuel (a + m) (n - m) with
        | .error t => .error t
        | .ok r => .ok ((pa, m) :: r)

/-- The physical pieces of a range of at most 64 KiB. -/
def State.runs (s : State) (tenant a n : Nat) (k : Access) : Except Trap (List (Nat × Nat)) :=
  s.pieces tenant k 8 a n

/-- The operand ranges that a command reads: name, virtual address, size. -/
def RowCmd.sources (c : RowCmd) : List (Nat × Nat) :=
  if isRowOp c.op then
    ((List.range 3).filter (usesS c.op)).flatMap (fun k =>
      (List.range c.rows).map (fun i => (c.src k + 2048 * i, 2048)))
  else if c.op == 8 then [(c.s0, 32)]
  else if c.op == 9 || c.op == 12 then
    ((List.range 16).flatMap (fun b => (List.range c.rows).map (fun r => (c.s0 + b * c.s1 + 2048 * r, 2048)))) ++
      (if c.op == 12 then [(c.s2, 128)] else [])
  else []

/-- The ranges that a command writes. -/
def RowCmd.dests (c : RowCmd) : List (Nat × Nat) :=
  if isRowOp c.op then (List.range c.rows).map (fun i => (c.d + 2048 * i, 2048))
  else if c.op == 11 then [(c.d, 1024)] else []

/-- Whether two lists of virtual ranges overlap. -/
def overlaps (a b : List (Nat × Nat)) : Bool :=
  a.any (fun x => b.any (fun y => x.1 < y.1 + y.2 && y.1 < x.1 + x.2))

/-- The pseudo-channel that a near-bank command names, where its address translates (18 R340). -/
def State.named? (s : State) (c : RowCmd) : Option (Nat × Nat) :=
  match s.translate c.tenant (if usesD c.op then c.d else c.s0) .read with
  | .ok pa => some ((s.dram pa).stack, (s.dram pa).pch)
  | .error _ => none

/-- The translated pieces of a range that is known to translate. -/
def State.runsD (s : State) (tenant a n : Nat) : List (Nat × Nat) :=
  match s.runs tenant a n .read with
  | .ok l => l
  | .error _ => match s.runs tenant a n .write with
    | .ok l => l
    | .error _ => []

/-- Whether an earlier command of the team holds back a later one (18 R332): their operands overlap by address, or in memory,
where two addresses have one frame. -/
def State.holdsBack (s : State) (e c : RowCmd) : Bool :=
  let at_ := fun (l : List (Nat × Nat)) => l.flatMap (fun x => s.runsD c.tenant x.1 x.2)
  overlaps e.dests (c.sources ++ c.dests) || overlaps (e.sources ++ e.dests) c.dests ||
  overlaps (at_ e.dests) (at_ (c.sources ++ c.dests)) || overlaps (at_ (e.sources ++ e.dests)) (at_ c.dests) ||
  (!isRowOp e.op && !isRowOp c.op &&
    (match s.named? e, s.named? c with
      | some a, some b => a == b
      | _, _ => true))

/-- The commands of a team that entered before one, in stream order. -/
def State.rowsBefore (s : State) (c : RowCmd) : List RowCmd :=
  (s.rows.filter (fun x => x.team == c.team)).takeWhile (fun x => x.id != c.id)

/-- Whether a command can enter its stream: every earlier command of the team has, and for a lane's command
the lane's earlier writes are performed (18 R329). -/
def State.canEnter (s : State) (c : RowCmd) : Bool :=
  (s.rowsBefore c).all (fun x => x.st != .reading) && (c.port.isSome || !s.unperformedBefore c.gid c.lane c.asked)

/-- Whether a command has ended (18 R332): its completion time is over, though its `STAT` or its count may be held back. -/
def RowCmd.hasEnded (c : RowCmd) : Bool := c.st == .stat

/-- Whether a command of the stream can start (18 R332). -/
def State.canStart (s : State) (c : RowCmd) : Bool := !(s.rowsBefore c).any (fun x => !x.hasEnded && s.holdsBack x c)

/-! ### The checks of 18 R332 -/

/-- How the checks of a command end: it may run, it waits for firmware, or a status. -/
inductive RowCheck where
  | ok
  | wait (addr : Nat) (write : Bool)
  | bad (status : Nat) (fault : Bool)
  deriving DecidableEq, Repr

/-- Whether a tenant has declared an address demand-mapped (21 R376). -/
def State.demanded (s : State) (tenant a : Nat) : Bool :=
  s.demand.any (fun r => r.tenant == tenant && r.base ≤ a && a < r.base + r.len)

/-- The first range of a list that does not translate. -/
def State.rangeFault (s : State) (tenant : Nat) (k : Access) : List (Nat × Nat) → Option Trap
  | [] => none
  | (a, n) :: r => match s.runs tenant a n k with
    | .error t => some t
    | .ok _ => s.rangeFault tenant k r

/-- Check 1: unused fields, `ROWS` and `ARG`. -/
def RowCmd.fieldsOk (c : RowCmd) : Bool :=
  c.clean && (usesD c.op || c.d == 0) && (List.range 3).all (fun k => usesS c.op k || c.src k == 0) &&
  (if usesRows c.op then 1 ≤ c.rows && c.rows ≤ 4096 else c.rows == 0) && argOk c.op c.arg

/-- Whether a range lies on this module's HBM at a multiple of 64. -/
def State.onHbm (s : State) (tenant a n : Nat) : Bool :=
  (s.runsD tenant a n).all (fun p => p.1 % 64 == 0 && isHbm p.1 && isHbm (p.1 + p.2 - 1) && !s.isRemote p.1)

/-- The stripe rules of 18 R341. -/
def State.stripeOk (s : State) (c : RowCmd) : Bool :=
  let pos := fun (a : Nat) => s.runsD c.tenant a 2048
  match pos c.s0 with
  | [(p0, _)] =>
    let d0 := s.dram p0
    c.s1 % 16384 == 0 && s.rowContiguous p0 && d0.bank == 0 && d0.byte == 0 && d0.row % 8 == 0 &&
    (List.range 16).all (fun b => (List.range c.rows).all (fun r =>
      match pos (c.s0 + b * c.s1 + 2048 * r) with
      | [(p, _)] =>
        let d := s.dram p
        s.rowContiguous p && d.stack == d0.stack && d.pch == d0.pch && d.bank == b && d.row == d0.row + r && d.byte == 0
      | _ => false))
  | _ => false

/-- Check 3: where the operands lie. -/
def State.placeOk (s : State) (c : RowCmd) : Bool :=
  let here := fun (a n k : Nat) => (s.runsD c.tenant a n).all (fun p => p.1 % k == 0 && !s.isRemote p.1 && p.1 % 2 ^ 51 < 0x18000000000)
  let rowSrc := if isRowOp c.op then c.sources.all (fun x => s.onHbm c.tenant x.1 x.2) else true
  let dst := c.dests.all (fun x => s.onHbm c.tenant x.1 x.2)
  let d := if c.op == 7 || c.op == 8 then s.onHbm c.tenant c.d 1 else true
  let stripe := if c.op == 9 || c.op == 12 then s.onHbm c.tenant c.s0 2048 && s.stripeOk c else true
  let bcst := if c.op == 8 then here c.s0 32 32 else true
  let prog := if c.op == 12 then here c.s2 128 64 else true
  rowSrc && dst && d && stripe && bcst && prog

/-- The pseudo-channels of the rows of a command. -/
def State.rowChannels (s : State) (c : RowCmd) : List (Nat × Nat) :=
  ((c.sources ++ c.dests).flatMap (fun x => (s.runsD c.tenant x.1 x.2).flatMap (fun p =>
    (rowCuts p.1 p.2).map (fun a => ((s.dram a).stack, (s.dram a).pch))))).eraseDups

/-- Check 4: all-bank mode (18 R338, R339). -/
def State.modeOk (s : State) (c : RowCmd) : Bool :=
  if isRowOp c.op then
    (s.rowChannels c).all (fun x => (s.near x.1 x.2).owner.isNone)
  else match s.named? c with
    | none => false
    | some x =>
      let o := (s.near x.1 x.2).owner
      if c.op == 7 then o.isNone || o == some c.team else o == some c.team

/-- The checks of 18 R332, in order. -/
def State.rowChecks (s : State) (c : RowCmd) : RowCheck :=
  let fault := fun (t : Trap) (w : Bool) =>
    if t.cause == 0x06 && s.demanded c.tenant t.addr then RowCheck.wait t.addr w
    else RowCheck.bad (if w then 3 else 2) true
  let named := if c.op == 7 || c.op == 8 then [(c.d, 1)] else []
  if c.unread || !c.fieldsOk then .bad 1 false
  else match s.rangeFault c.tenant .read c.sources with
    | some t => fault t false
    | none => match s.rangeFault c.tenant .write c.dests with
      | some t => fault t true
      | none => match s.rangeFault c.tenant .read named with
        | some t => fault t true
        | none =>
          if !s.placeOk c then .bad 1 false
          else if !s.modeOk c then .bad 6 false
          else if c.object != 0 && !(c.object % 64 == 0 && vaultRange c.vwin c.object 64 true) then .bad 4 false
          else .ok

/-! ### Paths (18 R333) -/

/-- The operand addresses of row i of a row operation. -/
def RowCmd.rowAddrs (c : RowCmd) (i : Nat) : List Nat :=
  (((List.range 3).filter (usesS c.op)).map (fun k => c.src k + 2048 * i)) ++ [c.d + 2048 * i]

/-- The path of a row operation: the first of its order that every row meets. -/
def State.rowPath (s : State) (c : RowCmd) : Nat :=
  let rows := (List.range c.rows).map (fun i => (c.rowAddrs i).map (fun a => s.runsD c.tenant a 2048))
  let whole := rows.all (fun r => r.all (fun p => match p with
    | [(pa, _)] => pa % 2048 == 0 && s.rowContiguous pa
    | _ => false))
  let pos := rows.map (fun r => r.map (fun p => s.dram ((p.headD (0, 0)).1)))
  let same := fun (f : DramPos → Nat) => pos.all (fun r => match r with
    | [] => true
    | x :: t => t.all (fun y => f y == f x))
  let bank := fun (d : DramPos) => (d.stack * 64 + d.pch) * 16 + d.bank
  let fast := whole && same (fun d => bank d * 64 + d.row / 512)
  let stackOf := ((pos.headD []).getLastD { stack := 0, pch := 0, bank := 0, row := 0, byte := 0 }).stack
  let buf := whole && pos.all (fun r => r.all (fun d => d.stack == stackOf))
  if c.op == 10 then (if whole && same bank then 3 else 2)
  else if fast && (c.op != 1 || c.arg == 0 || c.arg == BitVec.allOnes 64) then 0
  else if buf then 1 else 2

/-- How long the row step of a row operation takes: the longest of its path, in ns (18 Table 18-8, assumption log 11). -/
def stepNs (path : Nat) : Nat := match path with
  | 0 => 64
  | 3 => 96
  | _ => 128

/-! ### Computing rows -/

/-- A byte as a command reads it at its home: its own earlier rows first (18 R333). -/
def State.rowByte (s : State) (c : RowCmd) (pa : Nat) : Byte := (Sparse.get none c.fill pa).getD (Memory.byte s.mem pa)

/-- The bytes of a virtual range as a command reads them. -/
def State.rowBytes (s : State) (c : RowCmd) (a n : Nat) : List Byte :=
  (s.runsD c.tenant a n).flatMap (fun p => (List.range p.2).map (fun i => s.rowByte c (p.1 + i)))

/-- The first sector of physical pieces that holds an uncorrectable error (18 R335). -/
def State.badSector (s : State) (ps : List (Nat × Nat)) : Option Nat :=
  (s.poison.find? (fun x => x.1 == 0 && ps.any (fun p => p.1 / 64 ≤ x.2 && x.2 ≤ (p.1 + p.2 - 1) / 64))).map (·.2)

/-- Whether physical pieces lie in a row under test (21 R388). -/
def State.rowsTested (s : State) (ps : List (Nat × Nat)) : Bool :=
  !s.tests.isEmpty && ps.any (fun p => (rowCuts p.1 p.2).any (fun a => s.underTest 5 (s.dram a).place))

/-- A command meets an uncorrectable error in a row, and ends with `ECC` (18 R335); the row's test follows. -/
def State.rowEcc (s : State) (c : RowCmd) (sector : Nat) : State :=
  s.raiseError { sev := 1, src := 6, tenant := c.tenant } 5 (s.dram (sector * 64)).place

/-- The F16 sum of `ROW.SADD`: one rounding in `RN` (18 R333). -/
def saddVal (a x y : Nat) : Nat :=
  (finish .f16 {} (fmaVal .rn (Val.ofBits .f16 false a) (Val.ofBits .f16 false x) (Val.ofBits .f16 false y))).1

/-- The bytes of a destination row from its source rows (18 Table 18-6). -/
def rowValue (op : Nat) (arg : W64) (src : List (List Byte)) : List Byte :=
  let x := src.getD 0 []
  let y := src.getD 1 []
  let z := src.getD 2 []
  match op with
  | 1 => (List.replicate 256 (bytes64 arg)).flatten
  | 10 => (List.range 1024).flatMap (fun e =>
      let h := fun (l : List Byte) => leVal ((l.drop (2 * e)).take 2)
      leOf 2 (saddVal (arg.toNat % 65536) (h x) (h y)))
  | 0 => x
  | 5 => x.map (fun b => ~~~b)
  | 6 => (x.zip (y.zip z)).map (fun b => (b.1 &&& b.2.1) ||| (b.1 &&& b.2.2) ||| (b.2.1 &&& b.2.2))
  | _ => (x.zip y).map (fun b => if op == 2 then b.1 &&& b.2 else if op == 3 then b.1 ||| b.2 else b.1 ^^^ b.2)

/-- A command's pending destination bytes once bytes of a virtual range are written too. -/
def State.rowPut (s : State) (c : RowCmd) (a : Nat) (bs : List Byte) : RowCmd :=
  let pas := (s.runsD c.tenant a bs.length).flatMap (fun p => (List.range p.2).map (fun i => p.1 + i))
  { c with work := (pas.zip bs).foldl (fun m x => Sparse.put none m x.1 (some x.2)) c.fill }

/-! ### Start and end -/

/-- The physical pieces that a command writes. -/
def State.destPieces (s : State) (c : RowCmd) : List (Nat × Nat) := c.dests.flatMap (fun x => s.runsD c.tenant x.1 x.2)

/-- A command that reads rows, or other bytes, of memory: Meridian writes back their dirty sectors first (18 R334), and the
read counts for transactions (07 R142). -/
def State.rowReads (s : State) (ps : List (Nat × Nat)) : State :=
  ps.foldl (fun s p => (s.mscClean p.1 p.2 false).engineLoads p.1 p.2) s

/-- Places the destination lines of a command in `HOLD` (18 R334): its write stands in their queues from now on. Their dirty
sectors are written back and invalidated, and their rows' lines of the memory-side cache are held. -/
def State.holdDests (s : State) (c : RowCmd) : State :=
  let s := (s.destPieces c).foldl (fun s p => s.mscClean p.1 p.2 true) s
  let rows := ((s.destPieces c).flatMap (fun p => (rowCuts p.1 p.2).map (fun a => ((s.dram a).stack, (s.dram a).rowKey)))).eraseDups
  let lines := (c.dests.flatMap (fun x => (s.runsD c.tenant x.1 x.2).flatMap (fun p =>
    (List.range (p.2 / 64 + 2)).map (fun i => min (p.1 + 64 * i) (p.1 + p.2 - 1) / 128)))).eraseDups
  let s := lines.foldl (fun s ln =>
    let h := s.home ln
    let pt := h.pt.getD (s.writeTime h)
    s.setHome { h with pt := some pt, queue := h.queue ++ [{ op := .store [], row := c.id + 1, due := pt }] }) s
  s.modRow c.id (fun c => { c with lines := lines, holds := rows })

/-- A row of memory is overwritten: the sectors whose line may still be read under its old bytes are kept as shadows
(18 R334). -/
def State.shadowRow (s : State) (ps : List (Nat × Nat)) : State :=
  (ps.flatMap (fun p => sectorsOf p.1 p.2)).foldl (fun s a =>
    if (s.home (a / 128)).pt.any (fun t => s.time < t) then s.mscShadow a else s) s

/-- Counts a fault of a launch that a command, copy or request raised (15 Table 15-4, 16 R303). -/
def State.engineFault (s : State) (die launch origin : Nat) : State := s.modLaunch die launch (fun l => l.countFault origin)

/-- The completion time of a command's writes as its lines stand: the latest of `t` and the times at which their homes
perform them. -/
def State.rowTime (s : State) (c : RowCmd) (t : Nat) : Nat :=
  (c.lines.flatMap (fun ln => ((s.home ln).queue.filter (fun w => w.row == c.id + 1)).map (·.due))).foldl max t

/-- The completion time of a command reaches its group (17 R317). -/
def State.rowComplete (s : State) (c : RowCmd) (t : Nat) : State :=
  if c.port.isSome then s
  else (s.complete (some c.gid) t).modGroup c.gid (fun g => { g with rowtime := max g.rowtime t })

/-- The status word of a command (18 Table 18-5). -/
def RowCmd.word (c : RowCmd) (status : Nat) : W32 :=
  w32 ((if !isRowOp c.op then 3 else c.path) * 2 ^ 30 + c.next * 2 ^ 16 + status)

/-- A command is done with a status (18 R334, R335): its completion time is the latest of now and the `Pt` of
its destination lines, and reaches `WCTIME`. The status word reaches the lane now (17 R317), unless a count must be added
first (18 R337, assumption log 46). -/
def State.rowDone (s : State) (id status : Nat) : State :=
  match s.row? id with
  | none => s
  | some c =>
    let t := s.rowTime c s.time
    let now := c.port.isNone && c.object == 0
    let s := (s.modRow id (fun c =>
      { c with st := .writing, isOpen := false, worked := false, status := status, endAt := t, told := now })).rowComplete c t
    if now then s.modGroup c.gid (fun g => g.deliver c.lane c.serial [(c.word status).setWidth 64]) else s

/-- The bytes that a command counts (18 R337). -/
def RowCmd.bytes (c : RowCmd) : Nat :=
  (if isRowOp c.op then 2048 * c.rows else if c.op == 11 then 1024 else 0) + (if c.port.isSome then 8 else 0)

/-- The addition of a command's bytes to its object (18 R337): the status that stands after it, none while a pin or its array
holds the addition (10 R205, 13 R248). -/
def State.rowCount (s : State) (c : RowCmd) : Option Nat × State :=
  let early := [1, 2, 3, 6].contains c.status
  if c.object == 0 || c.status == 4 || c.unread then (some c.status, s)
  else if early && !(c.object % 64 == 0 && vaultRange c.vwin c.object 64 true) then (some c.status, s)
  else match s.addTo c.die c.object (c.status != 0) c.bytes (2 ^ 64 + 2 * c.id + 1) with
    | (none, s) => (none, s)
    | (some ok, s) => (some (if early || ok then c.status else 4), s)

/-- Ends a command whose count is added, or waits with what `rest` does then. -/
def State.countRow (s : State) (c : RowCmd) (rest : Nat → State → State) : State :=
  match s.rowCount c with
  | (none, s) => s.modRow c.id (fun c => { c with st := .stat })
  | (some st, s) => rest st s

/-- Removes an ended command. -/
def State.dropRow (s : State) (id : Nat) : State := { s with rows := s.rows.filter (fun c => c.id != id) }

/-- A command has left the port's count of taken entries (09 R194). -/
def State.rowPortDone (s : State) (c : RowCmd) : State := if c.port.isSome then s.engineDone c.team c.queue else s

/-- The destination lines of a command are performed at its completion time, in their rows and not in the memory-side cache,
whose shadows are dropped; the writes queued behind it follow, at that time at the earliest (18 R334). -/
def State.performRow (s : State) (c : RowCmd) : State :=
  let s := c.lines.foldl (fun s ln =>
    let bs := c.fill.filterMap (fun x => if x.1 / 128 == ln then x.2.map (fun b => (x.1, b)) else none)
    let s := if bs.isEmpty then s else s.performBytes ln { op := .store bs } c.endAt
    let h := s.home ln
    s.setHome { h with queue := (h.queue.filter (fun w => w.row != c.id + 1)).map (fun w => { w with due := max w.due c.endAt }) }) s
  let s := (s.destPieces c).foldl (fun s p => s.mscDrop p.1 p.2) (s.modRow c.id (fun c => { c with holds := [] }))
  c.lines.foldl (fun s ln => s.releaseHold ln) s

/-- Whether a command's write is the next of each of its lines, and its time has come. -/
def State.rowNext (s : State) (c : RowCmd) : Bool :=
  c.lines.all (fun ln => (s.home ln).queue.head?.any (fun w => w.row == c.id + 1 && w.due ≤ s.time))

/-- Where the `STAT` of a port's command lies as its page stands now (18 R330): none where it cannot be written. -/
def State.statAt (s : State) (c : RowCmd) (va : Nat) : Option Nat :=
  match s.translate c.tenant (va + 0x38) .write with
  | .ok pa => if (s.remoteRefusal pa va).isSome then none else some pa
  | .error _ => none

/-- A command ends at its completion time (18 R332, R334, R337): its lines are performed once the writes before it have been,
its count is added, and a status that waits for it is delivered. A port command first writes `STAT`; the count follows once
that is performed and the device time has passed (18 R330). -/
def State.endRow (s : State) (id : Nat) : State :=
  match s.row? id with
  | none => s
  | some c =>
    match c.st with
    | .writing =>
      let s := c.lines.foldl (fun s ln => s.releaseHold ln) s
      let t := s.rowTime c c.endAt
      if !s.rowNext c then (s.modRow id (fun c => { c with endAt := t })).rowComplete c t
      else
      let s := s.performRow c
      match c.port with
      | none =>
        s.countRow c (fun st s =>
          (if c.told then s else s.modGroup c.gid (fun g => g.deliver c.lane c.serial [(c.word st).setWidth 64])).dropRow id)
      | some va =>
        if c.unread then (s.rowPortDone c).dropRow id
        else match s.statAt c va with
        | none => s.countRow c (fun _ s => (s.rowPortDone c).dropRow id)
        | some pa =>
          (s.engineWrite none pa (bytes64 ((c.word c.status).setWidth 64)) (2 ^ 41 + id)).modRow id
            (fun c => { c with st := .stat, endAt := s.time + 1 })
    | .stat =>
      if s.originQueued (2 ^ 41 + id) then s
      else s.countRow c (fun st s => match c.port with
        | none => (if c.told then s else s.modGroup c.gid (fun g => g.deliver c.lane c.serial [(c.word st).setWidth 64])).dropRow id
        | some _ => (s.rowPortDone c).dropRow id)
    | _ => s

/-! ### Near-bank units (18 R336 to R342) -/

/-- `MacStep` (18 R337). -/
def macStep (acc w v : Nat) : Nat :=
  (finish .f32 {} (fmaVal .rn (Val.ofBits .f16 false w) (Val.ofBits .f16 false v) (Val.ofBits .f32 false acc))).1

/-- The physical address of a row of a row-contiguous region (18 Table 18-2). -/
def rowPa (module stack pch bank row : Nat) : Nat :=
  module * 2 ^ 51 + stack * 2 ^ 36 + row / 512 % 64 * 2 ^ 30 + row / 8 % 64 * 2 ^ 24 + bank * 2 ^ 20 + pch * 2 ^ 14 +
    row % 8 * 2 ^ 11

/-- Lane l of chunk ch of the open row of a bank (18 R336). -/
def State.chunkVal (s : State) (c : RowCmd) (nb : NearBank) (bank ch l : Nat) : Nat :=
  leVal (Memory.bytes s.mem (rowPa s.module c.stack c.pch bank (c.row0 + nb.rp - 1) + 32 * ch + 2 * l) 2)

/-- One chunk of `MACB` (`own` false) or `MACE` in every bank. -/
def State.macChunk (s : State) (c : RowCmd) (own : Bool) (v c0 : Nat) (nb : NearBank) (k : Nat) : NearBank :=
  { nb with acc := (List.range 256).foldl (fun acc x =>
      let b := x / 16
      let l := x % 16
      let vb := (Sparse.get 0 nb.vb ((b * 8 + v) * 16 + (if own then l else k))).toNat
      Sparse.put 0 acc (b * 16 + l) (w32 (macStep (Sparse.get 0 acc (b * 16 + l)).toNat (s.chunkVal c nb b (c0 + k) l) vb))) nb.acc }

/-- What a step of a row program does. -/
inductive StepEnd where
  | go (c : RowCmd) (nb : NearBank) (rpc : Nat)
  | done
  | bad

/-- The banks that the row step of a command holds: all of its pseudo-channel, or those of its current rows (18 R343). -/
def State.heldBanks (s : State) (c : RowCmd) : List Nat :=
  if c.op == 9 || c.op == 12 then (List.range 16).map (fun b => (c.stack * 64 + c.pch) * 16 + b)
  else ((c.rowAddrs c.next).flatMap (fun a => (s.runsD c.tenant a 2048).flatMap (fun p =>
    (rowCuts p.1 p.2).map (fun x => (s.dram x).bankKey)))).eraseDups

/-- A row operation takes its next row (18 R333 to R335): its sources are read now, and its banks held until the step ends.
A row under test is waited for (21 R388). -/
def State.rowOpStep (s : State) (c : RowCmd) : State :=
  let i := c.next
  let srcs := ((List.range 3).filter (usesS c.op)).map (fun k => c.src k + 2048 * i)
  let ps := srcs.flatMap (fun a => s.runsD c.tenant a 2048)
  if s.rowsTested (ps ++ s.runsD c.tenant (c.d + 2048 * i) 2048) then s.modRow c.id (fun c => { c with endAt := s.time })
  else match s.badSector ps with
  | some x => (s.rowDone c.id 5).rowEcc c x
  | none =>
    let s := s.rowReads ps
    let c := s.rowPut c (c.d + 2048 * i) (rowValue c.op c.arg (srcs.map (fun a => s.rowBytes c a 2048)))
    let held := s.heldBanks c
    s.modRow c.id (fun _ => { c with worked := true, held := held, since := s.ticks, endAt := c.endAt + stepNs c.path })

/-- A running command begins a row step (18 R343): a row of a row operation, or the steps of a program from where it stands
to its next row boundary. -/
def State.rowWork (s : State) (id : Nat) : State :=
  match s.row? id with
  | none => s
  | some c =>
    if isRowOp c.op then s.rowOpStep c
    else
      let held := s.heldBanks c
      { s.modRow id (fun c => { c with worked := true, held := held, since := s.ticks, isOpen := false }) with
        agenda := .row id :: s.agenda }

/-- Whether an ordinary access has reached a bank of a command since its row step or its slot began: it is pending
(assumption log 11). -/
def State.askedFor (s : State) (c : RowCmd) : Bool := c.held.any (fun b => c.since < Sparse.get 0 s.bankAsks b)

/-- A row step has ended (18 Table 18-9): the command yields to a pending ordinary access, lets a refresh
through, or takes the next step. -/
def State.rowBoundary (s : State) (id : Nat) : State :=
  match s.row? id with
  | none => s
  | some c =>
    let pause := fun (s : State) (st : RowState) (ns : Nat) => s.modRow id (fun c =>
      { c with st := st, isOpen := false, worked := false, since := s.ticks, endAt := c.endAt + ns })
    if s.askedFor c then pause s (.yield 0) 128
    else if c.held.any (fun b => 8 ≤ Sparse.get 0 s.postponed b) then
      { pause s .refresh 350 with postponed := c.held.foldl (fun m b => Sparse.put 0 m b 0) s.postponed }
    else (s.modRow id (fun c => { c with worked := false })).rowWork id

/-- A command in `YIELD` or `REFRESH` takes its next row step. -/
def State.rowResume (s : State) (id : Nat) : State := (s.modRow id (fun c => { c with st := .run, worked := false })).rowWork id

/-- The row step of a command is over: its row is written, and the command ends or is at a row boundary. -/
def State.rowStepOver (s : State) (c : RowCmd) : State :=
  if isRowOp c.op then
    let s := (s.shadowRow (s.runsD c.tenant (c.d + 2048 * c.next) 2048)).modRow c.id (fun c =>
      { c with next := c.next + 1, fill := c.work })
    if c.next + 1 == c.rows then s.rowDone c.id 0 else s.rowBoundary c.id
  else match c.endsAs with
    | some st => s.rowDone c.id st
    | none => s.rowBoundary c.id

/-- The steps of a program have come to the end of their row step, after which the command ends with a status or is at a row
boundary: an `OPEN` takes 32 ns, each chunk 1 ns (18 R343), and no other step any time (assumption log 11). -/
def State.stepsOver (s : State) (c : RowCmd) (status : Option Nat) : State :=
  s.modRow c.id (fun x => { x with endsAs := status, endAt := x.endAt + (if c.isOpen then 32 + c.chunks else 0) })

/-- Runs a step of a row program and goes on at `RPC`: with the next step, or at a row boundary before an
`OPEN`. The command ends with `PROG_BAD` where the step fails or `RPC` passes 31 (18 R342). -/
def runStep (s : State) (body : State → RowCmd → NearBank → StepEnd) : State :=
  let id := s.cur.cmd
  match s.row? id with
  | none => s
  | some c =>
    match body s c (s.near c.stack c.pch) with
    | .bad => s.stepsOver c (some 7)
    | .done => s.stepsOver c (some 0)
    | .go c nb rpc =>
      let s := (s.modRow id (fun _ => c)).setNear { nb with rpc := rpc % 32 }
      if 31 < rpc then s.stepsOver c (some 7)
      else if (c.steps.getD rpc 0).extractLsb' 28 4 == 1#4 && c.isOpen then s.stepsOver c none
      else { s with agenda := .row id :: s.agenda }

/-- The step at which a program stands, fetched and decoded; one that does not decode ends the command with
`PROG_BAD` (18 R342). -/
def State.issueRow (s : State) (id : Nat) : Issued :=
  match s.row? id with
  | none => .idle s
  | some c =>
    if c.st != .run then .idle s
    else
      let w := c.steps.getD (s.near c.stack c.pch).rpc 0
      match decodeStep w with
      | some i => .run i { s with cur := { team := c.team, cmd := id, size := 4, words := [w] } }
      | none => .idle (s.stepsOver c (some 7))

/-- A command that passed its checks begins (18 R334, R338, R340). -/
def State.beginRow (s : State) (c : RowCmd) : State :=
  let id := c.id
  if isRowOp c.op then
    let path := s.rowPath c
    ((s.modRow id (fun c => { c with st := .run, path := path, endAt := s.time })).holdDests c).rowWork id
  else
    match s.named? c with
    | none => s.rowDone id 1
    | some (stack, pch) =>
      let nb := s.near stack pch
      match c.op with
      | 7 =>
        let s := if c.arg == 1 then s.setNear { stack := stack, pch := pch, owner := some c.team }
          else { s with banks := s.banks.filter (fun b => !(b.stack == stack && b.pch == pch)) }
        s.rowDone id 0
      | 8 =>
        let bs := s.rowBytes c c.s0 32
        let vb := (List.range 256).foldl (fun m x =>
          let b := x / 16
          let l := x % 16
          Sparse.put 0 m ((b * 8 + c.arg.toNat) * 16 + l) (BitVec.ofNat 16 (leVal ((bs.drop (2 * l)).take 2)))) nb.vb
        (s.setNear { nb with vb := vb }).rowDone id 0
      | 11 =>
        let bs := (List.range 256).flatMap (fun x => bytes32 (Sparse.get 0 nb.acc x))
        let s := s.holdDests c
        let s := (s.modRow id (fun c => { c with fill := (s.rowPut c c.d bs).work })).shadowRow (s.destPieces c)
        let s := if c.arg == 1 then s.setNear { nb with acc := [] } else s
        s.rowDone id 0
      | _ =>
        let bs := s.rowBytes c c.s2 128
        let steps := if c.op == 9 then [0x10000000#32, c.arg.setWidth 32, 0x50000000#32, 0#32]
          else (List.range 32).map (fun i => w32 (leVal ((bs.drop (4 * i)).take 4)))
        let lc := if c.op == 9 then c.rows else c.arg.toNat
        let row0 := (s.dram (((s.runsD c.tenant c.s0 2048).headD (0, 0)).1)).row
        let s := s.setNear { nb with rpc := 0, rp := 0, lc := lc }
        (s.modRow id (fun c => { c with st := .run, path := 3, steps := steps, stack := stack, pch := pch, row0 := row0,
                                        endAt := s.time })).rowWork id

/-- The bytes that a near-bank command reads as ordinary loads: the source of `ROW.BCST`, the step list of `ROW.PROG`. -/
def State.plainReads (s : State) (c : RowCmd) : List (Nat × Nat) :=
  if c.op == 8 then s.runsD c.tenant c.s0 32 else if c.op == 12 then s.runsD c.tenant c.s2 128 else []

/-- A command starts: it is checked, and begins, waits for firmware, or is done with a failure status. What it reads as an
ordinary load may have to wait as one (18 R334, R343, 21 R388), and an uncorrectable error there ends it with `ECC`
(18 R335). -/
def State.startRow (s : State) (id : Nat) : State :=
  match s.row? id with
  | none => s
  | some c =>
    match s.rowChecks c with
    | .ok =>
      let ps := s.plainReads c
      let secs := ps.flatMap (fun p => sectorsOf p.1 p.2)
      if secs.any (fun a => s.fetchHeld a || s.bankHeld a) then secs.foldl State.askBank s
      else match s.badSector ps with
        | some x => (s.rowDone id 5).rowEcc c x
        | none => (ps.foldl (fun s p => s.engineLoads p.1 p.2) s).beginRow c
    | .wait a w =>
      ((s.engineFault c.die c.launch c.origin).modRow id (fun c => { c with st := .faulted })).enqueueFault c.die (.row id a w)
    | .bad st f => (if f then s.engineFault c.die c.launch c.origin else s).rowDone id st

/-- A descriptor as a command (18 Table 18-4). -/
def RowCmd.ofBytes (c : RowCmd) (bs : List Byte) : RowCmd :=
  let n := fun (o k : Nat) => leVal ((bs.drop o).take k)
  { c with d := n 0 8, s0 := n 8 8, s1 := n 16 8, s2 := n 24 8, rows := n 32 4, clean := n 36 4 == 0, arg := w64 (n 40 8),
           object := n 48 8 }

end Sys2Proof.Machine
end

