-- ==== Sys2Proof/Machine/Ending.lean ====
section
/-! DEFINITION. The end of groups, teams and launches (01 R26, 08 R151, 09 R182, 10 R216, 13 R262, 15 R286), the
barriers that an ending can complete (09 R181 to R184), and the waits of `JOIN` that settle with the time. -/

namespace Sys2Proof.Machine

open Sys2Proof

/-! ### Barriers (09 R182 to R184, 10 R201, R211) -/

/-- The groups of a team that have not ended, by group number. -/
def Team.liveNums (t : Team) : List Nat := (List.range t.size).filter (fun n => !t.ended.contains n)

/-- The waiting lanes of a group that satisfy a test go on past their barrier, an instruction of 8 bytes. -/
def Group.proceed (g : Group) (p : Lane → Bool) : Group :=
  laneIds.foldl (fun g i =>
    if p (g.lane i) && !(g.lane i).ended then (g.advance i 8).modLane i (fun l => { l with wait := .none }) else g) g

/-- The waiting lanes of a team that satisfy a test go on past their barrier. -/
def State.proceed (s : State) (team : Nat) (p : Lane → Bool) : State :=
  { s with groups := updWhere (fun (g : Group) => g.team == team) (fun g => g.proceed p) s.groups }

/-- `BAR.TEAM` completes when every group of the team that has not ended has arrived (09 R182). -/
def State.testTeamBar (s : State) (team : Nat) : State :=
  match s.team? team with
  | none => s
  | some t =>
    if t.barSet != 0 && t.liveNums.all (inMask t.barSet) then
      (s.modTeam team (fun t => { t with barSet := 0 })).proceed team (fun l => l.wait == .team)
    else s

/-- The participants of a route tag: its holder's teams that are placed and have not ended (13 R262). -/
def State.participants (s : State) (die tag : Nat) : List Nat :=
  (s.teams.filter (fun (t : Team) => t.die == die && t.tag == some tag && t.finished.isNone)).map (·.id)

/-- A phase of a route tag completes 40 cycles after the arrivals equal the participants (13 R262). -/
def State.testTag (s : State) (die tag : Nat) : State :=
  let parts := s.participants die tag
  let test := fun (x : RouteTag) =>
    if x.due.isNone && !parts.isEmpty && parts.all x.arrived.contains then { x with due := some (s.ticks + 200) } else x
  { s with tags := updWhere (fun (x : RouteTag) => x.die == die && x.tag == tag) test s.tags }

/-- The entry of a route tag. -/
def State.tag? (s : State) (die tag : Nat) : Option RouteTag := s.tags.find? (fun x => x.die == die && x.tag == tag)

/-- A team's arrival goes on the tree when its set covers every group that has not ended (09 R184). -/
def State.testTree (s : State) (team : Nat) : State :=
  match s.team? team with
  | none => s
  | some t =>
    match t.tag with
    | none => s
    | some n =>
      if !t.treeSent && t.treeSet != 0 && t.liveNums.all (inMask t.treeSet) then
        let ph := ((s.tag? t.die n).map (·.phase)).getD 0
        let s := s.modTeam team (fun t => { t with treeSent := true, treePhase := ph })
        let here := fun (x : RouteTag) => x.die == t.die && x.tag == n
        let s := { s with tags := updWhere here (fun x => { x with arrived := x.arrived ++ [team] }) s.tags }
        s.testTag t.die n
      else s

/-- A numbered barrier of a team. -/
def Team.bar (t : Team) (b : Nat) : NumBar := t.bars.getD b {}

/-- The phase of a numbered barrier completes (09 R183): the set and the count are cleared, the phase bit
flips, the latch of the format vote goes to `MFMT` (10 R201), and every lane and sequencer that waits for the
phase proceeds. -/
def State.completeNum (s : State) (team b : Nat) : State :=
  let nb := (s.team team).bar b
  let s := s.modTeam team (fun t =>
    { t with bars := modAt (fun _ => { phase := !nb.phase }) t.bars b,
             seq := t.seq.map (fun q =>
               let q := match nb.latch with
                 | some f => { q with mfmt := f, fset := true }
                 | none => q
               if q.st == .waiting && q.waitBar == b && q.waitPhase == nb.phase then { q with st := .running } else q) })
  s.proceed team (fun l => match l.wait with
    | .num b' ph _ => b' == b && ph == nb.phase
    | _ => false)

/-- An arrival at a numbered barrier with its quorum (09 R183): of a group, or of the sequencer. -/
def State.arriveNum (s : State) (team b : Nat) (group : Option Nat) (quorum : Nat) : State :=
  let s := s.modTeam team (fun t =>
    { t with bars := modAt (fun nb =>
        match group with
        | some n => { nb with set := nb.set ||| (1#32 <<< n) }
        | none => { nb with s := nb.s + 1 }) t.bars b })
  let nb := (s.team team).bar b
  if quorum ≤ (lanesOf nb.set).length + nb.s then s.completeNum team b else s

/-! ### Ending -/

/-- Frees the route tags of a die whose holder has no team left: none placed, none saved, and, for a tag that a
grid holds, none still to be placed (13 R262, 15 R275). -/
def State.freeTags (s : State) (die : Nat) : State :=
  let has := fun (launch : Nat) (cl : Option Nat) (t : Team) =>
    t.die == die && t.launch == launch && (match cl with
      | some c => t.num / (t.cw * t.ch) == c
      | none => true)
  let free := fun (x : RouteTag) =>
    match x.holder with
    | none => x
    | some (launch, cl) =>
      let held := s.teams.any (fun t => t.finished.isNone && has launch cl t) || s.saved.any (fun v => has launch cl v.team)
      let more := cl.isNone && (match s.launch? die launch with
        | some l => l.status.isNone && l.next < l.desc.count
        | none => false)
      if held || more then x else { x with holder := none, arrived := [], due := none }
  { s with tags := updWhere (fun (x : RouteTag) => x.die == die) free s.tags }

/-- A group has ended (01 R26): it leaves its partition, its registers still its team's (08 R151); its writes may still
have to be performed (15 R285). -/
def State.dropGroup (s : State) (g : Group) : State :=
  let t := s.team g.team
  let last := fun (c : Core) => if g.issuedPcs.isEmpty then c else { c with last := setAt c.last g.part (g.resident + 1) }
  let s := { s with groups := s.groups.filter (fun x => x.id != g.id), cores := modAt last s.cores g.core }
  let s := s.modTeam g.team (fun t =>
    { t with
      ended := t.ended ++ [g.num]
      gids := t.gids ++ [g.id]
      gKept := t.gKept ++ [(g.part, g.gBlock, g.n / 16)]
      wKept := t.wKept ++ [(g.part, g.wBlock, g.m / 4)] })
  s.modLaunch t.die t.launch (fun l => { l with left := l.left ++ [g.id], leftT := max l.leftT g.wctime })

/-- Whether writes of an `MST` are held back. -/
def State.mstHeldBy (s : State) (num : Nat) : Bool := s.vheld.any (fun h => h.num == num && num != 0)

/-- Whether a team's accumulator stores have writes that pins hold back. -/
def State.mstHeld (s : State) (team : Nat) : Bool := s.vheld.any (fun h => h.team == some team)

/-- Whether what a team that is over has issued is complete: its copies, row commands, splats and encoder lines, its
`MST`s, and an `MMA` in the array (10 R216, 15 R286, 04 R73); for one that did not end normally, its groups' writes too
(15 R286). -/
def State.overDone (s : State) (t : Team) : Bool :=
  !s.copies.any (fun c => c.team == t.id) && !s.rows.any (fun c => c.team == t.id) &&
  !s.msts.any (fun m => m.team == t.id) && !s.mstHeld t.id &&
  !(s.cores.getD t.core {}).array.any (fun (a : Nat × Nat) => a.1 == t.id && s.ticks < a.2) &&
  t.queues.all (fun q => q.port < 7 || 9 < q.port || (q.port == 9 && !s.sessions.any (fun (x : Session) => x.num == q.inst)) ||
    (q.entries.isEmpty && q.taken == 0)) &&
  (t.finished != some false || t.gids.all (fun g => !s.unperformed g && !s.splats.any (fun x => x.gid == some g)))

/-- A team that is over, and whose work is complete, is gone, and with it the all-bank mode that it owned (18 R338; assumption
log 95). -/
def State.releaseTeam (s : State) (t : Team) : State :=
  { s with
    teams := s.teams.filter (fun x => x.id != t.id)
    banks := s.banks.filter (fun b => b.owner != some t.id)
    poison := s.poison.filter (fun x => !((x.1 == 1 && x.2 / 2048 == t.id) || ((x.1 == 6 || x.1 == 7) && x.2 / 8 == t.id)))
    cores := modAt (fun (c : Core) => if c.array.any (fun (a : Nat × Nat) => a.1 == t.id) then { c with array := none } else c) s.cores t.core
  }.setRetention (localArray t.core) (.active s.time)

/-- Every team that is over, and whose work is complete, leaves. -/
def State.settleOver (s : State) : State :=
  (s.teams.filter (fun t => t.finished.isSome && s.overDone t)).foldl State.releaseTeam s

/-- A sequencer stops with its team's end (10 R216): no instruction follows, and its slots are emptied. -/
def Sequencer.stop (q : Sequencer) : Sequencer :=
  { q with st := .idle, mma := [], a := q.a.map (fun _ => {}), b := q.b.map (fun _ => {}) }

/-- What of a queue outlives its team: the entries that the row, splat and encoder ports have still to take. -/
def TeamQueue.outlive (q : TeamQueue) : TeamQueue :=
  if 7 ≤ q.port && q.port ≤ 9 then { q with waiters := [] } else {}

/-- A team has ended (01 R26): its slices are discarded (13 R261), its sequencer stops (10 R216), its leaving can complete
a phase of its route tag (13 R262), and what it holds of its core is free from now on (08 R151); what it has issued is completed.
`normal` says whether it counts in `TEAMS` of 15 Table 15-4. -/
def State.endTeam (s : State) (id : Nat) (normal : Bool) : State :=
  match s.team? id with
  | none => s
  | some t =>
    if t.finished.isSome then s
    else
      let s := (s.groups.filter (fun g => g.team == id)).foldl (fun s g => s.dropGroup g) s
      let s := s.modTeam id (fun t =>
        { t with finished := some normal, slices := [], seq := t.seq.map Sequencer.stop, queues := t.queues.map TeamQueue.outlive })
      let s := { s with tex := s.tex.filter (fun x => x.team != id) }
      let s := if normal then s.modLaunch t.die t.launch (fun l => { l with teams := l.teams + 1 }) else s
      let s := s.releasePins
      let s := match t.tag with
        | some n => s.testTag t.die n
        | none => s
      (s.freeTags t.die).settleOver

/-- A group whose lanes have all ended: its ending can complete its team's barriers, and the last one ends the
team. -/
def State.endGroup (s : State) (g : Group) : State :=
  let s := s.dropGroup g
  match s.team? g.team with
  | none => s
  | some t => if t.liveNums.isEmpty then s.endTeam t.id true else (s.testTeamBar t.id).testTree t.id

/-- Every group whose lanes have all ended ends. -/
def State.reap (s : State) : State := (s.groups.filter (fun g => g.over)).foldl (fun s g => s.endGroup g) s

/-- Whether a cause of a code gives the status of a launch (15 R286): the first in time stands, and in one cycle the lowest
code. A trap of a consumer counts as `FAULT`, though its producer's status is `ABANDONED_BY_SPLICE` (16 R303). -/
def Launch.gives (l : Launch) (now code : Nat) : Bool :=
  match l.status with
  | none => true
  | some x => l.statusAt / 5 == now / 5 && code < (if l.splice.any (fun sp => sp.cstatus == 1) then 1 else x)

/-- A launch is to end with a status, whose cause has `code` (15 R286). Its ring and bins are discarded, its teams stop and
release what they hold, and its saved teams are not resumed. -/
def State.abortLaunch (s : State) (die num status : Nat) (code : Nat := status) : State :=
  match s.launch? die num with
  | none => s
  | some l =>
    let now := l.gives s.ticks code
    let both := [2, 3, 7, 9].contains status
    let s := s.modLaunch die num (fun l =>
      { l with status := if now then some status else l.status, statusAt := if l.status.isNone then s.ticks else l.statusAt
               ring := []
               splice := l.splice.map (fun sp => if both && now then { sp with cstatus := status } else sp) })
    let keep := fun (b : Bin) => match b with
      | .bound _ n _ _ _ => if n == num then Bin.free else b
      | .free => b
    let gone := (s.saved.filter (fun v => v.team.die == die && v.team.launch == num)).map (fun v => v.team.id)
    let s := { s with bins := modAt (fun l => l.map keep) s.bins die,
                      tex := s.tex.filter (fun x => !gone.contains x.team),
                      reserves := s.reserves.filter (fun r => !(r.die == die && r.launch == num)),
                      saved := s.saved.filter (fun v => !(v.team.die == die && v.team.launch == num)) }
    let mine := (s.teams.filter (fun (t : Team) => t.die == die && t.launch == num)).map (·.id)
    let s := { s with banks := s.banks.filter (fun b => !b.owner.any gone.contains) }
    (mine.foldl (fun s id => s.endTeam id false) s).freeTags die

/-! ### `JOIN` (09 R180) -/

/-- The lanes of a group that wait at a `JOIN` and whose time has come: the last arrival goes on, the others end. -/
def Group.settleJoin (g : Group) (now : Nat) : Group :=
  let dead := g.live.filter (fun i => match (g.lane i).wait with
    | .until t d => t ≤ now && d
    | _ => false)
  let g := g.endLanes dead
  g.proceed (fun l => match l.wait with
    | .until t d => t ≤ now && !d
    | _ => false)

/-- The lanes of a group that found a counter of zero trap together, once every decrement of their `JOIN` is
performed. -/
def State.trapJoin (s : State) (gid : Nat) : State :=
  let g := s.group gid
  match g.live.filter (fun i => (g.lane i).wait == .joinZero) with
  | [] => s
  | i :: r =>
    let pc := (g.lane i).pc
    if g.stopped || g.live.any (fun j => (g.lane j).wait == .join && (g.lane j).pc == pc) then s
    else
      let ls := (i :: r).filter (fun j => (g.lane j).pc == pc)
      let s := s.modGroup gid (fun g => g.modLanes ls (fun l => { l with wait := .none }))
      s.takeTrap gid pc (s.wordsAt g.core g.tenant pc) (ls.map (fun j => (j, Trap.illegal 0x0D)))

/-- Every `JOIN` whose outcome is known settles. -/
def State.settleJoins (s : State) : State :=
  let s := { s with groups := s.groups.map (fun (g : Group) => g.settleJoin s.time) }
  (s.groups.map (fun (g : Group) => g.id)).foldl (fun s id => s.trapJoin id) s

end Sys2Proof.Machine
end

