-- ==== Sys2Proof/Machine/Control.lean ====
section
/-! DEFINITION. Control and synchronisation (09 R168 to R195): branches and calls, rejoin masks, `YIELD`, `NAP`
and `EXIT`, continuations, barriers, traps, firmware calls, system registers, clocks and queue registers. -/

namespace Sys2Proof.Machine

open Sys2Proof

/-! ### Instructions of a whole issue -/

/-- What an instruction of a whole issue does. -/
inductive GroupStep where
  /-- These of its enabled lanes go on; the others stay at it, and the state holds what they wait for. -/
  | go (ls : List Nat) (s : State)
  /-- It cannot execute yet: no lane moves. -/
  | stay (s : State)
  /-- Every enabled lane traps. -/
  | trap (t : Trap) (s : State)

/-- None of the lanes of an issue could issue. -/
def Cur.lanesStay (c : Cur) (s : State) : State := (lanesOf c.lanes).foldl State.stayed s

/-- Runs an instruction of a whole issue (09 R181, R191, 13 R252): the transaction check, the queue checks, the
pops, then the body on the enabled lanes. The lanes whose guard is false go on; an issue with no enabled lane has
no other effect. Where lanes would pop an entry with an error, those trap and no lane moves (08 R166; assumption log 102). -/
def groupExec (op : Op) (f : Full) (s : State)
    (body : State → Group → List Nat → List (Nat × W64) → GroupStep) : State :=
  let c := s.cur
  let g := s.group c.gid
  let en := s.enabledFor f
  let dis := (lanesOf c.lanes).filter (fun i => !en.contains i)
  let move := fun (s : State) (ls : List Nat) => s.modGroup c.gid (fun g => g.advanceAll ls c.size)
  if en.isEmpty then move s dis
  else if s.unsafeIssue op f then s.txAbort c.gid 7 0
  else match s.queueTraps op f with
  | some t => (move s dis).takeTrap c.gid c.pc c.words (en.map (fun i => (i, t)))
  | none =>
    let q := popQueueOf op f
    let bad := s.badPops op f
    if !bad.isEmpty then s.takeTrap c.gid c.pc c.words (bad.map (fun i => (i, streamError)))
    else
    let (got, s) := match q with
      | some q => s.popAll g.team q c.gid en
      | none => (en.map (fun i => (i, 0)), s)
    let undo := fun (s : State) (stay : Bool) => match q with
      | some q => s.unpop g.team q c.gid got (if stay then got.map (·.1) else [])
      | none => s
    if got.length < en.length then c.lanesStay (undo s true)
    else match body s g en got with
    | .go ls s => move s (ls ++ dis)
    | .stay s => c.lanesStay (undo s true)
    | .trap t s => (move (undo s false) dis).takeTrap c.gid c.pc c.words (en.map (fun i => (i, t)))

/-! ### Branches and calls (09 R168, R169, 03 R51) -/

/-- The target of `BRA` and `CALL` (03 R51). -/
def branchTarget (f : Full) (pc : W64) : W64 :=
  let off : W64 := match f.lit with
    | some l => l.signExtend 64
    | none => (f.sb ++ f.sc).signExtend 64
  pc + off * 4

/-- A lane goes to a target; one that is not a multiple of 4 traps at the transfer (02 R28). -/
def State.transfer (s : State) (i : Nat) (target : W64) : LaneStep :=
  if target.toNat % 4 != 0 then .trap (.misaligned target.toNat)
  else .gone (s.modGroup s.cur.gid (fun g => g.jump i target))

/-- `BRA` (09 R168). -/
def execBra (f : Full) (s : State) : Result :=
  .next (laneExec .bra f s (fun s _ _ i => s.transfer i (branchTarget f s.cur.pc)))
/-- `BRX` (09 R169). -/
def execBrx (f : Full) (s : State) : Result :=
  .next (laneExec .brx f s (fun s g _ i => s.transfer i (srcA .brx f g i 0)))
/-- `CALL` (09 R168): the return address, then the transfer. -/
def execCall (f : Full) (s : State) : Result :=
  .next (laneExec .call f s (fun s _ _ i =>
    (s.writeDest s.cur.gid i .call f [s.cur.pc + w64 s.cur.size]).transfer i (branchTarget f s.cur.pc)))
/-- `RET` (09 R169). -/
def execRet (f : Full) (s : State) : Result :=
  .next (laneExec .ret f s (fun s g got i => s.transfer i (srcA .ret f g i (poppedBy got i))))

/-! ### Rejoin masks (09 R170 to R172) -/

/-- Writes a mask and releases it when it is zero (09 R170). -/
def Group.setMask (g : Group) (j : Nat) (v : W32) : Group :=
  let g := g.writeJ j v
  if v == 0 then g.release j else g

/-- `JENR` (09 R170). -/
def execJenr (f : Full) (s : State) : Result :=
  .next (groupExec .jenr f s (fun s g en _ =>
    let j := f.dst.toNat
    .go en (s.modGroup g.id (fun g => g.writeJ j (g.readJ j ||| maskOf en.contains)))))
/-- `JSTR` (09 R170). -/
def execJstr (f : Full) (s : State) : Result :=
  .next (groupExec .jstr f s (fun s g en _ =>
    let j := f.dst.toNat
    .go en (s.modGroup g.id (fun g => g.setMask j (g.readJ j &&& ~~~maskOf en.contains)))))
/-- `JCLR` (09 R170). -/
def execJclr (f : Full) (s : State) : Result :=
  .next (groupExec .jclr f s (fun s g en _ => .go en (s.modGroup g.id (fun g => g.setMask f.dst.toNat 0))))
/-- `JARR` (09 R171, R172): with enforcement on, the enrolled arrivals park unless they are the last; with it
off, the lanes' bits are cleared and no lane parks. -/
def execJarr (f : Full) (s : State) : Result :=
  .next (groupExec .jarr f s (fun s g en _ =>
    let j := f.sa.toNat
    let here := en.filter (inMask (g.readJ j))
    let v := g.readJ j &&& ~~~maskOf en.contains
    if g.jenf && v != 0 then
      .go (en.filter (fun i => !here.contains i))
        (s.modGroup g.id (fun g => (g.writeJ j v).modLanes here (fun l => { l with park := 1, aux := j })))
    else .go en (s.modGroup g.id (fun g => g.setMask j v))))

/-! ### `YIELD`, `NAP` and `EXIT` (09 R175 to R177) -/

/-- `YIELD` (09 R175): the lanes are not ready until another address issues or eight issue cycles pass; it has
no effect when no other address of the group holds a ready lane. `yield` counts from nine to one, at which
`YIELD_EXPIRE` is due. When the other lanes are counted is the model's choice (assumption log 92). -/
def execYield (f : Full) (s : State) : Result :=
  .next (groupExec .yield f s (fun s g en _ =>
    let ready := fun (x : W64 × List Nat) => x.2.any (fun i => !(g.lane i).stuck)
    let others := (s.readySets (s.group g.id)).any (fun x => x.1 != s.cur.pc && x.1 != s.cur.pc + w64 s.cur.size && ready x)
    .go en (if others then s.modGroup g.id (fun g => g.modLanes en (fun l => { l with yield := 9 })) else s)))

/-- `NAP` (09 R176): the lane parks past it until the time; a value of 0 parks no lane. -/
def execNap (f : Full) (s : State) : Result :=
  .next (laneExec .nap f s (fun s g got i =>
    let n := (srcA .nap f g i (poppedBy got i)).toNat % 2 ^ 32
    .res (if n == 0 then s else s.modLane g.id i (fun l => { l with park := 4, napEnd := s.time + n })) [] 0))

/-- `EXIT` (09 R177, 01 R26). -/
def execExit (f : Full) (s : State) : Result :=
  .next (laneExec .exit f s (fun s g _ i => .gone (s.modGroup g.id (fun g => g.endLanes [i])))).reap

/-! ### Continuations (09 R178 to R180) -/

/-- The continuation record of a lane (09 R178): its flags word carries the group's tenant when pushed. -/
def recordOf (g : Group) (i r now : Nat) : Record :=
  { code := g.readG2 i r, frame := g.readG2 i (r + 2), join := g.readG2 i (r + 4),
    flags := (g.readG2 i (r + 6) &&& ~~~0xFFFF#64) ||| w64 (g.tenant % 2 ^ 16), time := now }

/-- The checks of `SPAWN` and `CONT` on a lane (09 R179). -/
def spawnTrap (g : Group) (r : Record) : Option Trap :=
  if !g.pool then some (.illegal 0x16)
  else if r.code.toNat % 4 != 0 then some (.misaligned r.code.toNat)
  else if !canonical r.code.toNat then some (.protection r.code.toNat)
  else if field r.flags 63 28 != 0 || field r.flags 23 21 != 0 then some (.illegal 0x0B)
  else none

/-- The 32 bytes of a continuation record (09 R178). -/
def Record.bytes (r : Record) : List Byte := bytes64 r.code ++ bytes64 r.frame ++ bytes64 r.join ++ bytes64 r.flags

/-- A record enters the ring of a launch, and its bytes the ring's memory (15 R276). -/
def State.pushRecord (s : State) (die num : Nat) (r : Record) : State :=
  match s.launch? die num with
  | none => s
  | some l =>
    let s := s.modLaunch die num (fun l => { l with ring := l.ring ++ [r], pushed := l.pushed + 1 })
    match l.ringPa with
    | none => s
    | some pa => s.engineWrite none (pa + 32 * (l.pushed % 2 ^ l.desc.ringLog2)) r.bytes

/-- A lane of `SPAWN` or `CONT` (09 R179): its record enters the ring of the launch once the group's earlier
writes are performed and the ring has room. `ready` says the first. -/
def State.spawnLane (s : State) (g : Group) (i r : Nat) (ready : Bool) (pushed : State → LaneStep) : LaneStep :=
  let x := recordOf g i r s.time
  match spawnTrap g x with
  | some t => .trap t
  | none =>
    let t := s.team g.team
    if !ready then .stay (s.writeBackGroup g.id)
    else match s.launch? t.die t.launch with
    | none => .stay s
    | some l =>
      if 2 ^ l.desc.ringLog2 ≤ l.ring.length then .stay s
      else pushed (s.pushRecord t.die t.launch x)

/-- `SPAWN` (09 R179). -/
def execSpawn (f : Full) (s : State) : Result :=
  let ready := s.drained s.cur.gid
  .next (laneExec .spawn f s (fun s g _ i => s.spawnLane g i f.sa.toNat ready (fun s => .res s [] 0)))
/-- `CONT` (09 R179, 01 R26). -/
def execCont (f : Full) (s : State) : Result :=
  let ready := s.drained s.cur.gid
  .next (laneExec .cont f s (fun s g _ i =>
    s.spawnLane g i f.sa.toNat ready (fun s => .gone (s.modGroup g.id (fun g => g.endLanes [i]))))).reap

/-- Whether a group's earlier writes allow an access of its to an address as a release point (17 R316): as `FENCE.DIE`, and
for another module as `FENCE.DOMAIN`, which waits 50 ns more, or 1 µs where this module is not synchronised. -/
def State.released (s : State) (gid pa : Nat) : Bool :=
  s.drained gid && (!s.isRemote pa || (s.group gid).wctime + (if s.synced then 50 else 1000) ≤ s.time)

/-- `JOIN` (09 R180): the decrement goes to the counter's home once the group's earlier writes are performed;
what follows it is settled by its outcome. -/
def execJoin (f : Full) (s : State) : Result :=
  let ready := s.released s.cur.gid
  .next (laneExec .join f s (fun s g got i =>
    let a := (srcA .join f g i (poppedBy got i)).toNat
    match s.place g .global a 8 .write with
    | .error t => .trap t
    | .ok p =>
      match s.remoteAnswer p a false with
      | some t => .trap t
      | none =>
      if s.routeHeld p then .stay s
      else if !ready p then .stay (s.writeBackGroup g.id)
      else
        let s := s.coreConflict g.core (p / 128) g.id i
        let s := (s.writeBack g.core (p / 128)).dropL1 g.core (p / 128)
        let s := s.modLane g.id i (fun l => { l with wait := .join })
        .gone (s.writeAtHome (p / 128) { core := some g.core, gid := some g.id, lane := i, op := .dec p })))

/-! ### Barriers (09 R181 to R184, 10 R201) -/

/-- The enabled lanes wait. -/
def State.await (s : State) (gid : Nat) (en : List Nat) (w : LaneWait) : State :=
  s.modGroup gid (fun g => g.modLanes en (fun l => { l with wait := w }))

/-- `BAR.TEAM` (09 R182). -/
def execBarTeam (f : Full) (s : State) : Result :=
  .next (groupExec .barTeam f s (fun s g en _ =>
    let s := (s.await g.id en .team).modTeam g.team (fun t => { t with barSet := t.barSet ||| (1#32 <<< g.num) })
    .go [] (s.testTeamBar g.team)))

/-- `BAR.NUM.MEET` (09 R183). -/
def execBarNumMeet (f : Full) (s : State) : Result :=
  .next (groupExec .barNum f s (fun s g en _ =>
    let b := f.sb.toNat
    let s := s.await g.id en (.num b ((s.team g.team).bar b).phase false)
    .go [] (s.arriveNum g.team b (some g.num) f.sc.toNat)))
/-- `BAR.NUM.POST` (09 R183). -/
def execBarNumPost (f : Full) (s : State) : Result :=
  .next (groupExec .barNum f s (fun s g en _ => .go en (s.arriveNum g.team f.sb.toNat (some g.num) f.sc.toNat)))
/-- `BAR.NUM.WAIT` (09 R183). -/
def execBarNumWait (f : Full) (s : State) : Result :=
  .next (groupExec .barNum f s (fun s g en _ =>
    .go [] (s.await g.id en (.num f.sb.toNat ((s.team g.team).bar f.sb.toNat).phase false))))

/-- `BAR.TREE` (09 R184). -/
def execBarTree (f : Full) (s : State) : Result :=
  .next (groupExec .barTree f s (fun s g en _ =>
    let t := s.team g.team
    let n := f.sb.toNat
    if g.pool || t.tag != some n then .trap (.illegal 0x0E) s
    else
      let ph := ((s.tag? t.die n).map (·.phase)).getD 0
      let s := (s.await g.id en (.tree n ph)).modTeam g.team (fun t => { t with treeSet := t.treeSet ||| (1#32 <<< g.num) })
      .go [] (s.testTree g.team)))

/-- `MBAR` (10 R201): the checks, the wait for the group's earlier writes, then the latch test, the latch and the
arrival as one step. -/
def execMbar (f : Full) (s : State) : Result :=
  .next (groupExec .mbar f s (fun s g en got =>
    let t := s.team g.team
    let word := fun i => (srcA .mbar f g i (poppedBy got i)).toNat % 2 ^ 32
    let w := word (en.headD 0)
    match t.seq with
    | none => .trap (.illegal 0x10) s
    | some q =>
      if q.st == .halted then .trap { cause := 0x0A, detail := q.err.toNat % 256 } s
      else if en.any (fun i => 4 < word i) then .trap (.illegal 0x0F) s
      else if en.any (fun i => word i != w) then .trap { cause := 0x0B, detail := 0x01 } s
      else if !s.drained g.id then .stay (s.writeBackGroup g.id)
      else
        let b := f.sb.toNat
        let nb := t.bar b
        if nb.latch.isSome && nb.latch != some w then .trap { cause := 0x0B, detail := 0x02 } s
        else
          let s := s.modTeam g.team (fun t => { t with bars := modAt (fun nb => { nb with latch := some w }) t.bars b })
          let s := s.await g.id en (.num b nb.phase true)
          .go [] (s.arriveNum g.team b (some g.num) (t.size + 1))))

/-! ### Traps and firmware calls (09 R186, R187) -/

/-- `TRAP` (09 R186). A lane that passes the closing check of a spliced loop has completed it (16 R303). -/
def execTrap (f : Full) (s : State) : Result :=
  let g := s.group s.cur.gid
  let t := s.team g.team
  let check := match s.launch? t.die t.launch with
    | some l => (l.origin s.cur.pc.toNat).1 == 3
    | none => false
  let en := s.enabledFor f
  let past := if check then (lanesOf s.cur.lanes).filter (fun i => !en.contains i) else []
  let s := s.modGroup g.id (fun g => g.modLanes past (fun l => { l with checks := l.checks + 1 }))
  .next (laneExec .trap f s (fun _ _ _ _ => .trap { cause := 0x0C, detail := f.sb.toNat }))
/-- `BKPT` (09 R186): a trap while a debug session is attached to the group's tenant, else nothing. -/
def execBkpt (f : Full) (s : State) : Result :=
  .next (laneExec .bkpt f s (fun s g _ _ =>
    if s.debugs.any (fun x => x.2 == g.tenant) then .trap { cause := 0x0D, detail := f.sb.toNat } else .res s [] 0))
/-- `NOP` (09 R189). -/
def execNop (f : Full) (s : State) : Result := .next (laneExec .nop f s (fun s _ _ _ => .res s [] 0))

/-- `FWCALL` (09 R187): the group stalls past it with its request; `FWCALL_ANSWER` writes the results, at the end of the
lookahead window where it pops a queue (02 R35, 03 R54). -/
def execFwcall (f : Full) (s : State) : Result :=
  let s := if s.unsafeIssue .fwcall f then s else s.writeBackGroup s.cur.gid
  .next (laneExec .fwcall f s (fun s g got i =>
    let a := srcA .fwcall f g i (poppedBy got i)
    let w := match (s.group g.id).wait with
      | .fwcall ls svc d x la as => GroupWait.fwcall (ls ||| (1#32 <<< i)) svc d x la (as ++ [a])
      | _ => .fwcall (1#32 <<< i) f.sb.toNat f.dst.toNat f.xd (if f.isLong .fwcall then f.la.toNat else 0) [a]
    .gone (s.modGroup g.id (fun g => { g.advance i s.cur.size with wait := w }))))

/-! ### System registers (09 R188, 01 R20 to R25 and the tables of the later chapters) -/

/-- `LSTAT` of a lane that reads it (01 Table 1-3, R20). -/
def Group.lstat (g : Group) (i : Nat) : Nat :=
  i + g.part % 8 * 2 ^ 5 + g.pool.toNat * 2 ^ 8 + g.jenf.toNat * 2 ^ 9 + g.pkt8.toNat * 2 ^ 10 + g.tx.isSome.toNat * 2 ^ 11

/-- `CLINFO` (13 Table 13-1). -/
def State.clinfo (s : State) (g : Group) : Nat :=
  let t := s.team g.team
  let at_ := g.core % 96
  let place := at_ % 12 * 2 ^ 4 + at_ / 12 * 2 ^ 8
  if g.pool then place + 2 ^ 12 + 2 ^ 16
  else t.tag.isSome.toNat * 8 + t.tag.getD 0 + place + t.cw * 2 ^ 12 + t.ch * 2 ^ 16 + t.cidx * 2 ^ 20

/-- `MSEQSTAT` (10 Table 10-3). -/
def Sequencer.stat (q : Sequencer) : Nat :=
  q.st.code + q.mfmt % 8 * 2 ^ 8 + q.fset.toNat * 2 ^ 11 + bitsOf (q.a.map (·.full)) * 2 ^ 16 +
    bitsOf (q.b.map (·.full)) * 2 ^ 20 + bitsOf (q.acc.map (·.valid)) * 2 ^ 24

/-- `TRAPOPC` (16 Table 16-4). -/
def State.trapOpc (s : State) (g : Group) : W64 :=
  let t := s.team g.team
  let (o, pc) := match s.launch? t.die t.launch with
    | some l => l.origin g.trapPc.toNat
    | none => (0, g.trapPc.toNat)
  w64 (pc / 4 * 4 + o)

/-- The number of `TIMESTAT` (01 Table 1-7). -/
def TimeState.code : TimeState → Nat
  | .unlocked => 0
  | .locked => 1
  | .holdover => 2
  | .unsynced => 3

/-- The value of a system register on a lane; none for a number that is not assigned (01 R25). -/
def State.readSr (s : State) (g : Group) (i n : Nat) : Option W64 :=
  let l := g.lane i
  let t := s.team g.team
  let sq := fun (f : Sequencer → W64) => (t.seq.map f).getD 0
  if 0x0C0 ≤ n && n < 0x0C8 then some (s.rcmap.getD (n - 0x0C0) 0)
  else if 0x060 ≤ n && n < 0x064 then some (g.vwin.getD (n - 0x060) 0)
  else match n with
  | 0x000 => some (w64 (g.lstat i))
  | 0x001 => some (l.fflags.setWidth 64)
  | 0x002 => some t.fmode
  | 0x010 => some (g.trapCause.setWidth 64)
  | 0x011 => some g.trapPc
  | 0x012 => some (g.trapMask.setWidth 64)
  | 0x013 => some g.trapAddr
  | 0x014 => some g.trapW0
  | 0x015 => some (g.trapW1.setWidth 64)
  | 0x020 => some (w64 s.time)
  | 0x021 => some (w64 (TimeState.code s.tstat))
  | 0x030 => some (w64 (g.tenant % 2 ^ 16))
  | 0x040 => some (w64 g.wctime)
  | 0x048 => some (w64 ((16 - l.fwd.length) * 2 ^ 16 + (8 - l.ret.length) * 2 ^ 8))
  | 0x050 => some (sq (fun q => q.pc &&& ~~~3#64))
  | 0x051 => some (sq (fun q => w64 q.stat))
  | 0x052 => some (sq (·.err))
  | 0x053 => some (sq (·.epc))
  | 0x054 => some (sq (fun q => q.flg.setWidth 64))
  | 0x058 => some t.texbase
  | 0x059 => some s.leaselen
  | 0x064 => some (w64 (s.clinfo g))
  | 0x070 => some (s.poolage.getD (dieOfCore g.core) 0)
  | 0x0A0 => some (s.trapOpc g)
  | _ => none

/-- The reserved bits of a system register, in which a written 1 traps (00 R5). -/
def srReserved (n : Nat) : W64 :=
  if 0x060 ≤ n && n < 0x064 then ~~~0x1FFF1FFF0001#64
  else match n with
  | 0x000 => ~~~0xFFFF#64
  | 0x001 => ~~~0x1F#64
  | 0x002 => ~~~0xF#64
  | 0x010 => ~~~0xFFFF#64
  | 0x021 => ~~~0x3#64
  | 0x030 => ~~~0xFFFF#64
  | 0x048 => ~~~0x1F0F00#64
  | 0x050 => 3#64
  | 0x051 => ~~~0xFFFF0F07#64
  | 0x052 => ~~~0x1FFFFFFF000087FF#64
  | 0x054 => ~~~0x1F#64
  | 0x058 => 0x3F#64
  | 0x059 => ~~~0xFFFF#64
  | 0x064 => ~~~0xFFFFFF#64
  | 0x070 => ~~~0xFFFFF#64
  | _ => 0

/-- The effect of a write of a system register of team scope: `FMODE` (01 R21), `MSEQPC`, which
starts the sequencer (10 R199), `MSEQFLG` (10 Table 10-6), `TEXBASE` (11 R228). -/
def Team.writeSr (t : Team) (n : Nat) (v : W64) : Team :=
  match n with
  | 0x002 => { t with fmode := v }
  | 0x050 => { t with seq := t.seq.map (fun q => { q with err := 0, epc := 0, pc := v, st := .running }) }
  | 0x054 => { t with seq := t.seq.map (fun q => { q with flg := q.flg &&& ~~~(v.setWidth 5) }) }
  | 0x058 => { t with texbase := v }
  | _ => t

/-- The write of a system register by a lane (09 R188): the new state, or the trap. A register of team scope changes for
the instructions that issue after the `WRSR` has retired, with this cycle (01 R21). -/
def State.writeSr (s : State) (g : Group) (i n : Nat) (v : W64) : Except Trap State :=
  if (s.readSr g i n).isNone then .error (.illegal 0x09)
  else if n == 0x054 && ((s.team g.team).seq).isNone then .error (.illegal 0x10)
  else if v &&& srReserved n != 0 then .error (.illegal 0x09)
  else match n with
  | 0x001 => .ok (s.modLane g.id i (fun l => { l with fflags := l.fflags &&& ~~~(v.setWidth 5) }))
  | 0x002 | 0x054 | 0x058 => .ok (s.modTeam g.team (fun t => { t with srNext := t.srNext ++ [(n, v)] }))
  | _ => .ok s

/-- `RDSR` (09 R188). -/
def execRdsr (f : Full) (s : State) : Result :=
  .next (laneExec .rdsr f s (fun s g _ i =>
    match s.readSr (s.group g.id) i f.sr with
    | some v => .res s [v] 0
    | none => .trap (.illegal 0x09)))

/-- `WRSR` on each lane, ascending (09 R188). -/
def wrsrLanes (f : Full) (s : State) : State :=
  laneExec .wrsr f s (fun s g _ i =>
    match s.writeSr g i f.sr (srcA .wrsr f g i 0) with
    | .ok s => .res s [] 0
    | .error t => .trap t)

/-- `WRSR` (09 R188, 01 R20 to R25). -/
def execWrsr (f : Full) (s : State) : Result := .next (wrsrLanes f s)
/-- `WRSR` to `TEXBASE` (11 R228): the team's cached descriptors are dropped; this model keeps none. -/
def execWrsrTexbase (f : Full) (s : State) : Result := .next (wrsrLanes f s)
/-- `WRSR` to `MSEQPC` (10 R199): one write, from the highest enabled lane, that starts the sequencer as it retires with
this cycle (09 R188). A start that another group has issued in the same cycle counts as one already made
(assumption log 119). -/
def execWrsrMseqpc (f : Full) (s : State) : Result :=
  .next (groupExec .wrsr f s (fun s g en _ =>
    let v := srcA .wrsr f g (en.getLastD 0) 0
    match (s.team g.team).seq with
    | none => .trap (.illegal 0x10) s
    | some q =>
      if v.toNat % 4 != 0 then .trap (.illegal 0x09) s
      else if (q.st == .idle || q.st == .halted) && !(s.team g.team).srNext.any (fun x => x.1 == 0x050) then
        .go en (s.modTeam g.team (fun t => { t with srNext := t.srNext ++ [(0x050, v)] }))
      else .trap (.illegal 0x10) s))

/-! ### Clocks (09 R189) -/

/-- `CLOCK.TIME` (09 R189, 00 R8). -/
def execClockTime (f : Full) (s : State) : Result :=
  .next (laneExec .clock f s (fun s g _ _ => finishAlu s .clock f g [w64 s.time] 0))
/-- `CLOCK.CYC` (09 R189): the core clocks since the core left reset. -/
def execClockCyc (f : Full) (s : State) : Result :=
  .next (laneExec .clock f s (fun s g _ _ => finishAlu s .clock f g [w64 ((s.ticks - (s.cores.getD g.core {}).reset) / 5)] 0))

/-! ### Queue registers (09 R191, R193, R194) -/

/-- The lanes that wait on a queue whose binding changes try again (assumption log 94). -/
def State.wakeAll (s : State) (team q : Nat) : State :=
  let tq := (s.team team).queue q
  let s := tq.waiters.foldl (fun s x =>
    s.modLane x.1 x.2 (fun l => if l.park == 3 && l.aux == q then { l with park := 0 } else l)) s
  s.modTeam team (fun t => t.modQueue q (fun x => { x with waiters := [] }))

/-- The effect of `QFLUSH` on a queue (09 R194): none where entries that the port has taken are still owed a
result; a discarded texture request ends its fill (assumption log 14). -/
def State.flushQueue (s : State) (gid : Nat) (en : List Nat) (q : Nat) : Option State :=
  let team := (s.group gid).team
  let tq := (s.team team).queue q
  match tq.port with
  | 0 => some s
  | 1 => some (s.modGroup gid (fun g => g.modLanes en (fun l => { l with fwd := [], fwdBad := [] })))
  | 2 => some (s.modGroup gid (fun g => g.modLanes en (fun l => { l with ret := [], retBad := [] })))
  | p =>
    if tq.taken != 0 then none
    else
      let s := s.modTeam team (fun t => t.modQueue q (fun x => { x with entries := [] }))
      let s := if p == 5 then tq.entries.foldl (fun s e => s.endFill team (field e.val 17 7)) s else s
      some (s.wakeQueue team q true)

/-- Whether a descriptor of `QBIND` is allowed on a queue of a group's team (09 R191). -/
def State.bindOk (s : State) (g : Group) (q : Nat) (d : W64) : Bool :=
  let t := s.team g.team
  let port := field d 7 0
  let inst := field d 15 8
  field d 63 16 == 0 && port ≤ 9 &&
  (if port == 9 then Sparse.get 0 s.grants (256 + inst) == g.tenant + 1 else inst == 0) &&
  (port == 0 || !(List.range 16).any (fun k => k != q && (t.queue k).port == port)) &&
  (!(port == 3 || port == 4) || t.seq.isSome)

/-- `QBIND` (09 R191). -/
def execQbind (f : Full) (s : State) : Result :=
  .next (groupExec .qbind f s (fun s g en got =>
    let i := en.getLastD 0
    let d := srcA .qbind f g i (poppedBy got i)
    let q := f.sb.toNat
    let tq := (s.team g.team).queue q
    if !s.bindOk g q d then .trap (.illegal 0x0C) s
    else if tq.port == field d 7 0 && tq.inst == field d 15 8 then .go en s
    else match s.flushQueue g.id en q with
    | none => .stay s
    | some s =>
      let s := s.wakeAll g.team q
      .go en (s.modTeam g.team (fun t => t.modQueue q (fun _ => { port := field d 7 0, inst := field d 15 8 })))))

/-- `QSTAT` (09 R193, Table 9-3). -/
def execQstat (f : Full) (s : State) : Result :=
  .next (laneExec .qstat f s (fun s g _ i =>
    let q := f.sb.toNat
    let tq := (s.team g.team).queue q
    let (held, free) := s.queueCounts g.team q g.id i
    let v := if tq.port == 0 then 0 else 2 ^ 31 + tq.port * 2 ^ 16 + free * 2 ^ 8 + held
    finishAlu s .qstat f g [w64 v] 0))

/-- `QFLUSH` (09 R194). -/
def execQflush (f : Full) (s : State) : Result :=
  .next (groupExec .qflush f s (fun s g en _ =>
    match s.flushQueue g.id en f.sb.toNat with
    | none => .stay s
    | some s => .go en s))

end Sys2Proof.Machine
end

