-- ==== Sys2Proof/Machine/Copies.lean ====
section
/-! DEFINITION. The cluster (13): barrier objects (R250 to R253), the copy engine (R254 to R261), the barrier tree
(R262, R264), retention (R248, R249) and the failure of mesh links and tree wires (R264). -/

namespace Sys2Proof.Machine

open Sys2Proof

/-! ### Barrier objects (13 R250 to R253) -/

/-- The checks of the address of a barrier object (13 R252). -/
def objTrap (g : Group) (a : Nat) (write : Bool) : Option Trap :=
  if a % 64 != 0 then some (.misaligned a)
  else if !vaultRange g.vwin a 64 write then some (.protection a)
  else none

/-- An operation of a group on a barrier object (13 R252): its checks, the group's earlier writes, the pins of its line
(10 R205), the array it lies in, then the operation. -/
def objExec (op : Op) (f : Full) (s : State) (body : State → Group → Nat → Nat → Option State) : State :=
  groupExec op f s (fun s g en got =>
    let i := en.headD 0
    let a := (srcA op f g i (poppedBy got i)).toNat
    match objTrap g a true with
    | some t => .trap t s
    | none =>
      if !s.drained g.id || s.lineKept (dieOfCore g.core) (a / 128) then .stay (s.writeBackGroup g.id)
      else match s.readArray (arrayOf (dieOfCore g.core) a) (.lane g.id i s.cur.pc) with
        | (false, s) => .stay s
        | (true, s) => match body s g a (srcB op f g i).toNat with
          | none => .trap (.illegal 0x12) s
          | some s => .go en s)

/-- The bytes of an object that `BOBJ.INIT` writes (13 Table 13-6). -/
def objInit (n : Nat) : List Byte :=
  leOf 4 n ++ List.replicate 24 0 ++ leOf 2 0x424F ++ List.replicate 34 0

/-- `BOBJ.INIT` (13 R252). -/
def execBobjInit (f : Full) (s : State) : Result :=
  .next (objExec .bobjInit f s (fun s g a n =>
    let n := n % 2 ^ 32
    if n == 0 || 65535 < n then none
    else
      let bs := objInit n
      some (s.setVault (dieOfCore g.core) ((List.range 64).map (fun i => (a + i, bs.getD i 0))))))

/-- `BOBJ.EXPECT` (13 R252). -/
def execBobjExpect (f : Full) (s : State) : Result :=
  .next (objExec .bobjExpect f s (fun s g a b => s.objOp (dieOfCore g.core) a .arrive (b % 2 ^ 32)))

/-- `BOBJ.WAIT` (13 R252): it goes on at once where the phase bit differs from `P`, else the group issues nothing
more until it does. -/
def execBobjWait (f : Full) (s : State) : Result :=
  .next (groupExec .bobjWait f s (fun s g en got =>
    let i := en.headD 0
    let a := (srcA .bobjWait f g i (poppedBy got i)).toNat
    let p := f.fam % 2 == 1
    match objTrap g a false with
    | some t => .trap t s
    | none => match s.readArray (arrayOf (dieOfCore g.core) a) (.lane g.id i s.cur.pc) with
      | (false, s) => .stay s
      | (true, s) =>
        if s.phaseBit (dieOfCore g.core) a != p then .go en s
        else
          let pops := (popQueueOf .bobjWait f).map (fun q => (q, maskOf en.contains))
          .stay (s.modGroup g.id (fun g => { g with wait := .object a p s.cur.lanes pops }))))

/-! ### The supply of slices (13 R254) -/

/-- `TCOPY` or `TCOPY.2D` on its issue (13 R254): the checks, then the group's slice; its lanes stay until the
copy is formed. -/
def copyExec (op : Op) (two : Bool) (f : Full) (s : State) : State :=
  groupExec op f s (fun s g en got =>
    let i := en.headD 0
    let d := (srcA op f g i (poppedBy got i)).toNat
    let w := srcB op f g i
    let t := s.team g.team
    if d % 64 != 0 then .trap (.misaligned d) s
    else if t.lsBytes < d + 64 then .trap (.protection d) s
    else if !two && w &&& 0x0000000300000003#64 != 0 then .trap (.illegal 0x13) s
    else
      let (n, s) := (s.writeBackGroup g.id).fresh
      let l := (s.launch? t.die t.launch).getD { die := t.die, num := t.launch }
      let sl : Slice := { gid := g.id, num := g.num, two := two, desc := d, word := w, lanes := maskOf en.contains,
                          here := s.cur.lanes, serial := n, origin := (l.origin s.cur.pc.toNat).1,
                          pops := popQueueOf op f }
      let s := en.foldl (fun s i => s.oweDest g.id i op f n) s
      let s := s.modTeam g.team (fun t => { t with slices := t.slices ++ [sl] })
      .stay (s.modGroup g.id (fun g => { g with wait := .copy })))

/-- `TCOPY` (13 R254). -/
def execTcopy (f : Full) (s : State) : Result := .next (copyExec .tcopy false f s)
/-- `TCOPY.2D` (13 R254). -/
def execTcopy2d (f : Full) (s : State) : Result := .next (copyExec .tcopy2d true f s)

/-- A slice is withdrawn (13 R261): its group supplies it again. -/
def State.withdrawSlice (s : State) (gid : Nat) : State :=
  let g := s.group gid
  let mine := (s.team g.team).slices.filter (fun (x : Slice) => x.gid == gid)
  let s := s.modTeam g.team (fun t => { t with slices := t.slices.filter (fun (x : Slice) => x.gid != gid) })
  let drop := fun (l : Lane) => { l with pend := l.pend.filter (fun (p : Pend) => !mine.any (fun (x : Slice) => x.serial == p.serial)) }
  s.modGroup gid (fun g => { g with
    lanes := g.lanes.map drop
    wait := if g.wait == .copy then .none else g.wait })

/-! ### Forming a copy (13 R254 to R256, R258) -/

/-- A formed copy by its number. -/
def State.copy? (s : State) (id : Nat) : Option Copy := s.copies.find? (fun (c : Copy) => c.id == id)

/-- Changes a copy. -/
def State.modCopy (s : State) (id : Nat) (f : Copy → Copy) : State :=
  { s with copies := updWhere (fun (c : Copy) => c.id == id) f s.copies }

/-- The words of a copy. -/
def Copy.words (c : Copy) : Nat := c.rowBytes * c.rows / 4

/-- The source address of word n. -/
def Copy.srcAt (c : Copy) (n : Nat) : Nat :=
  let w := c.rowBytes / 4
  wrapNat 64 ((c.src : Int) + (n / w : Nat) * c.sstride + (4 * (n % w) : Nat))

/-- The destination address of word n. -/
def Copy.dstAt (c : Copy) (n : Nat) : Nat :=
  let w := c.rowBytes / 4
  (c.dst + n / w * c.dstride + 4 * (n % w)) % 2 ^ 64

/-- Whether the rows of a copy, given the address of each, keep the limits of a space (13 R256 item 2). -/
def rangeOk (space : Nat) (lsBytes : Nat) (vwin : List W64) (write : Bool) (n : Nat) (starts : List Nat) : Bool :=
  starts.all (fun a => match space with
    | 0 => canonical a && canonical ((a + n - 1) % 2 ^ 64)
    | 1 => a + n ≤ lsBytes
    | _ => vaultRange vwin a n write)

/-- The slices of a copy in group order join without a gap and cover it (13 R256 item 1). -/
def slicesCover (l : List Slice) (total : Nat) : Bool :=
  let e := l.foldl (fun (x : Option Nat) (sl : Slice) => match x with
    | none => none
    | some at_ => if field sl.word 31 0 == at_ then some (at_ + field sl.word 63 32) else none) (some 0)
  e == some total

/-- The copy that the slices of a team give, with the status of its first failed check (13 R255 to R257). -/
def Team.copyOf (t : Team) (id : Nat) (l : List Slice) : Copy :=
  let l := sortBy (fun (a b : Slice) => a.num < b.num) l
  match l with
  | [] => { id := id, cluster := 0, team := t.id }
  | first :: _ =>
    let d := t.lsBytesAt first.desc 64
    let rd := fun (o n : Nat) => leVal ((d.drop o).take n)
    let two := first.two
    let total := rd 0x20 8
    let rowBytes := if two then total % 2 ^ 32 else total
    let rows := if two then total / 2 ^ 32 else 1
    let sstr := rd 0x28 8
    let dstr := rd 0x30 8
    let bobj := rd 0x18 8
    let wgt := rd 0x12 1
    let c : Copy :=
      { id := id, cluster := t.die * 8 + clusterOfCore t.core, team := t.id, launch := t.launch, die := t.die,
        tenant := t.tenant, seq := t.copySeq, two := two, src := rd 0x00 8, dst := rd 0x08 8, sspc := rd 0x10 1,
        dspc := rd 0x11 1, weight := 2 ^ wgt, object := bobj, rowBytes := rowBytes, rows := rows,
        sstride := signed 64 sstr, dstride := if two then dstr else rowBytes,
        count := (if two then rowBytes * rows else total) % 2 ^ 64, vwin := t.vwin, slices := l, origin := first.origin }
    let sliceOk := l.all (fun (x : Slice) => x.two == two && x.desc == first.desc) && slicesCover l (if two then rows else total)
    let limits := c.src % 4 == 0 && c.dst % 4 == 0 && c.sspc ≤ 2 && c.dspc ≤ 2 && wgt ≤ 2 && rd 0x13 5 == 0 &&
      bobj % 64 == 0 && rd 0x38 8 == 0 &&
      (if two then rowBytes % 4 == 0 && 4 ≤ rowBytes && rowBytes ≤ 65536 && 1 ≤ rows && rows ≤ 65536 && sstr % 4 == 0 &&
        dstr % 4 == 0 && rowBytes ≤ dstr
      else total % 4 == 0 && 4 ≤ total && total ≤ 2 ^ 32 - 4 && sstr == 0 && dstr == 0)
    let w := rowBytes / 4
    let starts := fun (at_ : Nat → Nat) => (List.range rows).map (fun r => at_ (r * w))
    let descOk := sliceOk && limits && rangeOk c.sspc t.lsBytes t.vwin false rowBytes (starts c.srcAt) &&
      rangeOk c.dspc t.lsBytes t.vwin true rowBytes (starts c.dstAt)
    let objOk := bobj == 0 || vaultRange t.vwin bobj 64 true
    { c with status := if !sliceOk then 1 else if !descOk then 2 else if !objOk then 5 else 0 }

/-- The local-store lines that a copy writes. -/
def Copy.lines (c : Copy) : List Nat :=
  let w := c.rowBytes / 4
  ((List.range c.rows).flatMap (fun r =>
    let a := c.dstAt (r * w)
    (List.range ((a + c.rowBytes - 1) / 128 + 1 - a / 128)).map (fun k => a / 128 + k))).eraseDups

/-- Whether the slices of a team form its next copy now: every group that has not ended has supplied one, and
the earlier writes of all of them are performed (13 R254). -/
def State.canForm (s : State) (t : Team) : Bool :=
  !t.slices.isEmpty && t.liveNums.all (fun n => t.slices.any (fun (x : Slice) => x.num == n)) &&
    t.slices.all (fun (x : Slice) => s.drained x.gid)

/-- The groups of a formed copy go on past their `TCOPY`, which takes what it pops. -/
def State.passCopy (s : State) (l : List Slice) : State :=
  l.foldl (fun s (x : Slice) => (s.popWaited x.gid (x.pops.map (fun q => (q, x.lanes)))).modGroup x.gid (fun g =>
    { g.advanceAll ((lanesOf x.here).filter (fun i => !(g.lane i).ended)) 8 with wait := .none })) s

/-- The cluster of a team, of both dies. -/
def Team.cluster (t : Team) : Nat := t.die * 8 + clusterOfCore t.core

/-- Whether firmware has a fault of a cluster's spill ring to resolve. -/
def State.ringFaulted (s : State) (cluster : Nat) : Bool := s.ringFaults.any (fun x => x.1 == cluster)

/-- Where a formed copy goes (13 R258): into one of the cluster's 64 entries, or into its spill ring of 4,096
entries, and then whether it is spilled; or nowhere yet. Whether the write of a ring entry faults is a free value (assumption
log 16); while firmware resolves a fault, no copy enters the ring. -/
def State.copyRoom (s : State) (cluster : Nat) : Option Bool × State :=
  let mine := s.copies.filter (fun (c : Copy) => c.cluster == cluster)
  let ring := mine.filter (fun (c : Copy) => c.spilled)
  if mine.length - ring.length < 64 && ring.isEmpty then (some false, s)
  else if 4096 ≤ ring.length || s.ringFaulted cluster then (none, s)
  else
    let (fault, s) := s.drawBool
    if fault then (none, { s with ringFaults := s.ringFaults ++ [(cluster, false)] }) else (some true, s)

/-- The engine reads the descriptor, checks it and forms a team's next copy, spilled or not; the lines of a local destination
become absent (13 R254, R256, R257). `lost` says that it ends with `SPILL_FAULT` (13 R258). -/
def State.formCopy (s : State) (t : Team) (spill lost : Bool) : State :=
  let (id, s) := s.fresh
  let c := t.copyOf id t.slices
  let fills := c.status == 0 && c.dspc == 1
  let c := { c with spilled := spill, filling := fills, status := if c.status == 0 && lost then 6 else c.status }
  let s := s.passCopy t.slices
  let s := s.modTeam t.id (fun t =>
    let t := { t with slices := [], copySeq := (t.copySeq + 1) % 2 ^ 16 }
    if fills then c.lines.foldl (fun (t : Team) ln => t.beginFill ln) t else t)
  { s with copies := s.copies ++ [c] }

/-- COPY_FORM (13 R254): a team's next copy is formed once there is room for it. -/
def execCopyForm (s : State) : Result :=
  match s.team? s.ev.obj with
  | none => .next s
  | some t =>
    if !s.canForm t then .next s
    else match s.copyRoom t.cluster with
      | (none, s) => .next s
      | (some spill, s) => .next (s.formCopy t spill false)

/-- What firmware makes of a fault of a spill ring in a cycle (13 R258), a free value (assumption log 16): it is still at it,
has resolved it, or cannot. A copy that waits to be read from the ring, or those that wait to be written to it, then end with
`SPILL_FAULT`. -/
def State.settleRing (s : State) (x : Nat × Bool) : State :=
  let (k, s) := s.drawNat
  let done := { s with ringFaults := s.ringFaults.filter (· != x) }
  match k % 3 with
  | 0 => s
  | 1 => done
  | _ =>
    if x.2 then match done.copies.find? (fun (c : Copy) => c.cluster == x.1 && c.spilled) with
      | none => done
      | some c => { done with copies := updWhere (fun (y : Copy) => y.id == c.id) (fun y =>
          { y with
            spilled := false
            status := if y.status == 0 then 6 else y.status }) done.copies }
    else (done.teams.filter (fun (t : Team) => t.cluster == x.1 && s.canForm t)).foldl (fun s t => s.formCopy t false true) done

/-- Every fault of a spill ring. -/
def State.settleRings (s : State) : State := s.ringFaults.foldl State.settleRing s

/-! ### Moving words (13 R257, R259, R263) -/

/-- What comes of an access of the engine to one word. -/
inductive WordEnd where
  | ok (bs : List Byte) (s : State)
  | fault (s : State)
  | refused (s : State)
  | ecc (s : State)
  | wait (s : State)

/-- The engine reads a word (13 R257, 17 R317): at its home, in the team's local store, or in the vault. -/
def State.copyRead (s : State) (c : Copy) (a : Nat) : WordEnd :=
  match c.sspc with
  | 0 =>
    match s.translate c.tenant a .read with
    | .error _ => .fault s
    | .ok p =>
      if (s.remoteRefusal p a).isSome then .refused s
      else if s.isRemote p then
        if s.routeHeld p then .wait s
        else if (s.remoteAnswer p a false).isSome then .refused s
        else
          let (bs, s) := (s.engineLoads p 4).drawBytes 4
          .ok bs s
      else if s.fetchHeld p || s.bankHeld p then .wait (s.askBank p)
      else if s.poison.contains (0, p / 64) then
        .ecc (s.raiseError { sev := 1, src := 6, tenant := c.tenant } 5 (s.dram p).place)
      else
        let s := ((s.askBank p).txReadConflict (p / 128) none none).mscTouch p 0 false
        .ok (s.homeBytes p 4) s
  | 1 =>
    let t := s.team c.team
    if s.underTest 2 (t.core * 2048 + (t.lsBase + a) / 128) then .wait s
    else if s.poison.contains (1, c.team * 2048 + a / 128) then
      .ecc (s.raiseError { sev := 1, src := 2, tenant := c.tenant } 2 (t.core * 2048 + (t.lsBase + a) / 128))
    else .ok (t.lsBytesAt a 4) s
  | _ =>
    if s.underTest 4 (c.die * 2 ^ 22 + a / 128) then .wait s
    else match s.readArray (arrayOf c.die a) (.copy c.id) with
    | (false, s) => .wait s
    | (true, s) =>
      if s.poison.contains (2, c.die * 2 ^ 22 + a / 128) then
        .ecc (s.raiseError { sev := 1, src := 4, tenant := c.tenant } 4 (c.die * 2 ^ 22 + a / 128))
      else .ok (s.vaultBytes c.die a 4) s

/-- Whether every word of a destination line is one of the copy's. -/
def Copy.wholeLine (c : Copy) (line : Nat) : Bool :=
  (List.range 32).all (fun k =>
    let a := line * 128 + 4 * k
    c.dst ≤ a && (a - c.dst) / c.dstride < c.rows && (a - c.dst) % c.dstride < c.rowBytes)

/-- The engine writes a word (13 R257, 17 R317). A copy that writes a whole vault line clears its poison (13
R263). -/
def State.copyWrite (s : State) (c : Copy) (a : Nat) (bs : List Byte) : WordEnd :=
  let cells := fun (p : Nat) => (List.range 4).map (fun i => (p + i, bs.getD i 0))
  match c.dspc with
  | 0 =>
    match s.translate c.tenant a .write with
    | .error _ => .fault s
    | .ok p =>
      if (s.remoteRefusal p a).isSome then .refused s
      else if s.routeHeld p then .wait s
      else if (s.remoteAnswer p a false).isSome then .refused s
      else .ok bs (s.writeAtHome (p / 128) { op := .store (cells p), origin := c.id + 1 })
  | 1 =>
    let t := s.team c.team
    if s.underTest 2 (t.core * 2048 + (t.lsBase + a) / 128) then .wait s else .ok bs (s.modTeam c.team (fun t => t.setLs a bs))
  | _ =>
    let s := s.vaultWrite { die := c.die, serial := c.id + 1, op := .store (cells a) }
    let clear := a % 128 == 124 && c.wholeLine (a / 128)
    .ok bs (if clear then { s with poison := s.poison.filter (· != (2, c.die * 2 ^ 22 + a / 128)) } else s)

/-- A translation fault of a copy is offered to firmware; the copy waits (13 R257, 15 R288). -/
def State.copyFault (s : State) (c : Copy) (a : Nat) (write : Bool) : State :=
  ((s.modCopy c.id (fun x => { x with waiting := true })).engineFault c.die c.launch c.origin).enqueueFault c.die
    (.copy c.id a write)

/-- A request to another module that is refused ends the copy with a status (22 R398). -/
def State.copyRefused (s : State) (c : Copy) (status : Nat) : State :=
  (s.modCopy c.id (fun x => { x with status := status })).engineFault c.die c.launch c.origin

/-- Whether a copy can move a word. -/
def Copy.movable (c : Copy) : Bool := c.active && !c.waiting && c.status == 0 && c.moved < c.words

/-- Moves up to n words of a copy. -/
def State.copyWords (s : State) (id : Nat) : Nat → State
  | 0 => s
  | n + 1 =>
    match s.copy? id with
    | none => s
    | some c =>
      if !c.movable then s
      else
        let a := c.srcAt c.moved
        let b := c.dstAt c.moved
        match s.copyRead c a with
        | .fault s => s.copyFault c a false
        | .refused s => s.copyRefused c 3
        | .ecc s => s.modCopy id (fun x => { x with status := 7 })
        | .wait s => s
        | .ok bs s => match s.copyWrite c b bs with
          | .fault s => s.copyFault c b true
          | .refused s => s.copyRefused c 4
          | .ecc s => s
          | .wait s => s
          | .ok _ s => (s.modCopy id (fun x => { x with moved := x.moved + 1 })).copyWords id n

/-- The engine takes copies from its entries in formation order, up to eight active ones (13 R259). -/
def State.activate (s : State) (cluster : Nat) : State :=
  let mine := s.copies.filter (fun (c : Copy) => c.cluster == cluster && !c.spilled && c.status == 0)
  let n := (mine.filter (fun (c : Copy) => c.active)).length
  let next := ((mine.filter (fun (c : Copy) => !c.active)).take (8 - n)).map (fun (c : Copy) => c.id)
  next.foldl (fun s id => s.modCopy id (fun c => { c with active := true })) s

/-- One turn of a cluster's engine (13 R259): the copy whose turns of this round are not over, else the next in
the order in which they became active. -/
def State.copyTurn (s : State) (cluster : Nat) : State :=
  let s := s.activate cluster
  let can := s.copies.filter (fun (c : Copy) => c.cluster == cluster && c.movable)
  let cur := Sparse.get 0 s.turn cluster
  let serve := fun (s : State) (id : Nat) (turns : Nat) =>
    ({ s with turn := Sparse.put 0 s.turn cluster (id + 1) }.modCopy id (fun c => { c with turns := turns })).copyWords id 64
  match can.find? (fun (c : Copy) => c.id + 1 == cur && c.turns < c.weight) with
  | some c => serve s c.id (c.turns + 1)
  | none =>
    match can.filter (fun (c : Copy) => cur < c.id + 1) ++ can with
    | [] => s
    | c :: _ => serve s c.id 1

/-- COPY_TURN (13 R259): up to four turns of 256 bytes in a cycle. -/
def execCopyTurn (s : State) : Result :=
  .next ((List.range 4).foldl (fun s _ => s.copyTurn s.ev.obj) s)

/-! ### The end of a copy (13 R257, R258) -/

/-- Whether a copy ends now: every word is moved or it has failed, and every write it made is performed with its
completion time passed (13 R251). -/
def State.copyOver (s : State) (c : Copy) : Bool :=
  (c.status != 0 || c.words ≤ c.moved) && !c.waiting &&
    !s.homes.any (fun h => h.queue.any (fun w => w.origin == c.id + 1)) &&
    !s.vheld.any (fun h => h.gid.isNone && h.team.isNone && h.serial == c.id + 1)

/-- The addition of a copy's count to its object, and the status that stands after it (13 R257): none while a pin or its
array holds the addition (10 R205, 13 R248). -/
def State.copyCount (s : State) (c : Copy) : Option Nat × State :=
  let early := c.status == 1 || c.status == 2
  if c.object == 0 || c.status == 5 || (early && !(c.object % 64 == 0 && vaultRange c.vwin c.object 64 true)) then (some c.status, s)
  else match s.addTo c.die c.object (c.status != 0) c.count (2 ^ 64 + 2 * c.id) with
    | (none, s) => (none, s)
    | (some ok, s) => (some (if early || ok then c.status else 5), s)

/-- A copy leaves a cluster's spill ring for a free entry (13 R258); whether the read of its ring entry faults is a free value
(assumption log 16). -/
def State.unspill (s : State) (cluster : Nat) : State :=
  let mine := s.copies.filter (fun (c : Copy) => c.cluster == cluster)
  match mine.filter (fun (c : Copy) => c.spilled) with
  | [] => s
  | c :: r =>
    if 64 ≤ mine.length - (r.length + 1) || s.ringFaulted cluster then s
    else
      let (fault, s) := s.drawBool
      if fault then { s with ringFaults := s.ringFaults ++ [(cluster, true)] }
      else s.modCopy c.id (fun c => { c with spilled := false })

/-- COPY_END (13 R257): the count is added, the local lines become present, and the status word goes to every
enabled lane of the supplying groups. -/
def execCopyEnd (s : State) : Result :=
  match s.copy? s.ev.obj with
  | none => .next s
  | some c =>
    if c.spilled then .next (s.unspill c.cluster)
    else if !s.copyOver c then .next s
    else
      match s.copyCount c with
      | (none, s) => .next s
      | (some st, s) =>
      let s := if c.filling then c.lines.foldl (fun s ln => s.endFill c.team ln) s else s
      let word := w64 (c.seq * 2 ^ 16 + st)
      let s := c.slices.foldl (fun s (x : Slice) => s.modGroup x.gid (fun g =>
        (lanesOf x.lanes).foldl (fun g i => g.deliver i x.serial [word]) g)) s
      .next ({ s with copies := s.copies.filter (fun (x : Copy) => x.id != c.id) }.unspill c.cluster)

/-- `TCSTAT` (13 R260). -/
def execTcstat (f : Full) (s : State) : Result :=
  .next (laneExec .tcstat f s (fun s g got i =>
    let n := (srcA .tcstat f g i (poppedBy got i)).toNat % 2 ^ 16
    let mine := s.copies.filter (fun (c : Copy) => c.team == g.team)
    let busy := mine.any (fun (c : Copy) => c.seq == n)
    let v := (!busy).toNat * 2 ^ 31 + min 255 mine.length * 2 ^ 16 + (s.team g.team).copySeq
    finishAlu s .tcstat f g [w64 v] 0))

/-! ### The barrier tree (13 R262, R264) -/

/-- TREE_PHASE_COMPLETE (13 R262, 09 R184): the waiting teams are released. -/
def execTreePhaseComplete (s : State) : Result :=
  let die := s.ev.obj
  let tag := s.ev.sub
  match s.tag? die tag with
  | none => .next s
  | some x =>
    match x.due with
    | none => .next s
    | some t =>
      if s.ticks < t then .next s
      else
        let here := fun (y : RouteTag) => y.die == die && y.tag == tag
        let s := { s with tags := updWhere here (fun y => { y with phase := y.phase + 1, arrived := [], due := none }) s.tags }
        let teams := (s.teams.filter (fun (t : Team) => t.die == die && t.tag == some tag && t.treeSent)).map (fun (t : Team) => t.id)
        .next (teams.foldl (fun s id =>
          (s.modTeam id (fun t => { t with treeSent := false, treeSet := 0 })).proceed id (fun l => match l.wait with
            | .tree n ph => n == tag && ph == x.phase
            | _ => false)) s)

/-- TREE_TAG_WITHDRAW (13 R264): the tag is withdrawn and the grid of its holder ends with `TAG_LOST`. -/
def execTreeTagWithdraw (s : State) : Result :=
  let here := fun (y : RouteTag) => y.die == s.ev.obj && y.tag == s.ev.sub
  let holder := (s.tag? s.ev.obj s.ev.sub).bind (·.holder)
  let s' := { s with tags := updWhere here (fun y => { y with withdrawn := true }) s.tags }
  match holder with
  | some (launch, _) => .next (s'.abortLaunch s.ev.obj launch 7)
  | none => .next s'

/-- LINK_MESH_FAIL (13 R264): traffic over the failed link of a die takes another route; no result depends on the
route, and the failure is reported. -/
def execLinkMeshFail (s : State) : Result :=
  let link := (s.ev.obj, min s.ev.sub s.ev.aux, max s.ev.sub s.ev.aux)
  if s.meshDown.contains link then .next s
  else
    .next ({ s with meshDown := s.meshDown ++ [link] }.report
      { sev := 1, src := 9, loc := s.ev.obj * 64 + s.ev.sub * 8 + s.ev.aux, result := 3 })

/-! ### Retention (13 R248, R249) -/

/-- Whether an active copy writes into an array of its die's vaults: a row of its destination meets it. -/
def Copy.writesInto (c : Copy) (n : Nat) : Bool :=
  let lo := n * 2 ^ 21
  let r := if lo < c.dst + c.rowBytes then 0 else (lo + 1 - c.rowBytes - c.dst + c.dstride - 1) / max 1 c.dstride
  c.dspc == 2 && c.active && r < c.rows && c.dst + r * c.dstride < lo + 2 ^ 21

/-- Whether something other than an access keeps an array from being idle (13 R248): a pinned line, a copy that
writes into it, a group that waits on an object in it, or a team on the core of a local store. -/
def State.arrayBusy (s : State) (a : Nat) : Bool :=
  if a < 512 then
    let die := a / 256
    let inArr := fun (x : Nat) => arrayOf die x == a
    s.teams.any (fun t => t.die == die && (match t.seq with
      | some q => (q.a ++ q.b).any (fun sl => sl.full && sl.pins.any (fun ln => inArr (ln * 128)))
      | none => false)) ||
    s.copies.any (fun c => c.die == die && c.writesInto (a % 256)) ||
    s.groups.any (fun g => match g.wait with
      | .object x _ _ _ => dieOfCore g.core == die && inArr x
      | _ => false)
  else s.teams.any (fun t => t.core + 512 == a)

/-- The vault arrays that something other than an access keeps from being idle. -/
def State.busyArrays (s : State) : List Nat :=
  let pins := s.teams.flatMap (fun t => match t.seq with
    | some q => (q.a ++ q.b).flatMap (fun sl => if sl.full then sl.pins.map (fun ln => arrayOf t.die (ln * 128)) else [])
    | none => [])
  let copies := s.copies.flatMap (fun c => if c.dspc == 2 && c.active then
      ((List.range 256).filter c.writesInto).map (fun n => c.die * 256 + n)
    else [])
  let waits := s.groups.filterMap (fun g => match g.wait with
    | .object x _ _ _ => some (arrayOf (dieOfCore g.core) x)
    | _ => none)
  (pins ++ copies ++ waits).eraseDups

/-- Whether a held read is still to come: its lane stands at its instruction, its copy moves, its block is loading. -/
def State.stillComes (s : State) (x : Arrival) : Bool :=
  match x.who with
  | .lane gid i pc => (s.group? gid).any (fun g => !g.stopped && !g.preempt && !(g.lane i).ended && (g.lane i).pc == pc)
  | .copy id => (s.copy? id).any Copy.movable
  | .block team n => (s.teams.find? (fun t => t.id == team)).any (fun t => t.seq.any (fun q => ((q.a ++ q.b).getD n {}).loading.isSome))

/-- What passes in a cycle for the vaults (13 R248): busy arrays are not idle, reads that come no more are forgotten, and held
writes that nothing keeps are performed. -/
def State.settleVaults (s : State) : State :=
  let s := s.busyArrays.foldl (fun s a => if s.arrayActive a then s.setRetention a (.active s.time) else s) s
  let s := { s with arrivals := s.arrivals.filter s.stillComes }
  if s.vheld.isEmpty then s else s.releasePins

/-- The errors that a re-encoding finds in the lines of an array (13 R249): each is reported, and its line tested. -/
def State.reencodeErrors (s : State) (a : Nat) : State :=
  (s.poison.filter (fun x => x.1 == 2 && arrayOf (x.2 / 2 ^ 22) (x.2 % 2 ^ 22 * 128) == a)).foldl (fun s x =>
    s.raiseError { sev := 1, src := 4 } 4 x.2) s

/-- RETENTION_IDLE_EXPIRE (13 Table 13-4): an array that has been idle for the idle time starts to re-encode. -/
def execRetentionIdleExpire (s : State) : Result :=
  let a := s.ev.obj
  match s.retention a with
  | .active t => .next (if s.arrayBusy a || s.time < t + s.idle then s else s.setRetention a (.entering (s.ticks + reencodeTicks a) false))
  | _ => .next s

/-- REENCODE_DONE (13 Table 13-4): the array is retained, starts to leave for an access it holds, or is active and performs
the accesses that it held in the order in which they came. -/
def execReencodeDone (s : State) : Result :=
  let a := s.ev.obj
  match s.retention a with
  | .entering t wanted =>
    .next (if s.ticks < t then s else (s.reencodeErrors a).setRetention a (if wanted then .leaving (s.ticks + reencodeTicks a) else .retained))
  | .leaving t => .next (if s.ticks < t then s else ((s.reencodeErrors a).setRetention a (.active s.time)).releasePins)
  | _ => .next s

end Sys2Proof.Machine
end

