-- ==== Sys2Proof/Machine/Sequencer.lean ====
section
/-! DEFINITION. The matrix sequencer (10 R197 to R218): its instructions, the array, block loads and stores. -/

namespace Sys2Proof.Machine

open Sys2Proof

/-! ### Elements and matrix arithmetic (10 Table 10-7, 04 R67 to R71) -/

/-- The elements of a block row (10 Table 10-7). -/
def fmtK (fmt : Nat) : Nat := match fmt with
  | 0 | 1 => 64
  | 2 | 3 => 32
  | _ => 128

/-- An element of an operand block: a value of a binary format, or an L6 code. -/
inductive Elem where
  | val (v : Val)
  | l6 (x : L6)

/-- The elements of a row (10 R204, 04 R67). -/
def rowElems (fmt : Nat) (ftz : Bool) (row : List Byte) : List Elem :=
  let w := leVal row
  (List.range (fmtK fmt)).map (fun k => match fmt with
    | 0 => .val (.ofBits .e4m3 ftz (w / 2 ^ (8 * k) % 2 ^ 8))
    | 1 => .val (.ofBits .e5m2 ftz (w / 2 ^ (8 * k) % 2 ^ 8))
    | 2 => .val (.ofBits .f16 ftz (w / 2 ^ (16 * k) % 2 ^ 16))
    | 3 => .val (.ofBits .b16 ftz (w / 2 ^ (16 * k) % 2 ^ 16))
    | _ => .l6 (.ofCode (w / 2 ^ (6 * k) % 2 ^ 6)))

/-- A zero activation (04 R71). -/
def Elem.zero : Elem → Bool
  | .val (.fin _ m _) => m == 0
  | .l6 .zero => true
  | _ => false

/-- S(m) of a run in a binary format (04 R70): the exact sum of its products, with the flags. -/
def runSum (mode : Mode) (l : List (Val × Val)) : Exact × FlagSet :=
  let ps := l.map (fun x => mulVal x.1 x.2)
  let fl := ps.foldl (fun f p => f ||| p.2) 0
  let vs := ps.map (·.1)
  let pos := vs.any (fun v => v == .inf false)
  let neg := vs.any (fun v => v == .inf true)
  let fl := if pos && neg then fl ||| flIV else fl
  if vs.any Val.isNan || (pos && neg) then (.nan, fl)
  else if pos then (.inf false, fl)
  else if neg then (.inf true, fl)
  else
    let zeros := vs.all (fun v => v.dy.1 == 0)
    let allNeg := vs.all (fun v => match v with
      | .fin s _ _ => s
      | _ => false)
    let allPos := vs.all (fun v => match v with
      | .fin s _ _ => !s
      | _ => false)
    if zeros && (allNeg || allPos) then (.zero allNeg, fl)
    else
      let (m, e) := sumDy (vs.map Val.dy)
      (.ofDy mode m e, fl)

/-- S(m) of an L6 run (04 R68). -/
def runSumL6 (l : List (L6 × L6)) : Exact × FlagSet :=
  let ts := l.map (fun x => l6Term x.1 x.2)
  if ts.any Option.isNone then (.nan, flIV)
  else
    let a := ts.foldl (fun a t => a + t.getD 0) 0
    (if a == 0 then .zero false else .ofDy .rn a (-23), 0)

/-- One run of 16 terms into a tile element (04 R70, R71). A subnormal tile element is not flushed (assumption log 87). -/
def runStepC (env : FpEnv) (c : Nat) (terms : List (Elem × Elem)) : Nat × FlagSet :=
  let live := terms.filter (fun x => !x.1.zero)
  if live.isEmpty then (c, 0)
  else
    let vals := live.filterMap (fun x => match x with
      | (.val a, .val b) => some (a, b)
      | _ => none)
    let logs := live.filterMap (fun x => match x with
      | (.l6 a, .l6 b) => some (a, b)
      | _ => none)
    let sum := if logs.isEmpty then runSum env.mode vals else runSumL6 logs
    let (f, f1) := finish .f32 env sum
    let (r, f2) := finish .f32 env (addVal env.mode (Val.ofBits .f32 false c) (Val.ofBits .f32 false f))
    (r, f1 ||| f2)

/-- A list cut into pieces of 16. -/
def pieces16 {α : Type} (l : List α) : List (List α) :=
  (List.range ((l.length + 15) / 16)).map (fun m => (l.drop (16 * m)).take 16)

/-- C(i, j) after an `MMA`, with the flags (10 R206, R212). -/
def mmaElem (env : FpEnv) (a b : List Elem) (c : Nat) : Nat × FlagSet :=
  (pieces16 (a.zip b)).foldl (fun (x : Nat × FlagSet) ts =>
    let (r, fl) := runStepC env x.1 ts
    (r, x.2 ||| fl)) (c, 0)

/-- A tile after an `MMA`, with the flags. -/
def mmaTile (env : FpEnv) (a b : List (List Elem)) (c : Sparse W32) : Sparse W32 × FlagSet :=
  (a.zip (List.range 64)).foldl (fun (x : Sparse W32 × FlagSet) ra =>
    (b.zip (List.range 64)).foldl (fun (x : Sparse W32 × FlagSet) rb =>
      let key := ra.2 * 64 + rb.2
      let (v, fl) := mmaElem env ra.1 rb.1 (Sparse.get 0 c key).toNat
      (Sparse.put 0 x.1 key (w32 v), x.2 ||| fl)) x) (c, 0)

/-- The zero activations of a block. -/
def zeroCount (a : List (List Elem)) : Nat := (a.map (fun r => (r.filter Elem.zero).length)).sum

/-- The cycles for which an `MMA` occupies the array (10 R207). -/
def mmaCycles (fmt : Nat) (a : List (List Elem)) : Nat :=
  let counts := a.map (fun r => (r.filter (fun e => !e.zero)).length)
  let q := maxOf ((List.range 16).map (fun q => ((counts.drop (4 * q)).take 4).sum))
  max 4 ((16 * q + 4 * fmtK fmt - 1) / (4 * fmtK fmt))

/-! ### The sequencer's registers and slots -/

/-- `x`r; `x0` reads 0 (10 Table 10-1). -/
def Sequencer.rx (q : Sequencer) (r : Nat) : W64 := if r == 0 then 0 else Sparse.get 0 q.x r
/-- Writes `x`r; a write to `x0` is dropped. -/
def Sequencer.wx (q : Sequencer) (r : Nat) (v : W64) : Sequencer := if r == 0 then q else { q with x := Sparse.put 0 q.x r v }

/-- Slot n: `sa0` to `sa3`, then `sb0` to `sb3`. -/
def Sequencer.slotAt (q : Sequencer) (n : Nat) : Slot := if n < 4 then q.a.getD n {} else q.b.getD (n - 4) {}
/-- Changes a slot. -/
def Sequencer.modSlot (q : Sequencer) (n : Nat) (f : Slot → Slot) : Sequencer :=
  if n < 4 then { q with a := modAt f q.a n } else { q with b := modAt f q.b (n - 4) }
/-- A tile. -/
def Sequencer.tile (q : Sequencer) (t : Nat) : Tile := q.acc.getD t {}
/-- Changes a tile. -/
def Sequencer.modTile (q : Sequencer) (t : Nat) (f : Tile → Tile) : Sequencer := { q with acc := modAt f q.acc t }

/-- Whether an `MMA` that has not retired works on a tile. -/
def Sequencer.tileBusy (q : Sequencer) (t : Nat) : Bool := q.mma.any (fun m => m.t == t)
/-- Whether an `MMA` that has not retired reads a slot, or the slot's load is not performed. -/
def Sequencer.slotBusy (q : Sequencer) (n : Nat) : Bool :=
  q.mma.any (fun m => m.a == n || m.b + 4 == n) || (q.slotAt n).loading.isSome

/-! ### What an instruction of the sequencer does -/

/-- What an instruction of the sequencer does. -/
inductive SeqStep where
  /-- It executes, and the next instruction follows. -/
  | done (s : State)
  /-- It branches by a signed offset in words. -/
  | jump (off : BitVec 16) (s : State)
  /-- A result that it reads is not there yet. -/
  | stay
  /-- It cannot go on at its queue port. -/
  | block (s : State)
  /-- A check fails. -/
  | halt (code addr : Nat) (tile : Option Nat)

/-- Runs an instruction of the sequencer of the current team (10 R203). An error in a slot or a tile is reported, and the
sequencer tested (21 R387, R388). -/
def seqExec (s : State) (body : State → Team → Sequencer → SeqStep) : Result :=
  let id := s.cur.team
  match s.team? id, s.seq? id with
  | some t, some q =>
    let run := fun (q : Sequencer) => if q.st == .blocked then SeqState.running else q.st
    match body s t q with
    | .done s => .next (s.modSeq id (fun q => { q with pc := q.pc + 4, st := run q }))
    | .jump off s => .next (s.modSeq id (fun q => { q with pc := q.pc + off.signExtend 64 * 4, st := run q }))
    | .stay => .next s
    | .block s => .next (s.modSeq id (fun q => { q with st := .blocked }))
    | .halt c a tl =>
      let s := if c == 0x0D && q.mma.isEmpty then
          s.raiseError { sev := 1, src := 7, tenant := t.tenant } 6 (t.core * 4 + q.slot) else s
      .next (s.haltSeq id c a tl)
  | _, _ => .next s

/-- The rounding environment sampled at issue (01 R21). -/
def Team.env (t : Team) : FpEnv := { FpEnv.ofFmode t.fmode with e4sat := false }

/-! ### Block loads (10 R204, R205) -/

/-- The bytes of the rows of a block: each row's first address. -/
def rowStarts (base stride : Nat) : List Nat := (List.range 64).map (fun r => base + r * stride)

/-- The vault lines that ranges of `n` bytes touch. -/
def linesOf (starts : List Nat) (n : Nat) : List Nat :=
  (starts.flatMap (fun a => (List.range ((a + n - 1) / 128 + 1 - a / 128)).map (fun k => a / 128 + k))).eraseDups

/-- `MLDA` and `MLDB` on slot n (10 R204). -/
def loadBlock (s : State) (n xa xb : Nat) : Result :=
  seqExec s (fun s t q =>
    let base := (q.rx xa).toNat
    let stride := (q.rx xb).toNat
    let len := rowLen q.mfmt
    if !q.fset then .halt 0x06 0 none
    else if q.slotBusy n then .stay
    else if (q.slotAt n).full then .halt 0x09 0 none
    else if base % 32 != 0 || stride % 32 != 0 || stride < len then .halt 0x04 base none
    else if !(rowStarts base stride).all (fun a => vaultRange t.vwin a len false) then .halt 0x05 base none
    else .done (s.modSeq t.id (fun q => q.modSlot n (fun _ => { full := true, fmt := q.mfmt, loading := some (base, stride), pc := s.cur.pc }))))

/-- `MLDA` (10 R204). -/
def execMlda (slot : BitVec 2) (a b : BitVec 5) (s : State) : Result := loadBlock s slot.toNat a.toNat b.toNat
/-- `MLDB` (10 R204). -/
def execMldb (slot : BitVec 2) (a b : BitVec 5) (s : State) : Result := loadBlock s (4 + slot.toNat) a.toNat b.toNat

/-- The vault performs a block load (10 R205): the slot takes the bytes then present, and its lines are pinned. A
line with an uncorrectable error halts the sequencer at the load (13 R263); an array out of `ACTIVE` holds the load, and so
does an earlier `MST` of the sequencer to its lines that is not performed (10 R203). -/
def execBlockLoadPerformed (s : State) : Result :=
  let id := s.ev.obj
  let n := s.ev.sub
  match s.team? id, s.seq? id with
  | some t, some q =>
    match (q.slotAt n).loading with
    | none => .next s
    | some (base, stride) =>
      let starts := rowStarts base stride
      let len := rowLen (q.slotAt n).fmt
      let lines := linesOf starts len
      let (ok, s) := (lines.map (fun ln => arrayOf t.die (ln * 128))).eraseDups.foldl
        (fun (x : Bool × State) a => let (k, s) := x.2.readArray a (.block id n); (x.1 && k, s)) (true, s)
      match lines.find? (fun ln => s.poison.contains (2, t.die * 2 ^ 22 + ln)) with
      | some ln =>
        if !q.mma.isEmpty then .next s
        else
          .next ((s.raiseError { sev := 1, src := 4, tenant := t.tenant } 4 (t.die * 2 ^ 22 + ln)).haltSeq id 0x0D 0 none (some (q.slotAt n).pc))
      | none =>
        if !ok || s.vheld.any (fun h => h.team == some id && lines.contains (h.op.addr / 128)) ||
            lines.any (fun ln => s.underTest 4 (t.die * 2 ^ 22 + ln)) then .next s
        else
          let rows := starts.map (fun a => s.vaultBytes t.die a len)
          .next (s.modSeq id (fun q => q.modSlot n (fun sl => { sl with loading := none, rows := rows, pins := lines })))
  | _, _ => .next s

/-- `MUNPIN` (10 R208). -/
def execMunpin (slot : BitVec 3) (s : State) : Result :=
  seqExec s (fun s t q =>
    if q.slotBusy slot.toNat then .stay
    else .done ((s.clearSlots t.id [slot.toNat]).modSeq t.id (fun q => q.modSlot slot.toNat (fun _ => emptySlot))).releasePins)

/-! ### `MMA` (10 R206, R207) -/

/-- `MMA` (10 R206): checked, then queued for the core's array; its slots take the keep bits. The test of an uncorrectable
error stands last, the model's choice (10 R213, assumption log 110). -/
def execMma (tl : BitVec 3) (a b : BitVec 2) (ka kb : Bool) (s : State) : Result :=
  seqExec s (fun s t q =>
    let n := tl.toNat
    let ia := a.toNat
    let ib := b.toNat
    if q.tileBusy n || q.slotBusy ia || q.slotBusy (4 + ib) then .stay
    else if !(q.tile n).valid then .halt 0x0A 0 (some n)
    else if !(q.slotAt ia).full || !(q.slotAt (4 + ib)).full then .halt 0x08 0 (some n)
    else if !q.fset then .halt 0x06 0 (some n)
    else if (q.slotAt ia).fmt != q.mfmt || (q.slotAt (4 + ib)).fmt != q.mfmt then .halt 0x07 0 (some n)
    else if s.poison.contains (6, t.id * 8 + ia) || s.poison.contains (6, t.id * 8 + 4 + ib) ||
        s.poison.contains (7, t.id * 8 + n) then .halt 0x0D 0 (some n)
    else .done (s.modSeq t.id (fun q =>
      let q := (q.modSlot ia (fun x => { x with keep := ka })).modSlot (4 + ib) (fun x => { x with keep := kb })
      { q with mma := q.mma ++ [{ t := n, a := ia, b := ib, ka := ka, kb := kb, mode := t.fmode.toNat % 4,
                                  ftz := t.fmode.getLsbD 2 }] })))

/-- The A elements of an `MMA`. -/
def Sequencer.aElems (q : Sequencer) (m : MmaOp) : List (List Elem) :=
  (q.slotAt m.a).rows.map (rowElems (q.slotAt m.a).fmt m.ftz)

/-- The array of a core takes the next `MMA`, round-robin over the core's sequencers (10 R197), once
the one that it holds has left it. -/
def State.feedArray (s : State) (core : Nat) : State :=
  let c := s.cores.getD core {}
  if c.array.any (fun a => s.ticks < a.2 || (s.seq? a.1).any (fun q => !q.mma.isEmpty)) then s
  else
    let ready := s.teams.filter (fun (t : Team) => t.core == core && (match t.seq with
      | some q => !q.mma.isEmpty
      | none => false))
    let slotNo := fun (t : Team) => (t.seq.map (·.slot)).getD 0
    let order := fun (t : Team) => (slotNo t + 4 - c.nextSeq % 4) % 4
    match sortBy (fun a b => order a < order b) ready with
    | [] => s
    | t :: _ =>
      match t.seq with
      | none => s
      | some q => match q.mma with
        | [] => s
        | m :: _ =>
          let n := mmaCycles (q.slotAt m.a).fmt (q.aElems m)
          let take := fun (c : Core) => { c with array := some (t.id, s.ticks + 5 * n), nextSeq := (slotNo t + 1) % 4 }
          { s with cores := modAt take s.cores core }

/-- An `MMA` leaves the array (10 R206, R208, R212): the tile is updated, flags and the skip count grow, and the
slots without a keep bit are emptied; the array takes the next in the same cycle (10 R197). -/
def execMmaRetire (s : State) : Result :=
  let id := s.ev.obj
  match s.team? id, s.seq? id with
  | some t, some q =>
    let core := s.cores.getD t.core {}
    match q.mma, core.array with
    | m :: r, some (id', e) =>
      if id' != id || s.ticks < e then .next s
      else
        let a := q.aElems m
        let b := (q.slotAt (4 + m.b)).rows.map (rowElems (q.slotAt (4 + m.b)).fmt m.ftz)
        let (c, fl) := mmaTile { mode := Mode.ofCode m.mode, ftz := m.ftz } a b (q.tile m.t).c
        let q := { q with mma := r, flg := q.flg ||| fl, skips := q.skips + zeroCount a }
        let q := q.modTile m.t (fun x => { x with c := c })
        let q := if m.ka then q else q.modSlot m.a (fun _ => emptySlot)
        let q := if m.kb then q else q.modSlot (4 + m.b) (fun _ => emptySlot)
        let gone := (if m.ka then [] else [m.a]) ++ (if m.kb then [] else [4 + m.b])
        let s := (s.clearSlots id gone).modSeq id (fun _ => q)
        let s := { s with cores := modAt (fun (c : Core) => { c with array := none }) s.cores t.core }
        .next (s.releasePins.feedArray t.core)
    | _, _ => .next s
  | _, _ => .next s

/-- `MZERO` (10 R208). -/
def execMzero (tl : BitVec 3) (s : State) : Result :=
  seqExec s (fun s t q =>
    if q.tileBusy tl.toNat then .stay
    else
      let s := { s with poison := s.poison.filter (· != (7, t.id * 8 + tl.toNat)) }
      .done (s.modSeq t.id (fun q => q.modTile tl.toNat (fun _ => {}))))

/-- `MSPARSE` (10 R208). -/
def execMsparse (d : BitVec 5) (s : State) : Result :=
  seqExec s (fun s t q =>
    if !q.mma.isEmpty then .stay
    else .done (s.modSeq t.id (fun q => { q.wx d.toNat (w64 q.skips) with skips := 0 })))

/-! ### `MST` (10 R209) -/

/-- Writes vault rows as a sequencer's stores, line by line: each part is held while another's slot pins its
line (10 R205). A line that is written whole loses its poison (13 R263). -/
def State.vaultStoreRows (s : State) (t : Team) (num : Nat) (rows : List (Nat × List Byte)) : State :=
  let cells := rows.flatMap (fun r => (List.range r.2.length).map (fun i => (r.1 + i, r.2.getD i 0)))
  let lines := (cells.map (fun c => c.1 / 128)).eraseDups
  lines.foldl (fun s ln =>
    let bs := cells.filter (fun c => c.1 / 128 == ln)
    let s := if bs.length == 128 then { s with poison := s.poison.filter (· != (2, t.die * 2 ^ 22 + ln)) } else s
    s.vaultWrite { die := t.die, team := some t.id, num := num, op := .store bs }) s

/-- `MST.F32` and `MST.B16` (10 R209), after the earlier loads of the lines that it writes (10 R203). The test of an
uncorrectable error stands after that of the tile, the model's choice (10 R213, assumption log 110). -/
def storeTile (s : State) (b16 : Bool) (tl xa xb xc : Nat) : Result :=
  seqExec s (fun s t q =>
    let base := (q.rx xa).toNat
    let stride := (q.rx xb).toNat
    let obj := (q.rx xc).toNat
    let len := if b16 then 128 else 256
    let starts := rowStarts base stride
    let loads := (q.a ++ q.b).any (fun sl => sl.loading.any (fun x =>
      (linesOf (rowStarts x.1 x.2) (rowLen sl.fmt)).any (linesOf starts len).contains))
    if q.tileBusy tl || loads then .stay
    else if !(q.tile tl).valid then .halt 0x0A 0 none
    else if s.poison.contains (7, t.id * 8 + tl) then .halt 0x0D 0 (some tl)
    else if base % 32 != 0 || stride % 32 != 0 || stride < len || obj % 64 != 0 then .halt 0x04 base none
    else if !starts.all (fun a => vaultRange t.vwin a len true) then .halt 0x05 base none
    else if (linesOf starts len).any (fun ln => (q.a ++ q.b).any (fun sl => sl.pins.contains ln)) then .halt 0x0B base none
    else if obj != 0 && !(vaultRange t.vwin obj 64 true && leVal (s.vaultBytes t.die (obj + 0x1C) 2) == 0x424F) then
      .halt 0x0E obj none
    else
      let env := t.env
      let elem := fun (i j : Nat) => (Sparse.get 0 (q.tile tl).c (i * 64 + j)).toNat
      let conv := fun (c : Nat) =>
        let v := Val.ofBits .f32 env.ftz c
        finish .b16 env (v.exact, v.sig)
      let row := fun (i : Nat) =>
        if b16 then (List.range 64).flatMap (fun j => leOf 2 (conv (elem i j)).1)
        else (List.range 64).flatMap (fun j => leOf 4 (elem i j))
      let fl := if b16 then (List.range 4096).foldl (fun f k => f ||| (conv (elem (k / 64) (k % 64))).2) 0 else 0
      let num := 1 + maxOf (s.msts.map (fun (m : MstCount) => m.num))
      let s := s.vaultStoreRows t num ((List.range 64).map (fun i => (base + i * stride, row i)))
      let count : MstCount := { num := num, team := t.id, die := t.die, object := obj, bytes := 64 * len }
      let s := { s with msts := s.msts ++ [count] }
      .done (s.modSeq t.id (fun q => { q with flg := q.flg ||| fl })))

/-- `MST.F32` (10 R209). -/
def execMstF32 (t : BitVec 3) (a b c : BitVec 5) (s : State) : Result := storeTile s false t.toNat a.toNat b.toNat c.toNat
/-- `MST.B16` (10 R209). -/
def execMstB16 (t : BitVec 3) (a b c : BitVec 5) (s : State) : Result := storeTile s true t.toNat a.toNat b.toNat c.toNat

/-- The oldest `MST` of a team whose bytes are all performed: its byte count is added to its object (10 R209, 13 R251), when
nothing keeps that (10 R205, 13 R248). -/
def execMstPerformed (s : State) : Result :=
  let id := s.ev.obj
  match s.msts.find? (fun (m : MstCount) => m.team == id && !s.mstHeldBy m.num) with
  | none => .next s
  | some m =>
    let s := { s with msts := s.msts.erase m }
    if m.object == 0 then .next s
    else .next (s.vaultWrite { die := m.die, team := some id, op := .add m.object false m.bytes })

/-- `MST.Q` (10 R209): as many entries as the queue has room for; the rest when it is tried again. -/
def execMstQ (tl : BitVec 3) (s : State) : Result :=
  seqExec s (fun s t q =>
    if q.tileBusy tl.toNat then .stay
    else if !(q.tile tl.toNat).valid then .halt 0x0A 0 none
    else if s.poison.contains (7, t.id * 8 + tl.toNat) then .halt 0x0D 0 (some tl.toNat)
    else match t.bound? 4 with
    | none => .halt 0x0C 0 none
    | some qn =>
      let c := (q.tile tl.toNat).c
      let entry := fun (e : Nat) => Sparse.get 0 c (2 * e + 1) ++ Sparse.get 0 c (2 * e)
      let n := min ((t.queue qn).room true) (2048 - q.pushed)
      let s := (List.range n).foldl (fun s k => (s.enginePush t.id qn (entry (q.pushed + k))).getD s) s
      if q.pushed + n == 2048 then .done (s.modSeq t.id (fun q => { q with pushed := 0 }))
      else .block (s.modSeq t.id (fun q => { q with pushed := q.pushed + n })))

/-! ### Scalar and control instructions (10 R210, R211) -/

/-- `MSET.I` (10 R210). -/
def execMsetI (d : BitVec 5) (sh : BitVec 2) (imm : BitVec 16) (s : State) : Result :=
  seqExec s (fun s t q =>
    let n := 16 * sh.toNat
    let v := if n == 0 then imm.setWidth 64
      else (q.rx d.toNat &&& ~~~(0xFFFF#64 <<< n)) ||| (imm.setWidth 64 <<< n)
    .done (s.modSeq t.id (fun q => q.wx d.toNat v)))
/-- `MSET.Q` (10 R210). -/
def execMsetQ (d : BitVec 5) (s : State) : Result :=
  seqExec s (fun s t _ =>
    match t.bound? 3 with
    | none => .halt 0x0C 0 none
    | some qn => match s.engineTake t.id qn false with
      | none => .block s
      | some (e, s) => .done (s.modSeq t.id (fun q => q.wx d.toNat e.val)))
/-- `MSET.R` (10 R210). -/
def execMsetR (a : BitVec 5) (s : State) : Result :=
  seqExec s (fun s t q =>
    match t.bound? 4 with
    | none => .halt 0x0C 0 none
    | some qn => match s.enginePush t.id qn (q.rx a.toNat) with
      | none => .block s
      | some s => .done s)
/-- `MADDX` (10 R210). -/
def execMaddx (d a b : BitVec 5) (imm : BitVec 11) (s : State) : Result :=
  seqExec s (fun s t q => .done (s.modSeq t.id (fun x => x.wx d.toNat (q.rx a.toNat + q.rx b.toNat + imm.signExtend 64))))
/-- `MLOOP` (10 R210). -/
def execMloop (n : BitVec 5) (o : BitVec 16) (s : State) : Result :=
  seqExec s (fun s t q =>
    if n == 0 then .halt 0x02 0 none
    else
      let v := q.rx n.toNat - 1
      let s := s.modSeq t.id (fun q => q.wx n.toNat v)
      if v != 0 then .jump o s else .done s)
/-- `MBRA.AL` (10 R210). -/
def execMbraAl (o : BitVec 16) (s : State) : Result := seqExec s (fun s _ _ => .jump o s)
/-- `MBRA.Z` (10 R210). -/
def execMbraZ (a : BitVec 5) (o : BitVec 16) (s : State) : Result :=
  seqExec s (fun s _ q => if q.rx a.toNat == 0 then .jump o s else .done s)
/-- `MBRA.NZ` (10 R210). -/
def execMbraNz (a : BitVec 5) (o : BitVec 16) (s : State) : Result :=
  seqExec s (fun s _ q => if q.rx a.toNat != 0 then .jump o s else .done s)

/-- Whether every earlier `MST` of a team is performed, its count added. -/
def State.mstsDone (s : State) (team : Nat) : Bool := !s.msts.any (fun (m : MstCount) => m.team == team)

/-- `MBRA.STOP` (10 R210). -/
def execMbraStop (s : State) : Result :=
  seqExec s (fun s t q =>
    if !q.mma.isEmpty || !s.mstsDone t.id then .stay
    else .done (s.modSeq t.id (fun q => { q with st := .idle })))

/-- `MSIG` (10 R211). -/
def execMsig (b : BitVec 4) (c : BitVec 6) (s : State) : Result :=
  seqExec s (fun s t _ =>
    if c == 0 || 33 < c.toNat then .halt 0x02 0 none
    else if !s.mstsDone t.id then .stay
    else .done (s.arriveNum t.id b.toNat none c.toNat))
/-- `MWAIT` (10 R211): it waits for the phase that is current at its issue, after an arrival unless c is 0. -/
def execMwait (b : BitVec 4) (c : BitVec 6) (s : State) : Result :=
  seqExec s (fun s t _ =>
    if 33 < c.toNat then .halt 0x02 0 none
    else if c != 0 && !s.mstsDone t.id then .stay
    else
      let ph := (t.bar b.toNat).phase
      let s := s.modSeq t.id (fun q => { q with st := .waiting, waitBar := b.toNat, waitPhase := ph })
      .done (if c == 0 then s else s.arriveNum t.id b.toNat none c.toNat))

/-- The issue of a sequencer is taken up (10 R203): its next instruction is fetched, checked and executed. -/
def execSequencerIssue (s : State) : Result := .next { s with agenda := .seq s.ev.obj :: s.agenda }

end Sys2Proof.Machine
end

