-- ==== Sys2Proof/Machine/Trans.lean ====
section
/-! DEFINITION. The transcendental functions (05 R90, 06 R110, R117, R118), each as an exact result that
`RoundTo` rounds. Square roots, reciprocals and Fresnel blocks are decided exactly; the others come from
series at 640 fraction bits of which 64 are dropped (assumption log 10). -/

namespace Sys2Proof.Machine

open Sys2Proof

/-! ### Square roots -/

/-- The bits of a square root from the highest down: `r` so far, `k` bits left. -/
def isqrtFrom (x : Nat) : Nat → Nat → Nat
  | r, 0 => r
  | r, k + 1 =>
    let t := r + 2 ^ k
    isqrtFrom x (if t * t ≤ x then t else r) k

/-- The integer square root. -/
def isqrt (x : Nat) : Nat := isqrtFrom x 0 (bitLen x / 2 + 1)

/-- √(m × 2^e), m positive. -/
def sqrtExact (m : Nat) (e : Int) : Exact :=
  let odd := e % 2 != 0
  let m := if odd then 2 * m else m
  let e := if odd then e - 1 else e
  let m := m * 2 ^ 128
  let r := isqrt m
  .mag false r ((e - 128) / 2) (r * r != m)

/-- 1 / √(m × 2^e), m positive. -/
def rsqrtExact (m : Nat) (e : Int) : Exact :=
  let odd := e % 2 != 0
  let m := if odd then 2 * m else m
  let e := if odd then e - 1 else e
  let q := 2 ^ 256 / m
  let r := isqrt q
  .mag false r (-(e / 2) - 128) (r * r * m != 2 ^ 256)

/-- 1 / (m × 2^e), m positive. -/
def recipExact (neg : Bool) (m : Nat) (e : Int) : Exact :=
  let k := 128 + bitLen m
  .mag neg (2 ^ k / m) (-(k : Int) - e) (2 ^ k % m != 0)

/-! ### Series in units of 2^-640 -/

/-- The fraction bits of the series. -/
def fxBits : Nat := 640

/-- The product of two fixed-point numbers, rounded down. -/
def fxMul (a b : Nat) : Nat := a * b / 2 ^ fxBits

/-- Σ zk / (2k + 1) from k on, the powers of z multiplied by z2 each time; alternating signs when `alt`. -/
def atanSum (z2 : Nat) (alt : Bool) : Nat → Nat → Nat → Int
  | 0, _, _ => 0
  | n + 1, k, p =>
    let t : Int := (p / (2 * k + 1) : Nat)
    (if alt && k % 2 == 1 then -t else t) + atanSum z2 alt n (k + 1) (fxMul p z2)

/-- atan(1/d). -/
def atanRecip (d : Nat) : Int := atanSum (2 ^ fxBits / (d * d)) true 160 0 (2 ^ fxBits / d)
/-- π. -/
def fxPi : Nat := (16 * atanRecip 5 - 4 * atanRecip 239).toNat
/-- atanh(z) for z at most 1/3. -/
def fxAtanh (z : Nat) : Nat := (atanSum (fxMul z z) false 210 0 z).toNat
/-- ln 2. -/
def fxLn2 : Nat := 2 * fxAtanh (2 ^ fxBits / 3)

/-- Σ t^k / k! from term `k` on, `p` the term before. -/
def expSum (t : Nat) : Nat → Nat → Nat → Nat
  | 0, _, _ => 0
  | n + 1, k, p =>
    let p' := fxMul p t / k
    p' + expSum t n (k + 1) p'

/-- e^t for t below 1. -/
def fxExp (t : Nat) : Nat := 2 ^ fxBits + expSum t 140 1 (2 ^ fxBits)

/-- Σ of the terms of sine or cosine from term `k` on, `p` the term before, `neg` its sign's opposite. -/
def trigSum (t2 : Nat) : Nat → Nat → Nat → Bool → Int
  | 0, _, _, _ => 0
  | n + 1, k, p, neg =>
    let p' := fxMul p t2 / (k * (k + 1))
    (if neg then -(p' : Int) else (p' : Int)) + trigSum t2 n (k + 2) p' (!neg)

/-- sin t for t at most π / 2. -/
def fxSin (t : Nat) : Nat := ((t : Int) + trigSum (fxMul t t) 90 2 t true).toNat
/-- cos t for t at most π / 2. -/
def fxCos (t : Nat) : Nat := ((2 ^ fxBits : Int) + trigSum (fxMul t t) 90 1 (2 ^ fxBits) true).toNat

/-- A number m × 2^e in fixed point. -/
def toFx (m : Nat) (e : Int) : Nat :=
  let s := e + fxBits
  if s ≤ 0 then m / 2 ^ (-s).toNat else m * 2 ^ s.toNat

/-- The exact result of a fixed-point value that no short fraction equals, times 2^k: the last 64 bits are
dropped. -/
def fxExact (neg : Bool) (v : Nat) (k : Int) : Exact := .mag neg (v / 2 ^ 64) (k - fxBits + 64) true

/-! ### Functions of F32 -/

/-- 2^(±m × 2^e), m positive. -/
def exp2Exact (neg : Bool) (m : Nat) (e : Int) : Exact :=
  if 10 < (bitLen m : Int) + e then (if neg then .mag false 1 (-1000) true else .mag false 1 1000 false)
  else
    let x := toFx m e
    let i : Int := x / 2 ^ fxBits
    let r := x % 2 ^ fxBits
    if r == 0 then .mag false 1 (if neg then -i else i) false
    else
      let i := if neg then -i - 1 else i
      let r := if neg then 2 ^ fxBits - r else r
      fxExact false (fxExp (fxMul r fxLn2)) i

/-- e^(±m × 2^e), m positive. -/
def expExact (neg : Bool) (m : Nat) (e : Int) : Exact :=
  if 10 < (bitLen m : Int) + e then (if neg then .mag false 1 (-1000) true else .mag false 1 1000 true)
  else
    let x := toFx m e
    let i : Int := x / fxLn2
    let r := x % fxLn2
    let i := if neg then -i - 1 else i
    let r := if neg then fxLn2 - r else r
    fxExact false (fxExp r) i

/-- log2(m × 2^e), m positive. -/
def log2Exact (m : Nat) (e : Int) : Exact :=
  let l := bitLen m - 1
  let k : Int := (l : Int) + e
  if m == 2 ^ l then (if k == 0 then .zero false else .mag (k < 0) k.natAbs 0 false)
  else
    let y := m * 2 ^ (fxBits - l)
    let z := (y - 2 ^ fxBits) * 2 ^ fxBits / (y + 2 ^ fxBits)
    let lg := 2 * fxAtanh z * 2 ^ fxBits / fxLn2
    let v : Int := k * 2 ^ fxBits + lg
    if v < 0 then fxExact true (v.natAbs - 1) 0 else fxExact false v.natAbs 0

/-- Sine and cosine of m × 2^e with their signs, in fixed point: a magnitude and whether it is negative. -/
def sincos (m : Nat) (e : Int) : (Nat × Bool) × (Nat × Bool) :=
  let x := toFx m e
  let half := fxPi / 2
  let q := x / half
  let r := x % half
  let s := fxSin r
  let c := fxCos r
  match q % 4 with
  | 0 => ((s, false), (c, false))
  | 1 => ((c, false), (s, true))
  | 2 => ((s, true), (c, true))
  | _ => ((c, true), (s, false))

/-- The result of a transcendental on an F32 encoding, with the special inputs of 05 Table 5-6: `onZero`,
`onInf` and `onNeg` (a nonzero finite negative) give a result and its flags; `fn` does the rest. -/
def transVal (env : FpEnv) (a : Nat) (onZero : Bool → Exact × FlagSet) (onInf : Bool → Exact × FlagSet)
    (noNeg : Bool) (fn : Bool → Nat → Int → Exact) : Nat × FlagSet :=
  match Val.ofBits .f32 env.ftz a with
  | .nan s => (0x7FC00000, flagIf s flIV)
  | .inf s => finish .f32 env (onInf s)
  | .fin s m e =>
    if m == 0 then finish .f32 env (onZero s)
    else if noNeg && s then (0x7FC00000, flIV)
    else finish .f32 env (fn s m e, 0)

/-- `FRCP` (05 R90). -/
def frcpVal (env : FpEnv) (a : Nat) : Nat × FlagSet :=
  transVal env a (fun s => (.inf s, flDZ)) (fun s => (.zero s, 0)) false recipExact
/-- `FRSQ` (05 R90). -/
def frsqVal (env : FpEnv) (a : Nat) : Nat × FlagSet :=
  transVal env a (fun s => (.inf s, flDZ)) (fun s => if s then (.nan, flIV) else (.zero false, 0)) true
    (fun _ m e => rsqrtExact m e)
/-- `FSQRT` (05 R90). -/
def fsqrtVal (env : FpEnv) (a : Nat) : Nat × FlagSet :=
  transVal env a (fun s => (.zero s, 0)) (fun s => if s then (.nan, flIV) else (.inf false, 0)) true
    (fun _ m e => sqrtExact m e)
/-- 1 exactly. -/
def exactOne : Exact := .mag false 1 0 false
/-- `FEXP2` (05 R90). -/
def fexp2Val (env : FpEnv) (a : Nat) : Nat × FlagSet :=
  transVal env a (fun _ => (exactOne, 0)) (fun s => if s then (.zero false, 0) else (.inf false, 0)) false exp2Exact
/-- e^a (06 R110). -/
def expVal (env : FpEnv) (a : Nat) : Nat × FlagSet :=
  transVal env a (fun _ => (exactOne, 0)) (fun s => if s then (.zero false, 0) else (.inf false, 0)) false expExact
/-- `FLOG2` (05 R90). -/
def flog2Val (env : FpEnv) (a : Nat) : Nat × FlagSet :=
  transVal env a (fun _ => (.inf true, flDZ)) (fun s => if s then (.nan, flIV) else (.inf false, 0)) true
    (fun _ m e => log2Exact m e)
/-- `FSIN` (05 R90). -/
def fsinVal (env : FpEnv) (a : Nat) : Nat × FlagSet :=
  transVal env a (fun s => (.zero s, 0)) (fun _ => (.nan, flIV)) false
    (fun s m e => let (v, n) := (sincos m e).1; fxExact (s != n) v 0)
/-- `FCOS` (05 R90). -/
def fcosVal (env : FpEnv) (a : Nat) : Nat × FlagSet :=
  transVal env a (fun _ => (exactOne, 0)) (fun _ => (.nan, flIV)) false
    (fun _ m e => let (v, n) := (sincos m e).2; fxExact n v 0)

/-! ### Fresnel blocks (06 R117) -/

/-- (p + q √u) / d. -/
structure Surd where
  p : Int
  q : Int
  d : Int
  deriving DecidableEq, Repr

/-- Product, over a common `u`. -/
def Surd.mul (u : Nat) (a b : Surd) : Surd :=
  { p := a.p * b.p + a.q * b.q * u, q := a.p * b.q + a.q * b.p, d := a.d * b.d }
/-- Sum. -/
def Surd.add (a b : Surd) : Surd := { p := a.p * b.d + b.p * a.d, q := a.q * b.d + b.q * a.d, d := a.d * b.d }
/-- Negation. -/
def Surd.neg (a : Surd) : Surd := { a with p := -a.p, q := -a.q }
/-- Quotient of a nonzero divisor, by its conjugate. -/
def Surd.div (u : Nat) (a b : Surd) : Surd :=
  let x := Surd.mul u a { p := b.p * b.d, q := -(b.q * b.d), d := 1 }
  { x with d := x.d * (b.p * b.p - b.q * b.q * u) }

/-- The exact value of a surd whose root is an integer `r` when `square`, else irrational. -/
def Surd.exact (u : Nat) (a : Surd) : Exact :=
  let r := isqrt u
  let sgn := a.d < 0
  let d := a.d.natAbs
  let p := if sgn then -a.p else a.p
  let q := if sgn then -a.q else a.q
  if r * r == u || q == 0 then
    let n := p + q * r
    Exact.ofRatio (n < 0) n.natAbs d
  else
    let k := 128 + 2 * (bitLen p.natAbs + bitLen (q.natAbs * (r + 1)) + bitLen d)
    let s : Int := isqrt (q.natAbs * q.natAbs * u * 4 ^ k)
    let lo : Int := if 0 < q then p * 2 ^ k + s else p * 2 ^ k - s - 1
    if 0 ≤ lo then .mag false (lo.natAbs / d) (-(k : Int)) true
    else .mag true ((-lo - 1).natAbs / d) (-(k : Int)) true

/-- A Fresnel block of cosine C0 / K and index N0 / K, both positive, C0 at most K: A, B, C and S. -/
def fresnel (c0 n0 k : Nat) : List Exact :=
  let ui : Int := (n0 * n0 + c0 * c0 : Nat) - (k * k : Nat)
  if 0 ≤ ui then
    let u := ui.toNat
    let r := isqrt u
    let mk : Int → Int → Surd := fun p q => if r * r == u then { p := p + q * r, q := 0, d := 1 } else { p := p, q := q, d := 1 }
    let c : Int := c0
    let n2c : Int := (n0 * n0 * c0 : Nat)
    let k2 : Int := (k * k : Nat)
    let rs := Surd.div u (mk c (-1)) (mk c 1)
    let rp := Surd.div u (mk n2c (-k2)) (mk n2c k2)
    let half : Surd → Surd := fun x => { x with d := 2 * x.d }
    let rs2 := Surd.mul u rs rs
    let rp2 := Surd.mul u rp rp
    [(half (rs2.add rp2)).exact u, (half (rs2.add rp2.neg)).exact u, (Surd.mul u rs rp).exact u, .zero false]
  else
    -- total internal reflection: the tangent of half the retardance is c √v / (1 - c^2), v = 1 - c^2 - n^2
    let v := (-ui).toNat
    let a : Int := (((k * k - c0 * c0) * (k * k - c0 * c0) : Nat) : Int)
    let b : Int := ((c0 * c0 * v : Nat) : Int)
    let cos : Surd := { p := a - b, q := 0, d := a + b }
    let sin : Surd := { p := 0, q := ((2 * c0 * (k * k - c0 * c0) : Nat) : Int), d := a + b }
    [exactOne, .zero false, cos.exact v, sin.exact v]

/-- `WFRES` on one element (06 R117): A, B, C and S with the flags. -/
def wfresVal (env : FpEnv) (wc wn : Nat) : List (Nat × FlagSet) :=
  let c := Val.ofBits .f32 env.ftz wc
  let n := Val.ofBits .f32 env.ftz wn
  let nan := fun fl => List.replicate 4 (0x7FC00000, fl)
  if c.isNan || n.isNan then nan (c.sig ||| n.sig)
  else
    match n with
    | .fin false nm ne =>
      if nm == 0 then nan flIV
      else
        let one := [1, 0, 1, 0].map (fun x => ((if x == 1 then 0x3F800000 else 0 : Nat), (0 : FlagSet)))
        let go := fun (cm : Nat) (ce : Int) =>
          let lo := min (min ce ne) 0
          let k := 2 ^ (-lo).toNat
          let c0 := min (cm * 2 ^ (ce - lo).toNat) k
          (fresnel c0 (nm * 2 ^ (ne - lo).toNat) k).map (fun x => match x with
            | .zero _ => ((0 : Nat), (0 : FlagSet))
            | x => roundTo .f32 env x)
        match c with
        | .fin _ 0 _ => one
        | .fin _ cm ce => go cm ce
        | _ => go 1 0
    | _ => nan flIV

/-! ### Dot products (06 R118, R119) -/

/-- One correctly rounded sum of products, with the sign of an exact zero from its terms (06 R119). -/
def dotVal (env : FpEnv) (ps : List (Val × Val)) : Nat × FlagSet :=
  let ts := ps.map (fun x => mulVal x.1 x.2)
  let fl := (ts.map (·.2)).foldl (· ||| ·) 0
  let vs := ts.map (·.1)
  let infs := vs.filterMap (fun v => match v with | .inf s => some s | _ => none)
  let opposed : FlagSet := if infs.any (· == true) && infs.any (· == false) then flIV else 0
  if vs.any Val.isNan || opposed != 0 then (0x7FC00000, fl ||| opposed)
  else match infs with
    | s :: _ => finish .f32 env (.inf s, fl)
    | [] =>
      let (m, e) := sumDy (vs.map Val.dy)
      if m == 0 then
        let signs := vs.map (fun v => match v with | .fin s 0 _ => some s | _ => none)
        let z := if signs.all (· == some false) then false
          else if signs.all (· == some true) then true else env.mode == .rd
        finish .f32 env (.zero z, fl)
      else finish .f32 env (.mag (m < 0) m.natAbs e false, fl)

/-- x × cos + y × sin for fixed-point cosine and sine, y and x finite and not both zero. -/
def rotSum (x y : Val) (c s : Nat × Bool) : Exact :=
  let term := fun (v : Val) (t : Nat × Bool) =>
    let d := v.dy
    ((if t.2 then -d.1 else d.1) * (t.1 : Int), d.2)
  let (m, e) := sumDy [term x c, term y s]
  let drop := bitLen m.natAbs - 256
  .mag (m < 0) (m.natAbs / 2 ^ drop) (e + drop - fxBits) true

/-- A turned pair of Stokes elements (06 R118): Q′ and U′. -/
def rotVal (env : FpEnv) (q u phi : Nat) : List (Nat × FlagSet) :=
  let qv := Val.ofBits .f32 env.ftz q
  let uv := Val.ofBits .f32 env.ftz u
  let pv := Val.ofBits .f32 env.ftz phi
  let sg := qv.sig ||| uv.sig ||| pv.sig
  let nan := fun fl => List.replicate 2 (0x7FC00000, fl)
  match pv with
  | .nan _ => nan sg
  | .inf _ => nan (sg ||| flIV)
  | .fin s m e =>
    if m == 0 then
      let one := Val.fin false 1 0
      [dotVal env [(one, qv), (.fin s 0 0, uv)], dotVal env [(.fin (!s) 0 0, qv), (one, uv)]]
    else
      let ((sv, sn), (cv, cn)) := sincos m (e + 1)
      let sn := sn != s
      let out := fun (x y : Val) (c t : Nat × Bool) =>
        match x, y with
        | .fin _ xm _, .fin _ ym _ =>
          if xm == 0 && ym == 0 then dotVal env [(.fin c.2 1 0, x), (.fin t.2 1 0, y)]
          else finish .f32 env (rotSum x y c t, sg)
        | _, _ => dotVal env [(.fin c.2 1 0, x), (.fin t.2 1 0, y)]
      [out qv uv (cv, cn) (sv, sn), out qv uv (sv, !sn) (cv, cn)]

end Sys2Proof.Machine
end

