-- ==== Sys2Proof/Machine/Spectral.lean ====
section
/-! DEFINITION. Transcendental, spectral and Mueller instructions (05 R90, 06 R108 to R119). -/

namespace Sys2Proof.Machine

open Sys2Proof

/-- An F32 instruction of one operand. -/
def f32Un (op : Nat → Nat × FlagSet) : LaneFn := fun _ _ a _ _ =>
  let (r, fl) := op (lowBits 32 a)
  ([w64 r], fl)

/-- Element e of the spectral register that a field names. -/
def elem (g : Group) (i : Nat) (reg : Byte) (k e : Nat) : Nat := (g.readW i (reg.toNat + k) e).toNat

/-- A result of `n` spectral registers, from the value of each register and active element; elements past
the packet width are +0.0 and raise nothing (06 R108). -/
def specFn (n : Nat) (op : Group → Nat → Nat → Nat → Nat × FlagSet) : LaneFn := fun g i _ _ _ =>
  let rs := (List.range (8 * n)).map (fun j =>
    if j % 8 < g.width then op g i (j / 8) (j % 8) else ((0 : Nat), (0 : FlagSet)))
  (rs.map (fun x => w64 x.1), (rs.map (·.2)).foldl (· ||| ·) 0)

/-- An element-wise instruction of two spectral operands (06 R109). -/
def wide2 (f : Full) (op : Nat → Nat → Nat × FlagSet) : LaneFn :=
  specFn 1 (fun g i _ e => op (elem g i f.sa 0 e) (elem g i f.sb 0 e))

/-- A result of `n` spectral registers computed element by element, all registers of an element at once. -/
def blockFn (n : Nat) (op : Group → Nat → Nat → List (Nat × FlagSet)) : LaneFn :=
  specFn n (fun g i k e => (op g i e).getD k (0, 0))

/-- An operand value after the `FTZ` flush. -/
def wval (env : FpEnv) (g : Group) (i : Nat) (reg : Byte) (k e : Nat) : Val := Val.ofBits .f32 env.ftz (elem g i reg k e)

/-- `MUEL.F` on one element (06 R118). -/
def muelF (env : FpEnv) (m : Nat → Val) (x : Nat → Val) : List (Nat × FlagSet) :=
  [dotVal env [(m 0, x 0), (m 1, x 1)], dotVal env [(m 1, x 0), (m 0, x 1)],
   dotVal env [(m 2, x 2), (m 3, x 3)], dotVal env [((m 3).negate, x 2), (m 2, x 3)]]

/-- `MUEL.G` on one element (06 R118). -/
def muelG (env : FpEnv) (m : Nat → Val) (x : Nat → Val) : List (Nat × FlagSet) :=
  (List.range 4).map (fun r => dotVal env ((List.range 4).map (fun c => (m (4 * r + c), x c))))

/-- An F32 value passed through `RoundTo` alone. -/
def passVal (env : FpEnv) (a : Nat) : Nat × FlagSet :=
  let v := Val.ofBits .f32 env.ftz a
  finish .f32 env (v.exact, v.sig)

/-- `WSUM` (06 R112, 04 R72): pairs, then pairs of sums. -/
def wsumVal (env : FpEnv) (xs : List Nat) : Nat × FlagSet :=
  let add := fun (a b : Nat × FlagSet) =>
    let (r, fl) := fpAdd .f32 env a.1 b.1
    (r, fl ||| a.2 ||| b.2)
  let x := fun k => (xs.getD k 0, (0 : FlagSet))
  let lo := add (add (x 0) (x 1)) (add (x 2) (x 3))
  if xs.length == 8 then add lo (add (add (x 4) (x 5)) (add (x 6) (x 7))) else lo

/-- `WPACK` (06 R115): four registers of two F16 elements each. -/
def wpackFn (env : FpEnv) (f : Full) : LaneFn := fun g i _ _ _ =>
  let rs := (List.range 8).map (fun e =>
    if e < g.width then
      let v := wval env g i f.sa 0 e
      finish .f16 env (v.exact, v.sig)
    else (0, 0))
  ((List.range 4).map (fun k => w64 ((rs.getD (2 * k) (0, 0)).1 + 65536 * (rs.getD (2 * k + 1) (0, 0)).1)),
    (rs.map (·.2)).foldl (· ||| ·) 0)

/-- `WCVT` on one element (06 R114). -/
def wcvtVal (env : FpEnv) (toInt : Bool) (a : Nat) : Nat × FlagSet :=
  if toInt then
    let (v, fl) := floatToInt env.mode (Val.ofBits .f32 env.ftz a) 0 (2 ^ 32 - 1)
    (v.toNat, fl)
  else roundTo .f32 env (Exact.ofInt a)

/-- `WCMP` (06 R113): a mask of the active elements. -/
def wcmpFn (env : FpEnv) (f : Full) : LaneFn := fun g i _ _ _ =>
  let rs := (List.range g.width).map (fun e => fcmpVal env (f.fam % 8) (elem g i f.sa 0 e) (elem g i f.sb 0 e))
  ([w64 (ofTest 8 (fun e => (rs.getD e (false, 0)).1))], (rs.map (·.2)).foldl (· ||| ·) 0)

/-- `FRCP` (05 R90). -/
def execFrcp (f : Full) (s : State) : Result := .next (aluExec .frcp f s (f32Un (frcpVal (s.envFor f))))

/-- `FRSQ` (05 R90). -/
def execFrsq (f : Full) (s : State) : Result := .next (aluExec .frsq f s (f32Un (frsqVal (s.envFor f))))

/-- `FSQRT` (05 R90). -/
def execFsqrt (f : Full) (s : State) : Result := .next (aluExec .fsqrt f s (f32Un (fsqrtVal (s.envFor f))))

/-- `FEXP2` (05 R90). -/
def execFexp2 (f : Full) (s : State) : Result := .next (aluExec .fexp2 f s (f32Un (fexp2Val (s.envFor f))))

/-- `FLOG2` (05 R90). -/
def execFlog2 (f : Full) (s : State) : Result := .next (aluExec .flog2 f s (f32Un (flog2Val (s.envFor f))))

/-- `FSIN` (05 R90). -/
def execFsin (f : Full) (s : State) : Result := .next (aluExec .fsin f s (f32Un (fsinVal (s.envFor f))))

/-- `FCOS` (05 R90). -/
def execFcos (f : Full) (s : State) : Result := .next (aluExec .fcos f s (f32Un (fcosVal (s.envFor f))))

/-- `WADD` (06 R109). -/
def execWadd (f : Full) (s : State) : Result := .next (aluExec .wadd f s (wide2 f (fpAdd .f32 (s.envFor f))))

/-- `WADD` in its compact form (02 R37, 06 R109). -/
def execWaddC32 (x : Comp) (s : State) : Result := .next (aluExec .wadd x.expand s (wide2 x.expand (fpAdd .f32 (s.envFor x.expand))))

/-- `WSUB` (06 R109). -/
def execWsub (f : Full) (s : State) : Result := .next (aluExec .wsub f s (wide2 f (fpSub .f32 (s.envFor f))))

/-- `WSUB` in its compact form (02 R37, 06 R109). -/
def execWsubC32 (x : Comp) (s : State) : Result := .next (aluExec .wsub x.expand s (wide2 x.expand (fpSub .f32 (s.envFor x.expand))))

/-- `WMUL` (06 R109). -/
def execWmul (f : Full) (s : State) : Result := .next (aluExec .wmul f s (wide2 f (fpMul .f32 (s.envFor f))))

/-- `WMUL` in its compact form (02 R37, 06 R109). -/
def execWmulC32 (x : Comp) (s : State) : Result := .next (aluExec .wmul x.expand s (wide2 x.expand (fpMul .f32 (s.envFor x.expand))))

/-- `WFMA` (06 R109). -/
def execWfma (f : Full) (s : State) : Result := .next (aluExec .wfma f s (specFn 1 (fun g i _ e => fpFma .f32 (s.envFor f) (elem g i f.sa 0 e) (elem g i f.sb 0 e) (elem g i f.sc 0 e))))

/-- `WMIN` (06 R109). -/
def execWmin (f : Full) (s : State) : Result := .next (aluExec .wmin f s (wide2 f (minMax32 (s.envFor f) false)))

/-- `WMIN` in its compact form (02 R37, 06 R109). -/
def execWminC32 (x : Comp) (s : State) : Result := .next (aluExec .wmin x.expand s (wide2 x.expand (minMax32 (s.envFor x.expand) false)))

/-- `WMAX` (06 R109). -/
def execWmax (f : Full) (s : State) : Result := .next (aluExec .wmax f s (wide2 f (minMax32 (s.envFor f) true)))

/-- `WMAX` in its compact form (02 R37, 06 R109). -/
def execWmaxC32 (x : Comp) (s : State) : Result := .next (aluExec .wmax x.expand s (wide2 x.expand (minMax32 (s.envFor x.expand) true)))

/-- `WEXP` (06 R110). -/
def execWexp (f : Full) (s : State) : Result := .next (aluExec .wexp f s (specFn 1 (fun g i _ e => expVal (s.envFor f) (elem g i f.sa 0 e))))

/-- `WSCL` (06 R109). -/
def execWscl (f : Full) (s : State) : Result := .next (aluExec .wscl f s (fun g i a b c => specFn 1 (fun g i _ e => fpMul .f32 (s.envFor f) (elem g i f.sa 0 e) (lowBits 32 b)) g i a b c))

/-- `WBCST` (06 R111). -/
def execWbcst (f : Full) (s : State) : Result := .next (aluExec .wbcst f s (fun g i a b c => specFn 1 (fun _ _ _ _ => (lowBits 32 a, 0)) g i a b c))

/-- `WSET` (06 R111). -/
def execWset (f : Full) (s : State) : Result := .next (aluExec .wset f s (fun g i a b c => specFn 1 (fun g i _ e => (if e == f.sc.toNat then lowBits 32 b else elem g i f.sa 0 e, 0)) g i a b c))

/-- `WGET` (06 R111). -/
def execWget (f : Full) (s : State) : Result := .next (aluExec .wget f s (fun g i _ _ _ => ([if f.sb.toNat < g.width then w64 (elem g i f.sa 0 f.sb.toNat) else 0], 0)))

/-- `WSUM` (06 R112). -/
def execWsum (f : Full) (s : State) : Result := .next (aluExec .wsum f s (fun g i _ _ _ =>
    let (r, fl) := wsumVal (s.envFor f) ((List.range g.width).map (elem g i f.sa 0))
    ([w64 r], fl)))

/-- `WCMP` (06 R113). -/
def execWcmp (f : Full) (s : State) : Result := .next (aluExec .wcmp f s (wcmpFn (s.fpEnv (s.group s.cur.gid)) f))

/-- `WSEL` (06 R113). -/
def execWsel (f : Full) (s : State) : Result := .next (aluExec .wsel f s (fun g i a b c => specFn 1 (fun g i _ e => (if c.getLsbD e then elem g i f.sa 0 e else elem g i f.sb 0 e, 0)) g i a b c))

/-- `WCVT` (06 R114). -/
def execWcvt (f : Full) (s : State) : Result := .next (aluExec .wcvt f s (specFn 1 (fun g i _ e => wcvtVal (s.envFor f) (f.fam < 8) (elem g i f.sa 0 e))))

/-- `WFRES` (06 R117). -/
def execWfres (f : Full) (s : State) : Result := .next (aluExec .wfres f s (blockFn 4 (fun g i e => wfresVal (s.envFor f) (elem g i f.sa 0 e) (elem g i f.sb 0 e))))

/-- `WPACK` (06 R115). -/
def execWpack (f : Full) (s : State) : Result := .next (aluExec .wpack f s (wpackFn (s.envFor f) f))

/-- `WLEN` (06 R116). -/
def execWlen (f : Full) (s : State) : Result := .next (aluExec .wlen f s (fun g _ _ _ _ => ([w64 g.width], 0)))

/-- `MUEL.F` (06 R118). -/
def execMuelF (f : Full) (s : State) : Result := .next (aluExec .muelF f s (blockFn 4 (fun g i e => muelF (s.envFor f) (fun k => wval (s.envFor f) g i f.sa k e) (fun k => wval (s.envFor f) g i f.sb k e))))

/-- `MUEL.G` (06 R118). -/
def execMuelG (f : Full) (s : State) : Result := .next (aluExec .muelG f s (blockFn 4 (fun g i e => muelG (s.envFor f) (fun k => wval (s.envFor f) g i f.sa k e) (fun k => wval (s.envFor f) g i f.sb k e))))

/-- `MUEL.ROT` (06 R118). -/
def execMuelRot (f : Full) (s : State) : Result := .next (aluExec .muelRot f s (blockFn 4 (fun g i e =>
    let qu := rotVal (s.envFor f) (elem g i f.sa 1 e) (elem g i f.sa 2 e) (elem g i f.sb 0 e)
    [passVal (s.envFor f) (elem g i f.sa 0 e)] ++ qu ++ [passVal (s.envFor f) (elem g i f.sa 3 e)])))

end Sys2Proof.Machine
end

