-- ==== Sys2Proof/Machine/Texture.lean ====
section
/-! DEFINITION. The spectral texture unit (11 R228 to R233): descriptors, filtering, the lane instructions and the
requests of the texture queue port. -/

namespace Sys2Proof.Machine

open Sys2Proof

/-! ### Descriptors (11 Table 11-3) -/

/-- A valid texture descriptor. -/
structure TexDesc where
  base  : Nat
  w     : Nat
  h     : Nat
  s     : Nat
  flags : Nat
  lam0  : Nat
  invd  : Nat
  rp    : Nat
  lp    : Nat
  deriving DecidableEq, Repr

/-- The kind of a texture. -/
def TexDesc.kind (d : TexDesc) : Nat := d.flags % 4
/-- The size of a texel in bytes. -/
def TexDesc.size (d : TexDesc) : Nat := if d.flags / 4 % 2 == 1 then 2 else 4

/-- Whether F32 bits are a finite value, above 0 when asked. -/
def finiteF32 (c : Nat) (positive : Bool) : Bool :=
  match Val.ofBits .f32 false c with
  | .fin s m _ => !positive || (!s && m != 0)
  | _ => false

/-- Reads a descriptor; none where a limit of 11 Table 11-3 is broken or the kind is 0. -/
def TexDesc.ofBytes (bs : List Byte) : Option TexDesc :=
  let n := fun (o k : Nat) => leVal ((bs.drop o).take k)
  let d : TexDesc := { base := n 0 8, w := n 8 2, h := n 10 2, s := n 12 2, flags := n 14 2, lam0 := n 16 4, invd := n 20 4,
                       rp := n 24 8, lp := n 32 8 }
  let lam := d.kind == 1 || d.kind == 3
  if 1 ≤ d.w && d.w ≤ 16384 && 1 ≤ d.h && d.h ≤ 16384 && 1 ≤ d.s && d.s ≤ 1024 && d.kind != 0 && d.flags < 32 &&
      (d.kind != 2 || d.s == 1) && (d.kind != 3 || (d.w == 3 && d.h == 1)) &&
      (!lam || (finiteF32 d.lam0 false && finiteF32 d.invd true)) && d.base % d.size == 0 &&
      d.rp % d.size == 0 && d.w * d.size ≤ d.rp && d.lp % d.size == 0 && d.h * d.rp ≤ d.lp && n 40 24 == 0
  then some d else none

/-- The address of a texel (11 R228). -/
def TexDesc.texel (d : TexDesc) (x y k : Nat) : Nat := (d.base + k * d.lp + y * d.rp + x * d.size) % 2 ^ 64

/-- The texture operations, by the code of 11 Table 11-6. -/
inductive TexOp where
  | w | f | ups | fet
  deriving DecidableEq, Repr

/-- Whether a kind of texture serves an operation (11 R229). -/
def TexOp.allows (o : TexOp) (kind : Nat) : Bool :=
  match o with
  | .w => kind == 1
  | .f => kind == 2
  | .ups => kind == 3
  | .fet => kind != 0

/-! ### Filtering (11 R229), on exact dyadic numbers m × 2^e -/

/-- The greatest integer not above m × 2^e. -/
def floorDy (x : Int × Int) : Int :=
  if 0 ≤ x.2 then x.1 * (2 ^ x.2.toNat : Nat) else x.1 / (2 ^ (-x.2).toNat : Nat)

/-- The sum of two dyadic numbers. -/
def addDy (x y : Int × Int) : Int × Int :=
  let lo := if x.2 ≤ y.2 then x.2 else y.2
  (x.1 * (2 ^ (x.2 - lo).toNat : Nat) + y.1 * (2 ^ (y.2 - lo).toNat : Nat), lo)

/-- `Taps1D` (11 R229): up to two indexes with their weights in units of 1/256. -/
def taps1D (x : Int × Int) (n : Nat) (wrap : Bool) : List (Nat × Nat) :=
  let i := floorDy x
  let a := (floorDy (x.1, x.2 + 8) - 256 * i).toNat
  let map := fun (m : Int) => if wrap then (m % (n : Int)).toNat else if m < 0 then 0 else min m.toNat (n - 1)
  [(map i, 256 - a), (map (i + 1), a)].filter (fun t => t.2 != 0)

/-- `TapsLam` (11 R229): the layers with their weights, and the clamp bit; none for a NaN wavelength. -/
def tapsLam (d : TexDesc) (lam : Val) : Option (List (Nat × Nat) × Bool) :=
  match lam with
  | .nan _ => none
  | .inf neg => some ([(if neg then 0 else d.s - 1, 256)], true)
  | .fin _ _ _ =>
    let l0 := (Val.ofBits .f32 false d.lam0).dy
    let iv := (Val.ofBits .f32 false d.invd).dy
    let df := addDy lam.dy (-l0.1, l0.2)
    let t : Int × Int := (df.1 * iv.1, df.2 + iv.2)
    if t.1 < 0 then some ([(0, 256)], true)
    else if 0 < (addDy t (-((d.s : Int) - 1), 0)).1 then some ([(d.s - 1, 256)], true)
    else
      let k := floorDy t
      let c := (floorDy (t.1, t.2 + 8) - 256 * k).toNat
      some ([(k.toNat, 256 - c), (k.toNat + 1, c)].filter (fun x => x.2 != 0), false)

/-- One element of a texture operation before its texels are read: a NaN that reads none; or the sum over its
parts of a coefficient times the weighted sum of texels (weight, address), the weights in units of 2^e. -/
inductive TexElem where
  | nan
  | sum (parts : List (Val × List (Nat × Nat))) (e : Int)
  deriving DecidableEq, Repr

/-- An element of `Sample` (11 R229). -/
def sampleElem (d : TexDesc) (u v : Val) (lam : Option (List (Nat × Nat))) : TexElem :=
  match u, v, lam with
  | .fin _ _ _, .fin _ _ _, some lt =>
    let coord := fun (x : Val) (n : Nat) => addDy (x.dy.1 * (n : Int), x.dy.2) (-1, -1)
    let tu := taps1D (coord u d.w) d.w (d.flags.testBit 3)
    let tv := taps1D (coord v d.h) d.h (d.flags.testBit 4)
    .sum [(.fin false 1 0, tu.flatMap (fun a => tv.flatMap (fun b => lt.map (fun c =>
      (a.2 * b.2 * c.2, d.texel a.1 b.1 c.1)))))] (-24)
  | _, _, _ => .nan

/-- An element of `TUPS` (11 Table 11-4). -/
def upsElem (d : TexDesc) (cs : List Val) (lam : Option (List (Nat × Nat))) : TexElem :=
  match lam with
  | none => .nan
  | some lt => .sum ((cs.zip [0, 1, 2]).map (fun c => (c.1, lt.map (fun t => (t.2, d.texel c.2 0 t.1))))) (-8)

/-- What an operation will compute: its elements, the flags that its operands raise, and the clamp bits. -/
structure TexPlan where
  elems : List TexElem
  fl    : FlagSet := 0
  clamp : List Bool := []

/-- The plan of an operation: `a` and `b` are the words of the operand pair, `lams` the wavelengths of the active
elements. `TFET` reads one texel as a term, or none. -/
def texPlan (o : TexOp) (d : TexDesc) (env : FpEnv) (a b : W32) (lams : List W32) : TexPlan :=
  let u := Val.ofBits .f32 env.ftz a.toNat
  let v := Val.ofBits .f32 env.ftz b.toNat
  let ls := lams.map (fun l => Val.ofBits .f32 env.ftz l.toNat)
  let sig := ls.foldl (fun f l => f ||| l.sig) 0
  let clamp := ls.map (fun l => ((tapsLam d l).map (·.2)).getD false)
  match o with
  | .w => { elems := ls.map (fun l => sampleElem d u v ((tapsLam d l).map (·.1))), fl := sig ||| u.sig ||| v.sig, clamp := clamp }
  | .f => { elems := [sampleElem d u v (some [(0, 256)])], fl := u.sig ||| v.sig }
  | .ups =>
    let cs := [a.toNat % 2 ^ 16, a.toNat / 2 ^ 16, b.toNat % 2 ^ 16].map (Val.ofBits .f16 env.ftz)
    { elems := ls.map (fun l => upsElem d cs ((tapsLam d l).map (·.1))), fl := cs.foldl (fun f c => f ||| c.sig) sig, clamp := clamp }
  | .fet =>
    let x := a.toNat % 2 ^ 16
    let k := a.toNat / 2 ^ 16
    let y := b.toNat
    { elems := [.sum [(.fin false 1 0, if d.w ≤ x || d.h ≤ y || d.s ≤ k then [] else [(1, d.texel x y k)])] 0] }

/-- The texel addresses that a plan reads, each once. -/
def TexPlan.addrs (p : TexPlan) : List Nat :=
  (p.elems.flatMap (fun e => match e with
    | .nan => []
    | .sum ps _ => ps.flatMap (fun x => x.2.map (·.2)))).eraseDups

/-- The exact sum of values (04 R63): NaN for a NaN or infinities of both signs, which raise `IV`. -/
def sumVals (mode : Mode) (vs : List Val) : Val × FlagSet :=
  let pos := vs.any (fun v => v == .inf false)
  let neg := vs.any (fun v => v == .inf true)
  let fl := flagIf (pos && neg) flIV
  if vs.any Val.isNan || (pos && neg) then (.nan false, fl)
  else if pos then (.inf false, fl)
  else if neg then (.inf true, fl)
  else
    let minus := fun (v : Val) => match v with
      | .fin s _ _ => s
      | _ => false
    let (m, e) := sumDy (vs.map Val.dy)
    if m != 0 then (.fin (m < 0) m.natAbs e, fl)
    else
      let zeros := vs.all (fun v => v.dy.1 == 0)
      let z := if zeros && vs.all minus && !vs.isEmpty then true
        else if zeros && !vs.any minus then false
        else mode == .rd
      (.fin z 0 0, fl)

/-- The value of an element from its texels' bits, rounded to F32. -/
def TexElem.value (e : TexElem) (d : TexDesc) (env : FpEnv) (bits : Nat → Nat) : Nat × FlagSet :=
  match e with
  | .nan => (Fmt.nanCode .f32, 0)
  | .sum ps sc =>
    let fmt := if d.size == 2 then Fmt.f16 else Fmt.f32
    let part := fun (p : Val × List (Nat × Nat)) =>
      let ts := p.2.map (fun t => mulVal (.fin false t.1 sc) (Val.ofBits fmt false (bits t.2)))
      let (v, f1) := sumVals env.mode (ts.map (·.1))
      let (w, f2) := mulVal p.1 v
      (w, ts.foldl (fun (fl : FlagSet) (t : Val × FlagSet) => fl ||| t.2) (f1 ||| f2))
    let xs := ps.map part
    let (v, f1) := sumVals env.mode (xs.map (·.1))
    let f2 := xs.foldl (fun (fl : FlagSet) (x : Val × FlagSet) => fl ||| x.2) f1
    finish .f32 env (v.exact, f2)

/-- The results of an operation from its texels' bits, with the flags. -/
def TexPlan.results (p : TexPlan) (o : TexOp) (d : TexDesc) (env : FpEnv) (bits : Nat → Nat) : List Nat × FlagSet :=
  if o = .fet then ([match p.addrs with
    | a :: _ => bits a
    | [] => 0], 0)
  else
    let rs := p.elems.map (fun e => e.value d env bits)
    (rs.map (·.1), rs.foldl (fun (fl : FlagSet) (r : Nat × FlagSet) => fl ||| r.2) p.fl)

/-! ### The lane instructions (11 R230) -/

/-- What comes of several loads of a lane: their bits, a trap that stands for all that faulted, or a wait. -/
inductive Texels where
  | bits (l : List (Nat × Nat)) (s : State)
  | trap (t : Trap) (s : State)
  | wait (s : State)

/-- The texels at a list of addresses as a lane loads them (11 R228, R230). -/
def State.loadTexels (s : State) (g : Group) (i size : Nat) (addrs : List Nat) : Texels :=
  let r := addrs.foldl (fun (x : List (Nat × Nat) × List (Nat × Trap) × Bool × State) a =>
    match x.2.2.2.load g i .global a size 0 with
    | .bytes bs s => (x.1 ++ [(a, leVal bs)], x.2.1, x.2.2.1, s)
    | .trap t s => (x.1, x.2.1 ++ [(i, t)], x.2.2.1, s)
    | .wait s => (x.1, x.2.1, true, s)) ([], [], false, s)
  match reportTrap r.2.1 with
  | some t => .trap t r.2.2.2
  | none => if r.2.2.1 then .wait r.2.2.2 else .bits r.1 r.2.2.2

/-- The descriptor of a texture as a lane reads it, for an operation (11 R228, R230). -/
inductive Descr where
  | ok (d : TexDesc) (s : State)
  | trap (t : Trap) (s : State)
  | wait (s : State)

/-- Reads descriptor `n` of the team of a group. -/
def State.descriptor (s : State) (g : Group) (i n : Nat) (kindOk : Nat → Bool) : Descr :=
  let tb := (s.team g.team).texbase.toNat
  if tb == 0 then .trap (.illegal 0x11) s
  else match s.load g i .global ((tb + 64 * n) % 2 ^ 64) 64 0 with
  | .trap t s => .trap t s
  | .wait s => .wait s
  | .bytes bs s => match TexDesc.ofBytes bs with
    | none => .trap (.illegal 0x11) s
    | some d => if kindOk d.kind then .ok d s else .trap (.illegal 0x11) s

/-- A texture instruction on each lane: `n` is the descriptor's number, `lams` the wavelengths it reads. -/
def texExec (op : Op) (o : TexOp) (f : Full) (s : State) (n : Nat) (lams : Group → Nat → List W32) : State :=
  let env := s.envFor f
  laneExec op f s (fun s g got i =>
    match s.descriptor g i n o.allows with
    | .trap t s => .trapIn t s
    | .wait s => .stay s
    | .ok d s =>
      let x := srcA op f g i (poppedBy got i)
      let p := texPlan o d env (x.setWidth 32) (x.extractLsb' 32 32) ((lams g i).take g.width)
      match s.loadTexels g i d.size p.addrs with
      | .trap t s => .trapIn t s
      | .wait s => .stay s
      | .bits l s =>
        let (vs, fl) := p.results o d env (fun a => ((l.find? (fun x => x.1 == a)).map (·.2)).getD 0)
        let vals := vs.map w64
        match o with
        | .w | .ups => .res s ((List.range 8).map (fun e => vals.getD e 0)) fl
        | _ => finishAlu s op f g vals fl)

/-- The elements of a spectral register. -/
def spectralWords (r : Byte) (g : Group) (i : Nat) : List W32 := (List.range 8).map (g.readW i r.toNat)

/-- `TSMP.W` (11 R230). -/
def execTsmpW (f : Full) (s : State) : Result := .next (texExec .tsmpW .w f s f.sc.toNat (spectralWords f.sb))
/-- `TUPS` (11 R230): the destination is read as wavelengths, then written. -/
def execTups (f : Full) (s : State) : Result := .next (texExec .tups .ups f s f.sb.toNat (spectralWords f.dst))
/-- `TSMP.F` (11 R230). -/
def execTsmpF (f : Full) (s : State) : Result := .next (texExec .tsmpF .f f s f.sb.toNat (fun _ _ => []))
/-- `TFET` (11 R230). -/
def execTfet (f : Full) (s : State) : Result := .next (texExec .tfet .fet f s f.sb.toNat (fun _ _ => []))
/-- `TQRY` (11 R230). -/
def execTqry (f : Full) (s : State) : Result :=
  .next (laneExec .tqry f s (fun s g _ i =>
    match s.descriptor g i f.sb.toNat (fun _ => true) with
    | .trap t s => .trapIn t s
    | .wait s => .stay s
    | .ok d s =>
      let v := match f.fam with
        | 0 => d.flags
        | 1 => d.w
        | 2 => d.h
        | 3 => d.s
        | 4 => d.lam0
        | _ => d.invd
      finishAlu s .tqry f g [w64 v] 0))

/-! ### The texture queue port (11 R231, R232) -/

/-- What comes of a read by the texture unit for a request: bits, a fault with the status it gives, or a wait. -/
inductive UnitRead where
  | bits (v : Nat) (s : State)
  | fault (addr status : Nat) (hard : Bool) (s : State)
  | wait (s : State)

/-- A read of `n` bytes by the texture unit of a team (11 R228, R232), which another module may refuse (22 R398). A sector with an uncorrectable error is
reported, and what the unit reads of it is a free value (assumption log 15). A hit in the L1 meets no home (11 R224). -/
def State.unitRead (s : State) (t : Team) (a n : Nat) (descr : Bool) : UnitRead :=
  let s := s.useTlb t.core t.tenant a
  let bad := fun (tr : Trap) (hard : Bool) => UnitRead.fault a (if descr then 2 else if tr.cause == 0x06 then 3 else 4) hard s
  let lost := fun (s : State) =>
    let (v, s) := s.drawWord
    UnitRead.bits (v.toNat % 2 ^ (8 * n)) s
  match s.translate t.tenant a .read with
  | .error tr => bad tr false
  | .ok p =>
    let fetch := fun (s : State) =>
      let (bs, s) := s.loadGlobal t.core p n 0 none none
      UnitRead.bits (leVal bs) s
    if s.l1Hit t.core p n then fetch s
    else match s.remoteRefusal p a with
    | some tr => bad tr false
    | none =>
      if s.fetchHeld p || s.bankHeld p then .wait (s.askBank p)
      else if s.poison.contains (0, p / 64) then lost (s.raiseError { sev := 1, src := 6, tenant := t.tenant } 5 (s.dram p).place)
      else match s.remoteAnswer p a false with
      | some tr => if tr.cause == 0x04 then lost s else bad tr true
      | none => fetch (s.askBank p)

/-- Reads several words for a request; the first fault by R136's order, the lowest address among its equals. -/
def State.unitReads (s : State) (t : Team) (n : Nat) (addrs : List Nat) :
    List (Nat × Nat) × Option (Nat × Nat × Bool) × Bool × State :=
  addrs.foldl (fun (x : List (Nat × Nat) × Option (Nat × Nat × Bool) × Bool × State) a =>
    match x.2.2.2.unitRead t a n false with
    | .bits v s => (x.1 ++ [(a, v)], x.2.1, x.2.2.1, s)
    | .wait s => (x.1, x.2.1, true, s)
    | .fault a st hard s =>
      let worse := match x.2.1 with
        | none => true
        | some (b, st', _) => st' < st || (st' == st && a < b)
      (x.1, if worse then some (a, st, hard) else x.2.1, x.2.2.1, s)) ([], none, false, s)

/-- Replaces the request that a team's unit serves. -/
def State.setTex (s : State) (q : TexReq) : State := { s with tex := updWhere (fun (x : TexReq) => x.team == q.team) (fun _ => q) s.tex }

/-- A request's record is written (11 R232): eight values, the status word, zeros; the line becomes present. -/
def State.writeRecord (s : State) (q : TexReq) (vals : List Nat) (stat : W64) : State :=
  let off := field q.val 17 0
  let bs := (List.range 8).flatMap (fun e => leOf 4 (vals.getD e 0)) ++ bytes64 stat ++ List.replicate 24 0
  let s := (s.modTeam q.team (fun t => t.setLs (off + 64) bs)).endFill q.team (off / 128)
  s.setTex { q with stat := some stat }

/-- The status word of a request (11 Table 11-7). -/
def texStatus (q : TexReq) (status : Nat) (fl : FlagSet) (clamp : List Bool) : W64 :=
  w64 (field q.val 47 32 + status * 2 ^ 16 + ((clamp.zip (List.range 8)).foldl (fun n c => if c.1 then n + 2 ^ (24 + c.2) else n) 0) +
    fl.toNat * 2 ^ 32)

/-- A fault of a request is offered to firmware (11 R232, 15 R288). -/
def State.offerTex (s : State) (t : Team) (q : TexReq) (addr status : Nat) (hard : Bool) : State :=
  ((s.setTex { q with wait := true, failed := status, hard := hard, since := s.ticks }).engineFault t.die t.launch q.origin).enqueueFault t.die
    (.texture t.id addr)

/-- The unit computes a request (11 R230, R232), or waits for a held line, or for firmware. An error in the record's local-store
line is not reported, and the unit reads the bytes that the line holds (assumption log 105). -/
def State.serveTex (s : State) (t : Team) (q : TexReq) : State :=
  if q.failed != 0 then s.writeRecord q [] (texStatus q q.failed 0 [])
  else
    let o := match field q.val 28 26 with
      | 0 => TexOp.w
      | 1 => .f
      | 2 => .ups
      | _ => .fet
    let env := (FpEnv.ofFmode t.fmode).withFam (field q.val 31 29)
    if t.texbase == 0 then s.writeRecord q [] (texStatus q 1 0 [])
    else match s.unitRead t ((t.texbase.toNat + 64 * field q.val 25 18) % 2 ^ 64) 64 true with
    | .wait s => s
    | .fault a st hard s => s.offerTex t q a st hard
    | .bits v s =>
      match TexDesc.ofBytes (leOf 64 v) with
      | none => s.writeRecord q [] (texStatus q 1 0 [])
      | some d =>
        if !o.allows d.kind then s.writeRecord q [] (texStatus q 1 0 [])
        else
          let r := t.lsBytesAt (field q.val 17 0) 40
          let word := fun (k : Nat) => w32 (leVal ((r.drop (4 * k)).take 4))
          let lams := if o = .w || o = .ups then (List.range (if q.pkt8 then 8 else 4)).map (fun e => word (2 + e)) else []
          let p := texPlan o d env (word 0) (word 1) lams
          match s.unitReads t d.size p.addrs with
          | (_, some (a, st, hard), _, s) => s.offerTex t q a st hard
          | (_, none, true, s) => s
          | (l, none, false, s) =>
            let (vs, fl) := p.results o d env (fun a => ((l.find? (fun x => x.1 == a)).map (·.2)).getD 0)
            s.writeRecord q vs (texStatus q 0 fl p.clamp)

/-- The last step of a request (11 R232): its status word goes to the queue bound to `TEX.RES`; while that is
full the unit waits. -/
def State.finishTex (s : State) (t : Team) (q : TexReq) (stat : W64) : State :=
  let s' := match (s.team t.id).bound? 6 with
    | none => some s
    | some n => s.enginePush t.id n stat
  match s' with
  | none => s
  | some s => { s with tex := s.tex.filter (fun x => x.team != t.id) }.engineDone t.id q.queue

/-- The member of a spliced pair whose instruction stands at an address (16 R303). -/
def State.originAt (s : State) (t : Team) (pc : W64) : Nat :=
  match s.launch? t.die t.launch with
  | some l => (l.origin pc.toNat).1
  | none => 0

/-- The unit serves a team's next request (11 R232): it takes the head entry when it has none, computes it,
writes its record, and passes on its status word. -/
def execTextureRequestServe (s : State) : Result :=
  match s.team? s.ev.obj with
  | none => .next s
  | some t =>
    let s := if s.tex.any (fun (x : TexReq) => x.team == t.id) then s
      else match (if s.preempting t.id then none else t.bound? 5) with
      | none => s
      | some n => match s.engineTake t.id n true with
        | none => s
        | some (e, s) =>
          let q : TexReq := { team := t.id, queue := n, val := e.val, pkt8 := e.pkt8, tenant := t.tenant,
                              origin := s.originAt t e.pc }
          { s with tex := s.tex ++ [q] }
    match s.tex.find? (fun (x : TexReq) => x.team == t.id) with
    | none => .next s
    | some q =>
      if q.wait then .next s
      else
        let s := if q.stat.isNone then s.serveTex t q else s
        match s.tex.find? (fun (x : TexReq) => x.team == t.id) with
        | some q => match q.stat with
          | some w => .next (s.finishTex t q w)
          | none => .next s
        | none => .next s

end Sys2Proof.Machine
end

