-- ==== Sys2Proof/Machine/Camera.lean ====
section
/-! DEFINITION. The sensor back end and the encoders (20): splats, film, the close of frames, folds and develop
launches, and encode sessions. -/

namespace Sys2Proof.Machine

open Sys2Proof

/-! ### Writes of firmware and the back end to a tenant's memory -/

/-- Writes bytes at a tenant's virtual address: the time at which every one of them is performed, where no row command holds
their lines; none, and no byte written, where a page does not allow it. `origin` marks the writes. -/
def State.tenantWrite (s : State) (tenant a : Nat) (bs : List Byte) (origin : Nat := 0) : Option Nat × State :=
  match s.pieces tenant .write (bs.length / 16384 + 2) a bs.length with
  | .error _ => (none, s)
  | .ok ps =>
    let put := fun (x : State × List Byte) (p : Nat × Nat) => (x.1.engineWrite none p.1 (x.2.take p.2) origin, x.2.drop p.2)
    let (s, _) := ps.foldl put (s, bs)
    let lines := ps.flatMap (fun p => (List.range (p.2 / 128 + 2)).map (fun i => min (p.1 + 128 * i) (p.1 + p.2 - 1) / 128))
    (some (maxOf (s.time :: lines.flatMap (fun ln => (s.home ln).queue.map (·.due)))), s)

/-! ### Cameras and time (20 R356, R357) -/

/-- A camera by its number. -/
def State.camera? (s : State) (n : Nat) : Option Camera := s.cameras.find? (fun (c : Camera) => c.num == n)

/-- Changes a camera. -/
def State.modCamera (s : State) (n : Nat) (f : Camera → Camera) : State :=
  { s with cameras := updWhere (fun (c : Camera) => c.num == n) f s.cameras }

/-- The time at which row y of frame k opens (20 R357). -/
def CameraDesc.opens (d : CameraDesc) (k y : Nat) : Nat := d.epoch + k * d.period + y * d.rowt

/-- The time at which the last row of frame k closes. -/
def CameraDesc.lastClose (d : CameraDesc) (k : Nat) : Nat := d.opens k (d.h - 1) + d.expo

/-- The frame whose interval of row y holds a time (20 R360). -/
def CameraDesc.frameAt (d : CameraDesc) (y t : Nat) : Option Nat :=
  let o := d.opens 0 y
  if t < o || d.period == 0 then none
  else
    let k := (t - o) / d.period
    if t < d.opens k y + d.expo then some k else none

/-- The first frame whose last row closes after a time. -/
def CameraDesc.nextFrame (d : CameraDesc) (t : Nat) : Nat :=
  if t < d.lastClose 0 || d.period == 0 then 0 else (t - d.lastClose 0) / d.period + 1

/-! ### Splats (20 R358 to R361) -/

/-- Whether a tenant of a die may send splats to a camera (20 R358 item 2). -/
def State.cameraOk (s : State) (n tenant die : Nat) : Bool :=
  match s.camera? n with
  | some c => c.cen && c.tenant == tenant && n / 128 == die
  | none => false

/-- Whether entries of a lane wait at its team's `SPLAT` port: its later splats follow them (04 R73). -/
def State.splatQueued (s : State) (team gid lane : Nat) : Bool :=
  match (s.team team).bound? 8 with
  | none => false
  | some q => ((s.team team).queue q).entries.any (fun e => e.gid == gid && e.lane == lane)

/-- `FSPLAT.W` (20 R358). -/
def execFsplatW (f : Full) (s : State) : Result :=
  .next (laneExec .fsplatW f s (fun s g _ i =>
    let gc := (g.readG i f.sb.toNat).toNat
    let gp := (g.readG i f.sc.toNat).toNat
    let r := f.sa.toNat
    if gc / 256 != 0 then .trap (.illegal 0x15)
    else if !s.cameraOk gc g.tenant (dieOfCore g.core) then .trap (.protection 0)
    else if s.splatQueued g.team g.id i then .stay s
    else
      let sp : Splat :=
        { die := dieOfCore g.core, gid := some g.id, camera := gc, x := gp % 65536, y := gp / 65536,
          elems := (List.range g.width).map (fun e => (g.readW i r e, g.readW i (r + 1) e)) }
      .res { s with splats := s.splats ++ [sp] } [] 0))

/-- A weighted sum of response samples as one exact value. -/
def mixVals (l : List (Nat × Val)) : Val :=
  let vs := l.map (·.2)
  let pos := vs.any (· == .inf false)
  let neg := vs.any (· == .inf true)
  if vs.any Val.isNan || (pos && neg) then .nan false
  else if pos then .inf false
  else if neg then .inf true
  else
    let (m, e) := sumDy (l.map (fun x => ((x.1 : Int) * x.2.dy.1, x.2.dy.2 - 8)))
    .fin (m < 0) m.natAbs e

/-- `Resp` (20 R359); none for a response of 0. -/
def Camera.respAt (c : Camera) (j : Nat) (lam : W32) : Option Val :=
  let rd := fun (w : W32) => Val.ofBits .f32 false w.toNat
  match rd lam, rd c.desc.lam0, rd c.desc.invd with
  | .fin a b e, .fin a0 b0 e0, .fin a1 b1 e1 =>
    let l0 := (Val.fin a0 b0 e0).dy
    let iv := (Val.fin a1 b1 e1).dy
    let df := addDy (Val.fin a b e).dy (-l0.1, l0.2)
    let t : Int × Int := (df.1 * iv.1, df.2 + iv.2)
    if t.1 < 0 || 0 < (addDy t (-((c.desc.s : Int) - 1), 0)).1 then none
    else
      let k := (floorDy t).toNat
      let w := (floorDy (t.1, t.2 + 8) - 256 * floorDy t).toNat
      let r := fun (n : Nat) => rd (c.resp.getD (j * c.desc.s + n) 0)
      let v := mixVals ([(256 - w, r k), (w, r (k + 1))].filter (fun x => x.1 != 0))
      match v with
      | .fin _ 0 _ => none
      | v => some v
  | _, _, _ => none

/-- The contribution of a splat to channel j: an F32 encoding (20 R359). -/
def Camera.weighed (c : Camera) (elems : List (W32 × W32)) (j : Nat) : Nat :=
  let terms := elems.filterMap (fun x => (c.respAt j x.2).map (fun r => (Val.ofBits .f32 false x.1.toNat, r)))
  if terms.isEmpty then 0 else (finish .f32 {} (runSum .rn terms)).1

/-- The compensated addition of a value to a film word pair (04 R73). -/
def filmAdd (s c x : Nat) : Nat × Nat :=
  let add := fun (a b : Nat) => (fpAdd .f32 {} a b).1
  let neg := fun (a : Nat) => (a + 2 ^ 31) % 2 ^ 32
  let t := add s x
  let c' := if x % 2 ^ 31 ≤ s % 2 ^ 31 then add c (add (add s (neg t)) x) else add c (add (add x (neg t)) s)
  (t, c')

/-- A counter of 32 bits that saturates. -/
def satInc (n : Nat) : Nat := min (n + 1) (2 ^ 32 - 1)

/-- A splat enters the film of frame k (20 R359). -/
def Camera.expose (c : Camera) (sp : Splat) (k : Nat) : Camera :=
  let key := fun (j : Nat) => k % 2 * 2 ^ 28 + (sp.y * c.desc.w + sp.x) * 4 + j
  let one := fun (c : Camera) (j : Nat) =>
    let x := c.weighed sp.elems j
    match Val.ofBits .f32 false x with
    | .fin _ _ _ =>
      let (a, b) := filmAdd (Sparse.get 0 c.filmS (key j)).toNat (Sparse.get 0 c.filmC (key j)).toNat x
      { c with
        filmS := Sparse.put 0 c.filmS (key j) (w32 a)
        filmC := Sparse.put 0 c.filmC (key j) (w32 b) }
    | _ => { c with nandrop := satInc c.nandrop }
  { (List.range c.desc.c).foldl one c with splats := satInc c.splats }

/-- A splat is applied at a time: to the film, or to the count of what keeps it out (20 R359, R360). -/
def Camera.applyAt (c : Camera) (sp : Splat) (t : Nat) : Camera :=
  if c.desc.w ≤ sp.x || c.desc.h ≤ sp.y then { c with outdrop := satInc c.outdrop }
  else match (if c.cen then c.desc.frameAt sp.y t else none) with
    | none => { c with gapdrop := satInc c.gapdrop }
    | some k => c.expose sp k

/-- SPLAT_APPLY (20 R359, R360): the die's back end applies the splat that arrived first; its completion time
goes to its group, and its port's entries have had their effect (09 R194). -/
def execSplatApply (s : State) : Result :=
  match s.splats.find? (fun (x : Splat) => x.die == s.ev.obj) with
  | none => .next s
  | some sp =>
    let s := { s with splats := s.splats.erase sp }
    let s := s.modCamera sp.camera (fun c => c.applyAt sp s.time)
    .next ((s.complete sp.gid s.time).engineDone sp.team sp.queue sp.taken)

/-- A splat that the port drops counts in its camera's `OUTDROP`, also before that is configured (20 R361). -/
def State.dropSplat (s : State) (cam : Nat) : State :=
  match s.camera? cam with
  | some _ => s.modCamera cam (fun c => { c with outdrop := satInc c.outdrop })
  | none => { s with lostSplats := Sparse.put 0 s.lostSplats cam (satInc (Sparse.get 0 s.lostSplats cam)) }

/-- SPLAT_PORT_ENTRY (20 R361): the port takes an entry of a team's queue and assembles it with the earlier
entries of its lane; 1 + P of them make a splat, or are dropped and counted. -/
def execSplatPortEntry (s : State) : Result :=
  let t := s.team s.ev.obj
  match (if s.preempting t.id then none else t.bound? 8) with
  | none => .next s
  | some q =>
    match s.engineTake t.id q true with
    | none => .next s
    | some (e, s) =>
      let mine := fun (x : QEntry) => x.gid == e.gid && x.lane == e.lane
      let all := (s.team t.id).splat ++ [e]
      match all.filter mine with
      | h :: rest =>
        if rest.length < (if h.pkt8 then 8 else 4) then .next (s.modTeam t.id (fun t => { t with splat := all }))
        else
          let s := s.modTeam t.id (fun t => { t with splat := all.filter (fun x => !mine x) })
          let cam := field h.val 7 0
          if field h.val 31 8 != 0 || !s.cameraOk cam t.tenant t.die then
            .next ((s.dropSplat cam).engineDone t.id q (rest.length + 1))
          else
            let sp : Splat :=
              { die := t.die, gid := some e.gid, camera := cam, x := field h.val 47 32, y := field h.val 63 48,
                elems := rest.map (fun x => (w32 (field x.val 31 0), w32 (field x.val 63 32))),
                team := t.id, queue := q, taken := rest.length + 1 }
            .next { s with splats := s.splats ++ [sp] }
      | [] => .next s

/-! ### Freeze, fold and develop (20 R362, R363) -/

/-- Zeroes the film set of frame k. -/
def Camera.zeroSet (c : Camera) (k : Nat) : Camera :=
  let out := fun (x : Nat × W32) => x.1 / 2 ^ 28 != k % 2
  { c with
    filmS := c.filmS.filter out
    filmC := c.filmC.filter out }

/-- The bytes of the image plane of frame k (20 R362 item 3). -/
def Camera.plane (c : Camera) (k : Nat) : List Byte :=
  (List.range c.desc.c).flatMap (fun j => (List.range (c.desc.w * c.desc.h)).flatMap (fun p =>
    let key := k % 2 * 2 ^ 28 + p * 4 + j
    leOf 4 (fpAdd .f32 {} (Sparse.get 0 c.filmS key).toNat (Sparse.get 0 c.filmC key).toNat).1))

/-- Whether the develop launch of a frame has not ended (20 R362 item 2): its fold goes on, or its launch runs. -/
def State.developing (s : State) (c : Camera) (frame : Nat) : Bool :=
  c.folds.any (fun (x : Fold) => x.frame == frame) ||
  c.develop.any (fun x => x.1 == frame &&
    s.launches.any (fun (l : Launch) => l.die == x.2.1 && l.num == x.2.2 && !l.ended))

/-- A new configuration takes effect at a frame close (21 R371). -/
def Camera.reconfigure (c : Camera) (t : Nat) : Camera :=
  match c.next with
  | none => c
  | some (d, cen, resp) => { c with desc := d, cen := cen, resp := resp, next := none, frame := d.nextFrame t }

/-- The mark of the fold writes of a frame at their homes. -/
def foldMark (camera frame : Nat) : Nat := 2 ^ 43 + 2 * camera + frame % 2

/-- FRAME_CLOSE (20 R362): the last row of the camera's next frame has closed. The frame is folded into its plane,
or dropped. The time at which the fold ends is a free value within its bound. -/
def execFrameClose (s : State) : Result :=
  match s.camera? s.ev.obj with
  | none => .next s
  | some c =>
    let k := c.frame
    if !c.cen || s.time < c.desc.lastClose k then .next s
    else if 2 ≤ k && s.developing c (k - 2) then
      .next (s.modCamera c.num (fun c =>
        ({ c.zeroSet k with frame := k + 1, framedrop := satInc c.framedrop }).reconfigure s.time))
    else
      let va := if k % 2 == 0 then c.desc.plane0 else c.desc.plane1
      let (t, s) := s.tenantWrite c.tenant va (c.plane k) (foldMark c.num k)
      let (d, s) := s.drawNat
      let bound := c.desc.w * c.desc.h * c.desc.c / 16 * 5 / 8
      let fold : Fold :=
        { frame := k, at_ := max (t.getD s.time) (s.time + d % (bound + 1)), desc := c.desc, splats := c.splats,
          nandrop := c.nandrop, outdrop := c.outdrop, gapdrop := c.gapdrop, framedrop := c.framedrop }
      .next (s.modCamera c.num (fun c =>
        ({ c.zeroSet k with
           frame := k + 1
           folds := c.folds ++ [fold]
           closes := c.closes ++ [c.desc.opens k 0 + c.desc.expo]
           splats := 0
           nandrop := 0
           outdrop := 0
           gapdrop := 0
           framedrop := 0 } : Camera).reconfigure s.time))

/-- The bytes of a frame record (20 Table 20-2). -/
def Fold.record (x : Fold) (cam now : Nat) : List Byte :=
  let d := x.desc
  leOf 2 cam ++ leOf 2 0 ++ leOf 4 d.c ++ leOf 8 x.frame ++ leOf 8 (d.opens x.frame 0 + d.expo) ++ leOf 8 now ++
    leOf 8 (if x.frame % 2 == 0 then d.plane0 else d.plane1) ++ leOf 4 x.splats ++ leOf 4 x.nandrop ++ leOf 4 x.outdrop ++
    leOf 4 x.gapdrop ++ leOf 4 x.framedrop ++ leOf 4 0x46524D45

/-- The descriptor of a develop launch (20 R363): the template with `ARGS`, `OPTS` [5] and `DEADLINE` set. -/
def developDesc (template : List Byte) (args deadline : Nat) : List Byte :=
  let put := fun (l : List Byte) (o : Nat) (bs : List Byte) => l.take o ++ bs ++ l.drop (o + bs.length)
  let l := put template 0x10 (leOf 8 args)
  let l := put l 0x1E [(l.getD 0x1E 0) ||| 0x20#8]
  put l 0x30 (leOf 8 deadline)

/-- FOLD_END (20 R363): once the fold writes are performed, the frame record is written and the develop launch submitted. -/
def execFoldEnd (s : State) : Result :=
  match s.camera? s.ev.obj with
  | none => .next s
  | some c =>
    match c.folds with
    | [] => .next s
    | x :: rest =>
      if s.time < x.at_ || s.originQueued (foldMark c.num x.frame) then .next s
      else
        let va := x.desc.frec + 64 * (x.frame % 2)
        let (_, s) := s.tenantWrite c.tenant va (x.record c.num s.time)
        let s := s.modCamera c.num (fun c => { c with folds := rest })
        match s.homeRead c.tenant x.desc.devdesc 128 with
        | none => .next s
        | some tm =>
          let s := s.homeLoads c.tenant x.desc.devdesc 128
          let bs := developDesc tm va (s.time + x.desc.devdl)
          let ev : Subject := { obj := (bs.getD 0x1D 0).toNat % 2, sub := c.tenant, bytes := bs, nats := [c.num, x.frame] }
          .next (s.push [.event .launchTake ev])

/-! ### Encode sessions (20 R364, R365, 21 R375) -/

/-- Changes an encode session. -/
def State.modSession (s : State) (n : Nat) (f : Session → Session) : State :=
  { s with sessions := updWhere (fun (x : Session) => x.num == n) f s.sessions }

/-- The entries of a frame (20 R364). -/
def Session.frameEntries (x : Session) : Nat := x.w / 4 * (3 * x.h / 2)

/-- A picture of 10-bit 4:2:0 samples: its luma lines, and its lines of Cb and Cr pairs (20 R364). -/
structure Picture where
  luma   : List (List Nat)
  chroma : List (List (Nat × Nat))
  deriving DecidableEq, Repr

/-- Sample n of a frame's entries: four in each, with a value in bits [+15:+6] of its field (20 R364). -/
def sampleAt (entries : List W64) (n : Nat) : Nat :=
  field (entries.getD (n / 4) 0) (16 * (n % 4) + 15) (16 * (n % 4) + 6)

/-- The picture of a frame's entries: for each row pair r luma lines 2r and 2r + 1, then the interleaved line r of Cb
and Cr (20 R364). -/
def Session.picture (x : Session) (entries : List W64) : Picture :=
  let line := fun (n : Nat) => 3 * (n / 2) + n % 2
  { luma := (List.range x.h).map (fun y => (List.range x.w).map (fun c => sampleAt entries (line y * x.w + c)))
    chroma := (List.range (x.h / 2)).map (fun r => (List.range (x.w / 2)).map (fun c =>
      (sampleAt entries ((3 * r + 2) * x.w + 2 * c), sampleAt entries ((3 * r + 2) * x.w + 2 * c + 1)))) }

/-- The mark of the ring writes of a session's frame at their homes. -/
def Session.mark (x : Session) : Nat := 2 ^ 44 + x.num + 64 * x.frame

/-- The ring data of a session starts behind its 64 control bytes; offsets count bytes and wrap in it (DEDUCED,
assumption log 17). -/
def State.ringWrite (s : State) (x : Session) (off : Nat) (bs : List Byte) : State :=
  let size := x.bytes - 64
  let at_ := off % size
  let head := bs.take (size - at_)
  let (_, s) := s.tenantWrite x.tenant (x.ring + 64 + at_) head x.mark
  if head.length == bs.length then s else (s.tenantWrite x.tenant (x.ring + 64) (bs.drop head.length) x.mark).2

/-- A session encodes its frame (20 R365, 21 R375) by its codec. A frame that does not fit the ring is dropped. -/
def State.encodeFrame (s : State) (x : Session) : State :=
  let pic := x.picture x.entries
  let (choice, s) := s.drawNat
  let bits := (Config.bitstream choice x.hevc pic.luma pic.chroma).take (2 ^ 32 - 1)
  let n := bits.length
  let (isKey, s) := s.drawBool
  let (guess, s) := s.drawWord
  let pres := match (s.camera? x.camera).bind (fun (c : Camera) => c.closes[x.frame]?) with
    | some t => t
    | none => guess.toNat
  let late : Bool := pres + x.encdl < s.time
  let s := s.modSession x.num (fun y => { y with
    entries := []
    frame := y.frame + 1
    late := if late then y.late + 1 else y.late })
  let rd := leVal ((s.homeRead x.tenant (x.ring + 8) 8).getD [])
  let s := s.homeLoads x.tenant (x.ring + 8) 8
  let pad := (64 - n % 64) % 64
  let total := 64 + n + pad
  if x.bytes - 64 < (x.wr - rd) + total then s.modSession x.num (fun y => { y with drops := y.drops + 1 })
  else
    let head := leOf 8 x.frame ++ leOf 8 pres ++ leOf 4 n ++ leOf 4 (isKey.toNat + 2 * late.toNat) ++ leOf 40 0
    let s := s.ringWrite x x.wr (head ++ bits ++ List.replicate pad 0)
    s.modSession x.num (fun y => { y with
      wr := x.wr + total
      publish := y.publish ++ [(x.wr + total, x.mark)] })

/-- Writes the write offsets of a session whose bytes are performed (21 R375). -/
def State.publishRing (s : State) (x : Session) : State :=
  let due := x.publish.takeWhile (fun p => !s.originQueued p.2)
  let s := s.modSession x.num (fun y => { y with publish := y.publish.drop due.length })
  due.foldl (fun s p => (s.tenantWrite x.tenant x.ring (leOf 8 p.1)).2) s

/-- The control bytes of a session's ring when it is configured (21 R375): the write offset, 0, and zeros; the read offset
in bytes 8 to 15 is the host's. -/
def State.openRingOf (s : State) (x : Session) : State :=
  let (_, s) := s.tenantWrite x.tenant x.ring (leOf 8 x.wr)
  (s.tenantWrite x.tenant (x.ring + 16) (leOf 48 0)).2

/-- Whether a session's line buffer has room for an entry (20 R365). -/
def Session.hasRoom (x : Session) : Bool := x.buffered ≤ Config.lineBuffer x.num

/-- The first team with a held entry in a queue bound to a session's `ENC.LINE` port, with that queue; none while the
session's line buffer is full. -/
def State.encSource (s : State) (n : Nat) : Option (Nat × Nat) :=
  if s.sessions.any (fun (x : Session) => x.num == n && !x.hasRoom) then none else
  s.teams.findSome? (fun (t : Team) => ((List.range 16).find? (fun q =>
    let x := t.queue q
    x.port == 9 && x.inst == n && !x.entries.isEmpty && !s.preempting t.id)).map (fun q => (t.id, q)))

/-- The encoder works off entries of a session's line buffer, at a free pace (20 R365, assumption log 75). -/
def State.workOff (s : State) (x : Session) : State :=
  let (k, s) := s.drawNat
  s.modSession x.num (fun y => { y with buffered := y.buffered - k % (y.buffered + 1) })

/-- ENC_LINE_TAKE (20 R364, R365): a session publishes what is performed, works off its line buffer, takes the next
entry where that has room, and encodes the frame that it completes. -/
def execEncLineTake (s : State) : Result :=
  match s.sessions.find? (fun (x : Session) => x.num == s.ev.obj) with
  | none => .next s
  | some x =>
    let s := (s.publishRing x).workOff x
    match s.encSource x.num with
    | none => .next s
    | some (team, q) =>
      match s.engineTake team q false with
      | none => .next s
      | some (e, s) =>
        let s := s.modSession x.num (fun y => { y with entries := y.entries ++ [e.val], buffered := y.buffered + 1 })
        match s.sessions.find? (fun (y : Session) => y.num == x.num) with
        | some y => .next (if y.frameEntries ≤ y.entries.length then s.encodeFrame y else s)
        | none => .next s

end Sys2Proof.Machine
end

