-- ==== Sys2Proof/Machine/Placing.lean ====
section
/-! DEFINITION. Placement (08 R148 to R151, 15 R272 to R275, R280 to R282): whether a team fits a core, where the
distributor puts it, and the placing of new teams. -/

namespace Sys2Proof.Machine

open Sys2Proof

/-! ### Fitting a team on a core (08 R148 to R151) -/

/-- What a team needs: groups, general and spectral budgets, local-store bytes, a sequencer, and the partition of
each group where a restore fixes it. -/
structure Need where
  groups : Nat
  n      : Nat
  m      : Nat
  ls     : Nat
  matrix : Bool
  parts  : Option (List Nat) := none
  deriving DecidableEq, Repr

/-- What of a core is taken: general and spectral runs of its groups by partition, team slots, ranges of 4 KiB
units and sequencers; and its fenced partitions and withdrawn sequencers. -/
structure CoreUse where
  gRuns  : List (Nat × Nat × Nat) := []
  wRuns  : List (Nat × Nat × Nat) := []
  slots  : List Nat := []
  units  : List Nat := []
  seqs   : List Nat := []
  fenced : List Nat := []
  deriving DecidableEq, Repr

/-- Where a team goes on a core: its slot, local-store base, sequencer, and for each group the partition and the
first general and spectral blocks. -/
structure Spot where
  slot  : Nat
  base  : Nat
  seq   : Option Nat
  at_   : List (Nat × Nat × Nat)
  deriving DecidableEq, Repr

/-- What the teams and groups of a core take, those of some teams apart. A team whose last group has ended takes nothing more
(08 R151), and a partition under test takes none (21 R388). -/
def State.useOf (s : State) (core : Nat) (without : List Nat) : CoreUse :=
  let c := s.cores.getD core {}
  let gs := s.groups.filter (fun (g : Group) => g.core == core && !without.contains g.team)
  let ts := s.teams.filter (fun (t : Team) => t.core == core && t.finished.isNone && !without.contains t.id)
  { gRuns := gs.map (fun g => (g.part, g.gBlock, g.n / 16)) ++ ts.flatMap (·.gKept),
    wRuns := gs.map (fun g => (g.part, g.wBlock, g.m / 4)) ++ ts.flatMap (·.wKept),
    slots := ts.map (·.slot),
    units := c.units ++ ts.flatMap (fun t => (List.range ((t.lsBytes + 4095) / 4096)).map (fun i => t.lsBase / 4096 + i)),
    seqs := c.seqs ++ ts.filterMap (fun t => t.seq.map (·.slot)),
    fenced := (c.fenced ++ (s.tests.filter (fun (x : PendingTest) => x.kind == 1 && x.loc / 4 == core)).map
      (fun (x : PendingTest) => x.loc % 4)).eraseDups }

/-- The smallest power of two not below n, at most 64. -/
def powAbove (n : Nat) : Nat := ([1, 2, 4, 8, 16, 32].find? (fun p => n ≤ p)).getD 64

/-- The lowest legal start of a run of `b` blocks, aligned to `a`, among `total` blocks (08 R150). -/
def firstRun (taken : List (Nat × Nat)) (total b a : Nat) : Option Nat :=
  if b == 0 then some 0
  else (List.range (total + 1 - b)).find? (fun i => i % a == 0 && taken.all (fun r => i + b ≤ r.1 || r.1 + r.2 ≤ i))

/-- The partitions that hold the groups of a team (08 R149); none where a fenced one is asked for. -/
def Need.partsOn (x : Need) (fenced : List Nat) : Option (List Nat) :=
  let free := [0, 1, 2, 3].filter (fun p => !fenced.contains p)
  match x.parts with
  | some l => if l.any fenced.contains then none else some l
  | none => if free.isEmpty then none else some ((List.range x.groups).map (fun g => free.getD (g % free.length) 0))

/-- Places one more group in a partition. -/
def CoreUse.addGroup (u : CoreUse) (part n m : Nat) : Option ((Nat × Nat × Nat) × CoreUse) :=
  let here := fun (l : List (Nat × Nat × Nat)) => (l.filter (fun r => r.1 == part)).map (fun r => (r.2.1, r.2.2))
  if 8 ≤ (here u.gRuns).length then none
  else
    let b := n / 16
    let c := m / 4
    match firstRun (here u.gRuns) 96 b (min 8 (powAbove b)), firstRun (here u.wRuns) 32 c (powAbove c) with
    | some gb, some wb =>
      some ((part, gb, wb), { u with
        gRuns := u.gRuns ++ [(part, gb, b)]
        wRuns := u.wRuns ++ [(part, wb, c)] })
    | _, _ => none

/-- Places the groups of a team, in ascending number. -/
def CoreUse.addGroups (u : CoreUse) (n m : Nat) : List Nat → Option (List (Nat × Nat × Nat) × CoreUse)
  | [] => some ([], u)
  | p :: r => match u.addGroup p n m with
    | none => none
    | some (x, u) => match u.addGroups n m r with
      | none => none
      | some (xs, u) => some (x :: xs, u)

/-- Whether a team fits a core, and where (08 R151). -/
def CoreUse.fit (u : CoreUse) (x : Need) : Option Spot :=
  let slot := (List.range 32).find? (fun i => !u.slots.contains i)
  let len := (x.ls + 4095) / 4096
  let base := (List.range (65 - len)).find? (fun i => (List.range len).all (fun k => !u.units.contains (i + k)))
  let seq := (List.range 4).find? (fun i => !u.seqs.contains i)
  match x.partsOn u.fenced, slot, (if len ≤ 64 then base else none) with
  | some ps, some sl, some bs =>
    if x.matrix && seq.isNone then none
    else (u.addGroups x.n x.m ps).map (fun r =>
      { slot := sl, base := 4096 * bs, seq := if x.matrix then seq else none, at_ := r.1 })
  | _, _, _ => none

/-- The free general blocks of a core over its unfenced partitions (15 R273). -/
def CoreUse.freeBlocks (u : CoreUse) : Nat :=
  96 * (4 - u.fenced.length) - ((u.gRuns.filter (fun r => !u.fenced.contains r.1)).map (fun r => r.2.2)).sum

/-- The free group slots of a core over its unfenced partitions. -/
def CoreUse.freeSlots (u : CoreUse) : Nat :=
  8 * (4 - u.fenced.length) - (u.gRuns.filter (fun r => !u.fenced.contains r.1)).length

/-- Whether a team fits an empty core with every partition unfenced (15 R271). -/
def Need.fitsEmpty (x : Need) : Bool := (({} : CoreUse).fit x).isSome

/-! ### Choosing a core or a rectangle (15 R273) -/

/-- Whether core a precedes core b for a single team. -/
def coreBefore (a b : Nat × CoreUse) : Bool :=
  let fa := a.2.freeBlocks
  let fb := b.2.freeBlocks
  fb < fa || (fa == fb && (b.2.freeSlots < a.2.freeSlots || (a.2.freeSlots == b.2.freeSlots && a.1 < b.1)))

/-- The cores of a W × H rectangle of a hardware cluster with its origin at a row and a column, in the order of the
teams of an execution cluster (13 R244). -/
def rectCores (die hc r0 c0 w h : Nat) : List Nat :=
  (List.range (w * h)).map (fun i => die * 96 + hc * 12 + (r0 + i / w) * 4 + c0 + i % w)

/-- Every placement of a W × H rectangle on a die, in the order of the ties of 15 R273. -/
def rects (die w h : Nat) : List (List Nat) :=
  (List.range 8).flatMap (fun hc => (List.range (4 - h)).flatMap (fun r0 => (List.range (5 - w)).map (fun c0 =>
    rectCores die hc r0 c0 w h)))

/-- The least-free core of a rectangle: its free blocks, then its free slots. -/
def leastFree (us : List CoreUse) : Nat × Nat :=
  us.foldl (fun m u =>
    let x := (u.freeBlocks, u.freeSlots)
    if x.1 < m.1 || (x.1 == m.1 && x.2 < m.2) then x else m) (10000, 10000)

/-- The first of a list of candidates that no later one precedes. -/
def bestOf {α : Type} (lt : α → α → Bool) : List α → Option α
  | [] => none
  | x :: r => some (r.foldl (fun a b => if lt b a then b else a) x)

/-- The core that a single team goes to, with its spot; the cores of `closed` are not to be taken. -/
def State.pickCore (s : State) (die : Nat) (x : Need) (closed : List Nat) : Option (Nat × Spot) :=
  let all := ((List.range 96).map (fun c => die * 96 + c)).filter (fun c => !closed.contains c)
  let cs := (all.map (fun c => (c, s.useOf c []))).filterMap (fun c => (c.2.fit x).map (fun sp => (c, sp)))
  (bestOf (fun a b => coreBefore a.1 b.1) cs).map (fun c => (c.1.1, c.2))

/-- The rectangle that the teams of an execution cluster go to, each given with its place in the rectangle: the core and
spot of each. -/
def State.pickRect (s : State) (die w h : Nat) (xs : List (Nat × Need)) (closed : List Nat) : Option (List (Nat × Spot)) :=
  let cand := ((rects die w h).filter (fun l => !l.any closed.contains)).filterMap (fun l =>
    let us := l.map (fun c => s.useOf c [])
    let fits := xs.map (fun x => (us.getD x.1 {}).fit x.2)
    if fits.any (·.isNone) then none
    else some (us, ((xs.map (fun x => l.getD x.1 0)).zip fits).filterMap (fun p => p.2.map (fun sp => (p.1, sp)))))
  let before := fun (a b : List CoreUse × List (Nat × Spot)) =>
    let x := leastFree a.1
    let y := leastFree b.1
    y.1 < x.1 || (x.1 == y.1 && y.2 < x.2)
  (bestOf before cand).map (·.2)

/-! ### Launches as the distributor sees them -/

/-- Whether a kernel has the `matrix` flag. -/
def Kernel.matrix (k : Kernel) : Bool := k.flags.getLsbD 0

/-- The rejoin setting of a launch after its override (15 Table 15-1). -/
def rejoinOn (d : LaunchDesc) (k : Kernel) : Bool := if d.opts.getLsbD 0 then d.opts.getLsbD 1 else k.flags.getLsbD 1

/-- The packet width of a launch after its override: whether it is 8. -/
def packet8 (d : LaunchDesc) (k : Kernel) : Bool := if d.opts.getLsbD 2 then d.opts.getLsbD 3 else k.flags.getLsbD 2

/-- The windows present in a list. -/
def windowsOf (l : List W64) : List W64 := l.filter (fun w => field w 44 32 != 0)

/-- The union of two sets of windows, in four registers (16 R296). -/
def unionWindows (a b : List W64) : List W64 :=
  let l := (windowsOf a ++ windowsOf b).eraseDups
  l ++ List.replicate (4 - l.length) 0

/-- The vault windows of the teams of a launch (16 R296). -/
def Launch.windows (l : Launch) : List W64 :=
  match l.splice with
  | some sp => unionWindows l.desc.vwin sp.cdesc.vwin
  | none => l.desc.vwin

/-- What a team of a launch needs (16 R296 for a spliced pair). -/
def Launch.need (l : Launch) : Need :=
  match l.splice with
  | some sp =>
    { groups := l.kernel.groups, n := l.kernel.gregs + sp.ckernel.gregs, m := l.kernel.wregs + sp.ckernel.wregs,
      ls := max l.desc.lsBytes sp.cdesc.lsBytes, matrix := l.kernel.matrix || sp.ckernel.matrix }
  | none => { groups := l.kernel.groups, n := l.kernel.gregs, m := l.kernel.wregs, ls := l.desc.lsBytes, matrix := l.kernel.matrix }

/-- Where the lanes of a launch start; an entry that is no multiple of 4 is taken as it is (assumption log 84). -/
def Launch.entryPc (l : Launch) : W64 :=
  match l.splice with
  | some sp => w64 sp.text
  | none => l.desc.code + l.kernel.entry

/-- Whether a launch is a pool launch. -/
def Launch.isPool (l : Launch) : Bool := l.desc.kind == 1

/-- The teams of an execution cluster of a launch. -/
def Launch.clusterSize (l : Launch) : Nat := l.kernel.clw * l.kernel.clh

/-- Where a unit of a launch goes, each team given with its place in the unit (15 R273). -/
def State.pickUnit (s : State) (l : Launch) (xs : List (Nat × Need)) (closed : List Nat) : Option (List (Nat × Spot)) :=
  if l.clusterSize ≤ 1 then (s.pickCore l.die ((xs.headD (0, l.need)).2) closed).map (fun x => [x])
  else s.pickRect l.die l.kernel.clw l.kernel.clh xs closed

/-- Whether a tenant is exhausted on a die (15 R280). -/
def State.exhausted (s : State) (die tenant : Nat) : Bool :=
  s.budgets.any (fun (b : Budget) => b.die == die && b.tenant == tenant && b.left == 0)

/-- The deadline of a record (15 R278); none for +∞. -/
def Launch.recordDeadline (l : Launch) (r : Record) : Option Nat :=
  let d := field r.flags 27 24
  if d != 0 then some (r.time + 2 ^ (d + 9)) else if l.desc.opts.getLsbD 5 then some l.desc.deadline.toNat else none

/-- The lesser of two deadlines. -/
def minDl (a b : Option Nat) : Option Nat :=
  match a, b with
  | some x, some y => some (min x y)
  | some x, none => some x
  | none, y => y

/-- Whether deadline a is before b. -/
def dlLt (a b : Option Nat) : Bool :=
  match a, b with
  | some x, some y => x < y
  | some _, none => true
  | none, _ => false

/-- The deadline of a descriptor; none for +∞. -/
def LaunchDesc.dl (d : LaunchDesc) : Option Nat := if d.opts.getLsbD 5 then some d.deadline.toNat else none

/-- The deadline of a launch, for a spliced pair the lesser of the two (16 R301). -/
def Launch.dl (l : Launch) : Option Nat :=
  match l.splice with
  | some sp => minDl l.desc.dl sp.cdesc.dl
  | none => l.desc.dl

/-- The priority of a launch, for a spliced pair the greater of the two (16 R301). -/
def Launch.prio (l : Launch) : Nat :=
  match l.splice with
  | some sp => max l.desc.prio sp.cdesc.prio
  | none => l.desc.prio

/-- The effective deadline of a grid launch's unit (15 R281). -/
def State.unitDeadline (s : State) (l : Launch) : Option Nat :=
  if s.exhausted l.die l.tenant then none else l.dl

/-- Whether a unit of one launch, with its effective deadline, is served before that of another (15 R282). -/
def State.servedBefore (s : State) (a b : Launch × Option Nat) : Bool :=
  let ea := s.exhausted a.1.die a.1.tenant
  let eb := s.exhausted b.1.die b.1.tenant
  let x := a.1
  let y := b.1
  if ea != eb then !ea
  else if dlLt a.2 b.2 then true
  else if dlLt b.2 a.2 then false
  else y.prio < x.prio || (x.prio == y.prio &&
    (x.tenant < y.tenant || (x.tenant == y.tenant && x.num < y.num)))

/-! ### Placing new teams -/

/-- Marks the first placement of a launch (15 Table 15-4). -/
def Launch.begin_ (l : Launch) (t : Nat) : Launch := if l.start == 0 then { l with start := t } else l

/-- The registers that a launch loads into `k` (01 R17, 16 R296). -/
def Launch.kregs (l : Launch) (num grp : Nat) : Sparse W64 :=
  let k1 := w64 (num + grp * 2 ^ 32)
  let k := Sparse.put 0 (Sparse.put 0 [] 0 l.desc.args) 1 k1
  match l.splice with
  | some sp => Sparse.put 0 (Sparse.put 0 k sp.kp sp.cdesc.args) (sp.kp + 1) k1
  | none => k

/-- Places team `num` of a launch on a core (15 R272, 01 R16 to R19, 11 R219). -/
def State.placeTeam (s : State) (l : Launch) (num core : Nat) (sp : Spot) (tag : Option Nat) : State :=
  let (id, s) := s.fresh
  let e := l.clusterSize
  let need := l.need
  let t : Team :=
    { id := id, core := core, num := num, die := l.die, launch := l.num, tenant := l.tenant, size := need.groups,
      cidx := num % e, cw := l.kernel.clw, ch := l.kernel.clh, slot := sp.slot, fmode := l.desc.fmode, tag := tag,
      lsBase := sp.base, lsBytes := need.ls, vwin := l.windows, seq := sp.seq.map (fun n => { slot := n }),
      placed := s.ticks }
  let addGroup := fun (s : State) (x : Nat × Nat × Nat × Nat) =>
    let (gid, s) := s.fresh
    let g : Group :=
      { id := gid, core := core, part := x.2.1, team := id, num := x.1, n := need.n, m := need.m, gBlock := x.2.2.1,
        wBlock := x.2.2.2, pkt8 := packet8 l.desc l.kernel, jenf := rejoinOn l.desc l.kernel, tenant := l.tenant,
        lanes := List.replicate 32 { pc := l.entryPc }, k := l.kregs num x.1, vwin := l.windows, resident := gid }
    { s with groups := s.groups ++ [g] }
  let s := { s with teams := s.teams ++ [t] }
  let s := ((List.range sp.at_.length).zip sp.at_).foldl addGroup s
  s.modLaunch l.die l.num (fun l => l.begin_ s.time)

/-- The lowest free route tag of a die (15 R275). -/
def State.freeTag (s : State) (die : Nat) : Option Nat :=
  ((s.tags.filter (fun (x : RouteTag) => x.die == die && x.holder.isNone && !x.withdrawn)).map (·.tag)).foldl
    (fun m n => match m with
      | some a => some (min a n)
      | none => some n) none

/-- Gives a route tag to a holder. -/
def State.grantTag (s : State) (die tag launch : Nat) (cl : Option Nat) : State :=
  let here := fun (x : RouteTag) => x.die == die && x.tag == tag
  { s with tags := updWhere here (fun x => { x with holder := some (launch, cl), arrived := [], due := none }) s.tags }

/-- Whether the local stores of cores are in service; those that are not are woken (13 Table 13-4). -/
def State.coresAwake (s : State) (l : List Nat) : Bool × State :=
  l.foldl (fun (x : Bool × State) c =>
    let (ok, s) := x.2.wakeArray (localArray c)
    (x.1 && ok, s)) (true, s)

/-- Places the next unit of a grid launch (15 R272 to R275): none where it fits nowhere, or waits for a tag. A unit whose core's
local store is out of service has its turn in this cycle, and waits until that has left its low voltage (13 Table 13-4,
assumption log 112). -/
def State.placeNext (s : State) (l : Launch) (closed : List Nat) : Option State :=
  let e := l.clusterSize
  let wantsTag := l.desc.opts.getLsbD 4
  let grid : Option (Option Nat × State) :=
    if !wantsTag then some (none, s)
    else match l.tag with
      | some n => some (some n, s)
      | none => match s.freeTag l.die with
        | some n => some (some n, (s.grantTag l.die n l.num none).modLaunch l.die l.num (fun l => { l with tag := some n }))
        | none => none
  match grid, s.pickUnit l ((List.range e).map (fun i => (i, l.need))) closed with
  | some (tag, s'), some spots =>
    let own := if wantsTag || e ≤ 1 then some (tag, s') else match s'.freeTag l.die with
      | some n => some (some n, s'.grantTag l.die n l.num (some (l.next / e)))
      | none => none
    match own with
    | none => none
    | some (tag, s'') =>
      match s''.coresAwake (spots.map (·.1)) with
      | (false, _) => some (s'.coresAwake (spots.map (·.1))).2
      | (true, s'') =>
        some ((((List.range spots.length).zip spots).foldl (fun s x => s.placeTeam l (l.next + x.1) x.2.1 x.2.2 tag) s'').modLaunch
          l.die l.num (fun l => { l with next := l.next + spots.length }))
  | _, _ => none

end Sys2Proof.Machine
end

