-- ==== Sys2Proof/Machine/Preempt.lean ====
section
/-! DEFINITION. Pre-emption and restore (08 R162 to R165, 09 R185, R195, 10 R215, 13 R261), the distributor's events
(15 R272 to R275), the deadline scheduler (15 R280 to R284) and stall hints (15 R289). -/

namespace Sys2Proof.Machine

open Sys2Proof

/-! ### Pre-emption (08 R163) -/

/-- Whether a lane of a team still waits for something that the drain of a pre-emption completes: an owed result, a result for
a queue that has room, or a `JOIN`. One for a full queue, which no pop can now make room in, is kept beside the image and pushed
after the restore (assumption log 106). -/
def Lane.draining (l : Lane) (t : Team) : Bool :=
  l.pend.any (fun p => p.cells.any (fun c => c.2.isNone || (match c.1 with
    | .q q => isStream (t.queue q).port || 0 < (t.queue q).room true
    | _ => false))) ||
  (match l.wait with
    | .join | .joinZero | .until _ _ => true
    | _ => false)

/-- Whether a team's sequencer has drained (10 R215): its `MMA`s, loads and stores are done. -/
def State.seqDrained (s : State) (t : Team) : Bool :=
  !s.msts.any (fun m => m.team == t.id) && !s.mstHeld t.id &&
  (match t.seq with
    | none => true
    | some q => q.mma.isEmpty && (q.a ++ q.b).all (fun x => x.loading.isNone))

/-- Whether a texture request has written its record, and only its status word waits for room in a full `TEX.RES`: it is kept
beside the record, and the word is pushed after the restore (assumption log 106). -/
def Team.texKept (t : Team) (x : TexReq) : Bool :=
  x.stat.isSome && (t.bound? 6).any (fun q => (t.queue q).room true == 0)

/-- The entries that a port has taken and that stay so over a pre-emption: those of splats that are not complete (20 R361), and
those of kept texture requests. -/
def State.inPort (s : State) (t : Team) (q : TeamQueue) : Nat :=
  if q.port == 8 then t.splat.length else if q.port == 5 then (s.tex.filter (fun x => x.team == t.id)).length else 0

/-- Whether a team that has stopped has drained (08 Table 8-3): nothing that it has issued is outstanding, and the device
time has passed the completion times of its writes, by 50 ns for homes on other modules (17 R322). -/
def State.teamDrained (s : State) (t : Team) : Bool :=
  (s.groups.filter (fun g => g.team == t.id)).all (fun g =>
    g.wait == .none && g.tx.isNone && !g.lanes.any (fun l => l.draining t || s.ticks < l.back) && !s.unperformed g.id &&
      g.wctime ≤ s.time && (g.rctime == 0 || g.rctime + 50 ≤ s.time) && !s.splats.any (fun x => x.gid == some g.id)) &&
  !s.copies.any (fun c => c.team == t.id) && !s.rows.any (fun c => c.team == t.id) && !s.tex.any (fun x => x.team == t.id && !t.texKept x) &&
  t.queues.all (fun q => q.taken == s.inPort t q) && s.seqDrained t

/-- A lane as it is saved: its lookahead windows stay open beside the image, so that the restored lane reads what an
uninterrupted one does (02 R36; assumption log 44). A lane that waits at a barrier keeps its wait: it issues the barrier again and waits for the
same phase as before, also where that phase completes first (09 R185). -/
def Lane.save (l : Lane) : Lane :=
  { l with
    yield := 0
    age := 0
    tried := .none
    stuck := false
    napEnd := 0
    busy := []
    reads := []
    stored := false
    back := 0 }

/-- A group as it is saved. -/
def Group.save (g : Group) : Group :=
  let g := laneIds.foldl (fun g i => g.retire i false) g
  { g with
    lanes := g.lanes.map Lane.save
    preempt := false
    hint := 0 }

/-- A sequencer's slots lose their pins (10 R215). -/
def Sequencer.unpin (q : Sequencer) : Sequencer :=
  { q with
    a := q.a.map (fun x => { x with pins := [] })
    b := q.b.map (fun x => { x with pins := [] }) }

/-- The `k1` that the lanes of a group of a team were launched with (01 R17). -/
def Team.k1 (t : Team) (g : Group) : Nat := t.num + g.num * 2 ^ 32

/-- What pre-emption saves of a team with its groups at a device time (08 R164, 09 R195, 10 R215). -/
def Team.toSaved (t : Team) (gs : List Group) (now : Nat) : Saved :=
  let stream := t.queues.any (fun q => isStream q.port)
  { team := { t.rest with
      absent := []
      gKept := []
      wKept := [] }
    record := t.record ++ (match t.seq with
      | some q => q.image t.bars
      | none => [])
    groups := gs.map (fun g => g.save.toSaved (t.k1 g) stream now) }

/-- Firmware makes the capability of a group's context image (21 R367); where the image lies is a free value (assumption
log 3). -/
def State.imageCap (s : State) (g : Group) : Capability × State :=
  let (a, s) := s.drawWord
  ({ tag := true, otype := 3, perm := 3, len := 7680 + 128 * g.n + 1024 * g.m, base := a.toNat }, s)

/-- A drained team is saved and leaves its core (08 R163, 09 R195, 11 R221). -/
def State.saveTeam (s : State) (t : Team) : State :=
  let cap := fun (x : List Group × State) (g : Group) =>
    let (c, s) := x.2.imageCap g
    (x.1 ++ [{ g with imgCap := c }], s)
  let (gs, s) := (s.groups.filter (fun (g : Group) => g.team == t.id)).foldl cap ([], s)
  let s := { s with
    groups := s.groups.filter (fun (g : Group) => g.team != t.id)
    teams := s.teams.filter (fun (x : Team) => x.id != t.id)
    saved := s.saved ++ [t.toSaved gs s.time] }
  let s := (s.setRetention (localArray t.core) (.active s.time)).releasePins
  match t.tag with
  | some n => s.testTag t.die n
  | none => s

/-- A group stops issuing at its instruction boundary (08 R163): its transaction aborts with cause 3, its copy slice is
withdrawn, a `BOBJ.WAIT` is taken up again later, and its dirty lines are written back. -/
def State.stopGroup (s : State) (gid : Nat) : State :=
  let (cause, code) := ((s.group gid).tx.bind (·.dead)).getD (3, 0)
  let s := ((s.withdrawSlice gid).txAbort gid cause code).modGroup gid (fun g =>
    { g with
      preempt := true
      wait := match g.wait with
        | .object _ _ _ _ => .none
        | w => w })
  s.writeBackGroup gid

/-- The teams of an execution cluster, resident with a team; the team alone where it has none. -/
def State.clusterOf (s : State) (t : Team) : List Team :=
  let e := t.cw * t.ch
  if e ≤ 1 || t.pool then [t]
  else s.teams.filter (fun (x : Team) => x.die == t.die && x.launch == t.launch && x.num / e == t.num / e && x.finished.isNone)

/-- A stopped team drains (08 R163): once its sequencer has, that is saved and its pins go (10 R205, R215); once all has,
the team is saved. -/
def State.drainTeam (s : State) (id : Nat) : State :=
  match s.team? id with
  | none => s
  | some t =>
    let s := if s.seqDrained t then (s.modTeam id (fun t => { t with seq := t.seq.map Sequencer.unpin })).releasePins else s
    let t := s.team id
    if s.teamDrained t then s.saveTeam t else s

/-- GROUP_PREEMPT (08 R163, 09 R185): the group's team stops and drains as a whole, with the other teams of its execution
cluster (15 R274, R283); once it has drained, it is saved. -/
def execGroupPreempt (s : State) : Result :=
  match s.group? s.ev.obj with
  | none => .next s
  | some g =>
    match s.team? g.team with
    | none => .next s
    | some t =>
      let whole := (s.clusterOf t).map (fun (x : Team) => x.id)
      let mine := (s.groups.filter (fun (x : Group) => whole.contains x.team)).map (fun (x : Group) => x.id)
      .next ((mine.foldl State.stopGroup s).drainTeam t.id)

/-! ### Restore (08 R165, 09 R185, R195, 10 R215) -/

/-- Whether a saved team passes the checks of a restore (08 R165, 09 R195, 10 R215); firmware reaches its images through their
capabilities (21 R367). -/
def State.savedOk (s : State) (v : Saved) (l : Launch) : Bool :=
  let x := l.need
  v.groups.all (fun g => capIs g.rest.imgCap 3 && g.rest.imageOk g.image x.n x.m) &&
  v.team.recordOk v.record portDepth (fun inst => Sparse.get 0 s.grants (256 + inst) == v.team.tenant + 1)

/-- A lane that is restored re-tests what it waits for (08 R165, 09 R174, R176). A lane whose trap firmware has not
handled yet stays as it is. -/
def Lane.restore (l : Lane) (stopped : Bool) : Lane :=
  if l.park == 2 || l.park == 3 || l.park == 4 || (l.park == 5 && !stopped) then { l with park := 0, aux := 0 } else l

/-- A group that is restored. Lanes at a mask that is zero go on (09 R174). Lanes at a `BAR.TREE` whose team's arrival was
sent, and whose tag has left the phase of that arrival, go on; the others at a barrier wait as before, their arrival, which
is idempotent, standing in the restored state (09 R185). -/
def Group.restore (g : Group) (core part gb wb res : Nat) (gone : Bool) (phase : Nat) : Group :=
  let g := { g with
    core := core
    part := part
    gBlock := gb
    wBlock := wb
    resident := res
    imgCap := noCap
    lanes := g.lanes.map (fun (l : Lane) => l.restore g.stopped) }
  let g := (List.range 16).foldl (fun (g : Group) (j : Nat) => if g.readJ j == 0 then g.release j else g) g
  if gone then g.proceed (fun l => match l.wait with
    | .tree _ _ => true
    | _ => false)
  else { g with lanes := g.lanes.map (fun (l : Lane) => match l.wait with
    | .tree n _ => { l with wait := .tree n phase }
    | _ => l) }

/-- Puts a saved team on a core (08 R165). -/
def State.restoreTeam (s : State) (v : Saved) (core : Nat) (sp : Spot) : State :=
  let t := v.team.ofRecord v.record
  let gone := match t.tag with
    | some n => t.treeSent && (s.tag? t.die n).any (fun x => x.phase != t.treePhase)
    | none => false
  let phase := ((t.tag.bind (s.tag? t.die)).map (·.phase)).getD 0
  let wake := fun (q : Sequencer) =>
    if q.st == .waiting && (t.bar q.waitBar).phase != q.waitPhase then { q with st := .running } else q
  let t := { t with
    core := core
    slot := sp.slot
    lsBase := sp.base
    seq := t.seq.map (fun q => { wake q with slot := sp.seq.getD 0 })
    copySeq := 0
    queues := t.queues.map (fun q => { q with taken := s.inPort t q })
    treeSent := t.treeSent && !gone
    treeSet := if gone then 0 else t.treeSet
    placed := s.ticks }
  let add := fun (s : State) (x : Group × Nat × Nat × Nat) =>
    let (res, s) := s.fresh
    { s with groups := s.groups ++ [x.1.restore core x.2.1 x.2.2.1 x.2.2.2 res gone phase] }
  let order := sortBy (fun (a b : Group) => a.num < b.num) (v.groups.map (·.group))
  (order.zip sp.at_).foldl add { s with
    teams := s.teams ++ [t]
    saved := s.saved.filter (fun (x : Saved) => x.team.id != t.id) }

/-- What a saved team needs of a core: its groups that have not ended, in the partitions of their images. -/
def Saved.need (v : Saved) (l : Launch) : Need :=
  let order := sortBy (fun (a b : SavedGroup) => a.rest.num < b.rest.num) v.groups
  { l.need with parts := some (order.map (fun (g : SavedGroup) => (g.image.getD 0x0F 0).toNat)) }

/-- The saved teams that are restored together with a team: those of its execution cluster (15 R274). -/
def State.savedUnit (s : State) (l : Launch) (v : Saved) : List Saved :=
  let e := l.clusterSize
  if e ≤ 1 then [v]
  else s.saved.filter (fun (x : Saved) =>
    x.team.die == l.die && x.team.launch == l.num && x.team.num / e == v.team.num / e)

/-- Whether a saved team can be restored: every team of its execution cluster that has not ended is saved (15 R274). -/
def State.unitSaved (s : State) (l : Launch) (v : Saved) : Bool := l.clusterSize ≤ 1 || (s.clusterOf v.team).isEmpty

/-- The saved team of a launch that is restored next: the first of a unit that is saved whole, else the first. -/
def State.firstSaved (s : State) (l : Launch) : Option Saved :=
  let mine := s.saved.filter (fun (x : Saved) => x.team.die == l.die && x.team.launch == l.num)
  (mine.find? (s.unitSaved l)).or mine.head?

/-- Whether a team of a launch is being pre-empted and not saved yet. -/
def State.drainsTeam (s : State) (l : Launch) : Bool :=
  s.teams.any (fun (t : Team) => t.die == l.die && t.launch == l.num && t.finished.isNone && s.preempting t.id)

/-- Whether a launch has a pre-empted unit, which is restored before any new one is placed or formed (15 R274, R278). -/
def State.hasPreempted (s : State) (l : Launch) : Bool := (s.firstSaved l).isSome || s.drainsTeam l

/-- Whether the next unit of a launch can be placed or restored: none of it is resident still. -/
def State.unitReady (s : State) (l : Launch) : Bool :=
  match s.firstSaved l with
  | some v => s.unitSaved l v
  | none => !s.drainsTeam l

/-- Restores a saved unit: none where it fits nowhere. A refused restore ends the grid (08 R165). -/
def State.restoreUnit (s : State) (l : Launch) (v : Saved) (closed : List Nat) : Option State :=
  let unit := s.savedUnit l v
  if !s.unitSaved l v then none
  else if unit.any (fun x => !s.savedOk x l) then some (s.abortLaunch l.die l.num 3)
  else
    match s.pickUnit l (unit.map (fun x => (x.team.cidx, x.need l))) closed with
    | none => none
    | some ps =>
      match s.coresAwake (ps.map (·.1)) with
      | (false, s) => some s
      | (true, s) => some ((unit.zip ps).foldl (fun s x => s.restoreTeam x.1 x.2.1 x.2.2) s)

/-- GROUP_RESTORE (08 R165): the unit of a saved team is restored where it fits. -/
def execGroupRestore (s : State) : Result :=
  match s.saved.find? (fun (x : Saved) => x.team.id == s.ev.obj) with
  | none => .next s
  | some v => match s.launch? v.team.die v.team.launch with
    | none => .next s
    | some l => .next ((s.restoreUnit l v []).getD s)

/-! ### The units of the distributor (15 R272 to R274, R282) -/

/-- Whether a launch has a unit for the distributor: a saved team, or one still to be placed. -/
def State.hasUnit (s : State) (l : Launch) : Bool :=
  l.status.isNone && l.after.isNone && l.stage == 0 &&
    ((s.firstSaved l).isSome || (!l.isPool && l.next < l.desc.count))

/-- The effective deadline of the next unit of a launch (15 R281): of a saved pool group, the least among its records. -/
def State.nextDeadline (s : State) (l : Launch) : Option Nat :=
  match s.firstSaved l with
  | some v => if v.team.pool && !s.exhausted l.die l.tenant then v.team.deadline else s.unitDeadline l
  | none => s.unitDeadline l

/-- The launches of a die that have a unit for the distributor, in the order of service (15 R282). -/
def State.unitOrder (s : State) (die : Nat) : List (Launch × Option Nat) :=
  let ls := s.launches.filter (fun (l : Launch) => l.die == die && s.hasUnit l)
  sortBy s.servedBefore (ls.map (fun l => (l, s.nextDeadline l)))

/-! ### The continuation pool (15 R276 to R278) -/

/-- Stores a record in a bin (15 Table 15-2); none where the bin cannot take it. -/
def Bin.store (b : Bin) (l : Nat) (r : Record) : Option Bin :=
  let p8 := r.flags.getLsbD 20
  match b with
  | .free => some (.bound false l r.code p8 [r])
  | .bound due n code p rs =>
    if n == l && code == r.code && p == p8 && rs.length < 64 then some (.bound (due || 32 ≤ rs.length + 1) n code p (rs ++ [r]))
    else none

/-- Whether a bin has the key of a record. -/
def Bin.keyed (b : Bin) (l : Nat) (r : Record) : Bool :=
  match b with
  | .free => false
  | .bound _ n code p _ => n == l && code == r.code && p == r.flags.getLsbD 20

/-- Whether the oldest record of a list has reached the age limit (15 R277). -/
def aged (now limit : Nat) (rs : List Record) : Bool :=
  match rs with
  | [] => false
  | r :: _ => r.time + limit ≤ now

/-- The age limit of a die's pool (15 Table 15-3). -/
def State.poolAge (s : State) (die : Nat) : Nat := field (s.poolage.getD die 0) 19 0

/-- POOL_BIN_AGE_DUE (15 Table 15-2). -/
def execPoolBinAgeDue (s : State) : Result :=
  let age := s.poolAge s.ev.obj
  let f := fun (b : Bin) => match b with
    | .bound due n code p rs => Bin.bound (due || aged s.time age rs) n code p rs
    | .free => .free
  .next { s with bins := modAt (fun l => modAt f l s.ev.sub) s.bins s.ev.obj }

/-- A bin after a group has taken its oldest records (15 Table 15-2). -/
def Bin.taken (b : Bin) (now age : Nat) : Bin :=
  match b with
  | .free => .free
  | .bound _ n code p rs =>
    let rest := rs.drop 32
    if rest.isEmpty then .free else .bound (32 ≤ rest.length || aged now age rest) n code p rest

/-- The least deadline among records. -/
def Launch.recordsDeadline (l : Launch) (rs : List Record) : Option Nat :=
  rs.foldl (fun m r => minDl m (l.recordDeadline r)) none

/-- A candidate of the pool: its bin's number, launch, code pointer, packet width, records and deadline. -/
structure BinCand where
  k    : Nat
  l    : Launch
  code : W64
  p8   : Bool
  recs : List Record
  dl   : Option Nat
  deriving DecidableEq, Repr

/-- A candidate of the pool as a unit with its effective deadline (15 R281). -/
def State.binUnit (s : State) (c : BinCand) : Launch × Option Nat := (c.l, if s.exhausted c.l.die c.l.tenant then none else c.dl)

/-- The `DUE` bins of a die whose launches may form groups, in the order in which they are served (15 R278, R282). -/
def State.dueBins (s : State) (die : Nat) : List BinCand :=
  let bins := s.bins.getD die []
  let cand := (List.range 64).filterMap (fun k => match bins.getD k .free with
    | .bound true n code p rs =>
      match s.launch? die n with
      | some l =>
        if l.status.isSome || l.after.isSome || s.hasPreempted l then none
        else some ({ k := k, l := l, code := code, p8 := p, recs := rs, dl := l.recordsDeadline (rs.take 64) } : BinCand)
      | none => none
    | _ => none)
  let oldest := fun (c : BinCand) => (c.recs.map (fun r => r.time)).headD 0
  let before := fun (a b : BinCand) =>
    if a.l.num == b.l.num then
      dlLt a.dl b.dl || (!dlLt b.dl a.dl && (oldest a < oldest b || (oldest a == oldest b && a.k < b.k)))
    else
      s.servedBefore (s.binUnit a) (s.binUnit b)
  sortBy before cand

/-! ### Serving the distributor's launches and the pool (15 R272 to R278, R282) -/

/-- The cores that are being freed for a launch at risk which is served before a unit, while it still has one to place: that
unit does not take them (15 R284; assumption log 90). -/
def State.closedTo (s : State) (x : Launch × Option Nat) : List Nat :=
  s.reserves.flatMap (fun r => match s.launch? r.die r.launch with
    | some l => if r.die == x.1.die && l.num != x.1.num && (s.hasUnit l || (s.dueBins l.die).any (fun c => c.l.num == l.num)) &&
        s.servedBefore (l, s.nextDeadline l) x then r.cores else []
    | none => [])

/-- A launch whose unit is placed has no cores kept for it any more. -/
def State.dropReserve (s : State) (l : Launch) : State :=
  { s with reserves := s.reserves.filter (fun (y : Reserve) => !(y.die == l.die && y.launch == l.num)) }

/-- Places or restores the next unit of a launch; none while a pre-empted one has not drained. -/
def State.serve (s : State) (x : Launch × Option Nat) : Option State :=
  match s.firstSaved x.1 with
  | some v => s.restoreUnit x.1 v (s.closedTo x)
  | none => if s.drainsTeam x.1 then none else s.placeNext x.1 (s.closedTo x)

/-- Whether the pool could form a group of a tenant that is not exhausted on a die. -/
def State.poolFits (s : State) (die : Nat) : Bool :=
  (s.dueBins die).any (fun c => !s.exhausted die c.l.tenant && (s.pickCore die c.l.need (s.closedTo (s.binUnit c))).isSome)

/-- Whether the distributor could place a unit of a tenant that is not exhausted on a die. -/
def State.unitFits (s : State) (die : Nat) : Bool :=
  (s.unitOrder die).any (fun x => !s.exhausted die x.1.tenant && (s.serve x).isSome)

/-- The first launch of a list whose next unit fits is served; one of an exhausted tenant only while no pool group of another
tenant fits (15 R282). -/
def State.serveFirst (s : State) : List (Launch × Option Nat) → State
  | [] => s
  | x :: r =>
    if s.exhausted x.1.die x.1.tenant && s.poolFits x.1.die then s
    else match s.serve x with
      | some s => s.dropReserve x.1
      | none => s.serveFirst r

/-- TEAM_PLACE (15 R272 to R274, R282): at most one unit of a die. -/
def execTeamPlace (s : State) : Result := .next (s.serveFirst (s.unitOrder s.ev.obj))

/-- Forms a group from a bin on a core (15 R278, 01 R17, R18). -/
def State.formGroup (s : State) (c : BinCand) (core : Nat) (sp : Spot) : State :=
  let (id, s) := s.fresh
  let (gid, s) := s.fresh
  let l := c.l
  let recs := c.recs.take 32
  let t : Team :=
    { id := id, core := core, num := 2 ^ 32 - 1, die := l.die, launch := l.num, tenant := l.tenant, size := 1, pool := true,
      slot := sp.slot, fmode := l.desc.fmode, lsBase := sp.base, lsBytes := l.desc.lsBytes, vwin := l.desc.vwin,
      deadline := l.recordsDeadline recs, placed := s.ticks }
  let x := sp.at_.headD (0, 0, 0)
  let g : Group :=
    { id := gid, core := core, part := x.1, team := id, num := 0, n := l.kernel.gregs, m := l.kernel.wregs, gBlock := x.2.1,
      wBlock := x.2.2, pkt8 := c.p8, jenf := rejoinOn l.desc l.kernel, pool := true, tenant := l.tenant,
      lanes := laneIds.map (fun i => { pc := c.code, ended := recs.length ≤ i }), k := l.kregs (2 ^ 32 - 1) 0,
      vwin := l.desc.vwin, resident := gid }
  let pair := fun (g : Group) (i r : Nat) (v : W64) => (g.writeG i r (v.setWidth 32)).writeG i (r + 1) ((v >>> 32).setWidth 32)
  let load := fun (g : Group) (y : Nat × Record) => pair (pair (pair g y.1 0 y.2.frame) y.1 2 y.2.join) y.1 4 y.2.flags
  let g := ((List.range recs.length).zip recs).foldl load g
  let age := s.poolAge l.die
  let s := { s with
    teams := s.teams ++ [t]
    groups := s.groups ++ [g]
    bins := modAt (fun bs => modAt (fun b => b.taken s.time age) bs c.k) s.bins l.die }
  s.modLaunch l.die l.num (fun l => l.begin_ s.time)

/-- The first of a list of bins whose launch's group fits a core forms it; a launch whose group did not fit is not
tried again. One of an exhausted tenant forms only while no unit of another tenant fits (15 R282). -/
def State.formFirst (s : State) : List BinCand → List Nat → State
  | [], _ => s
  | c :: r, no =>
    if no.contains c.l.num then s.formFirst r no
    else if s.exhausted c.l.die c.l.tenant && s.unitFits c.l.die then s
    else match s.pickCore c.l.die c.l.need (s.closedTo (s.binUnit c)) with
      | none => s.formFirst r (c.l.num :: no)
      | some (core, sp) => match s.coresAwake [core] with
        | (false, s) => s
        | (true, s) => (s.formGroup c core sp).dropReserve c.l

/-- Whether the pool group of a die that can be formed comes before the unit of its distributor that can be placed (15
R282). -/
def State.poolFirst (s : State) (die : Nat) : Bool :=
  let bins := (s.dueBins die).find? (fun c => (s.pickCore die c.l.need (s.closedTo (s.binUnit c))).isSome)
  let units := (s.unitOrder die).find? (fun x => (s.serve x).isSome)
  match bins, units with
  | some c, some u => s.servedBefore (s.binUnit c) u
  | _, _ => false

/-- POOL_GROUP_FORM (15 R278): at most one group of a die. -/
def execPoolGroupForm (s : State) : Result := .next (s.formFirst (s.dueBins s.ev.obj) [])

/-! ### Budgets (15 R280) -/

/-- Changes a tenant's budget on a die. -/
def State.modBudget (s : State) (die tenant : Nat) (f : Budget → Budget) : State :=
  { s with budgets := updWhere (fun (b : Budget) => b.die == die && b.tenant == tenant) f s.budgets }

/-- BUDGET_REFILL (15 R280). -/
def execBudgetRefill (s : State) : Result := .next (s.modBudget s.ev.obj s.ev.sub (fun b => { b with left := 8 * b.b }))

/-- BUDGET_EXHAUSTED (15 R280): nothing is left until the next refill. -/
def execBudgetExhausted (s : State) : Result := .next (s.modBudget s.ev.obj s.ev.sub (fun b => { b with left := 0 }))

/-! ### Deadlines (15 R283) -/

/-- The image bytes of a team (15 R284): its groups, its record with any sequencer, its local store. -/
def State.imageBytes (s : State) (t : Team) : Nat :=
  ((s.groups.filter (fun (g : Group) => g.team == t.id)).map (fun (g : Group) => 7680 + 128 * g.n + 1024 * g.m)).sum + 8704 +
    (if t.seq.isSome then 180736 else 0) + t.lsBytes

/-- The effective deadline of a resident team (15 R281). -/
def State.teamDeadline (s : State) (t : Team) : Option Nat :=
  match s.launch? t.die t.launch with
  | none => none
  | some l => if s.exhausted t.die t.tenant then none else if t.pool then t.deadline else l.dl

/-- Whether a resident team can be a victim of a launch (15 R283): its deadline is later, and it is not of the launch
nor of a cluster that is placed only in part, nor being pre-empted already. -/
def State.canVictim (s : State) (l : Launch) (t : Team) : Bool :=
  let e := t.cw * t.ch
  let part := e > 1 && !t.pool && s.saved.any (fun (v : Saved) =>
    v.team.die == t.die && v.team.launch == t.launch && v.team.num / e == t.num / e)
  t.launch != l.num && t.finished.isNone && !s.preempting t.id && dlLt (s.nextDeadline l) (s.teamDeadline t) && !part

/-- Victims of a core in the order in which they are taken: the latest deadline, then the most recent placement. -/
def State.victimsOn (s : State) (l : Launch) (core : Nat) : List Team :=
  sortBy (fun (a b : Team) => dlLt (s.teamDeadline b) (s.teamDeadline a) ||
    (!dlLt (s.teamDeadline a) (s.teamDeadline b) && b.placed < a.placed))
    (s.teams.filter (fun (t : Team) => t.core == core && s.canVictim l t))

/-- The fewest victims of the order that make a team fit a core, teams in `out` being freed already. -/
def State.freeFor (s : State) (core : Nat) (x : Need) (out : List Nat) : List Team → Option (List Team)
  | [] => if ((s.useOf core out).fit x).isSome then some [] else none
  | v :: r =>
    if ((s.useOf core out).fit x).isSome then some []
    else
      let whole := s.clusterOf v
      (s.freeFor core x (out ++ whole.map (·.id)) r).map (fun l => whole ++ l)

/-- The next unit of a launch: for each team its place in the rectangle and what it needs. -/
def State.unitNeeds (s : State) (l : Launch) : List (Nat × Need) :=
  match s.firstSaved l with
  | some v => (s.savedUnit l v).map (fun x => (x.team.cidx, x.need l))
  | none => (List.range l.clusterSize).map (fun i => (i, l.need))

/-- The cores on which freeing victims makes a launch's next unit fit, with the victims of the fewest image bytes (15
R283); those already being pre-empted count as freed. -/
def State.victimSet (s : State) (l : Launch) (closed : List Nat) : Option (List Nat × List Team) :=
  let going := ((s.groups.filter (fun (g : Group) => g.preempt)).map (fun (g : Group) => g.team)).eraseDups
  let xs := s.unitNeeds l
  let places := if l.clusterSize ≤ 1 then (List.range 96).map (fun c => [l.die * 96 + c])
    else rects l.die l.kernel.clw l.kernel.clh
  let cand := (places.filter (fun r => !r.any closed.contains)).filterMap (fun r =>
    let vs := xs.map (fun x =>
      let core := r.getD x.1 0
      s.freeFor core x.2 going (s.victimsOn l core))
    if vs.any (·.isNone) then none else some (r, (vs.flatMap (fun v => v.getD [])).eraseDups))
  let size := fun (x : List Nat × List Team) => (x.2.map s.imageBytes).sum
  let free := fun (r : List Nat) => leastFree (r.map (fun c => s.useOf c []))
  bestOf (fun a b => size a < size b || (size a == size b &&
    ((free b.1).1 < (free a.1).1 || ((free a.1).1 == (free b.1).1 && (free b.1).2 < (free a.1).2)))) cand

/-- Whether a launch is at risk (15 R283): its time, or that of its pair's other member, has come, and its next unit, none of
which is resident, fits no core. -/
def State.atRisk (s : State) (l : Launch) : Bool :=
  let late := fun (d : LaunchDesc) => d.opts.getLsbD 5 && d.deadline.toNat ≤ s.time + d.lead.toNat
  (late l.desc || l.splice.any (fun sp => late sp.cdesc)) &&
    (s.hasUnit l || (l.isPool && l.status.isNone && (s.dueBins l.die).any (fun c => c.l.num == l.num))) &&
    s.unitReady l && (s.pickUnit l (s.unitNeeds l) []).isNone

/-- A launch at risk has its victims pre-empted, and the cores that they leave are kept for it (15 R283, R284). -/
def State.rescue (s : State) (l : Launch) : State :=
  match s.victimSet l (s.closedTo (l, s.nextDeadline l)) with
  | none => s
  | some (cores, ts) =>
    let first := fun (t : Team) => (s.groups.find? (fun (g : Group) => g.team == t.id)).map (fun (g : Group) => g.id)
    let s := { s with
      reserves := s.reserves.filter (fun (x : Reserve) => !(x.die == l.die && x.launch == l.num)) ++
        [({ die := l.die, launch := l.num, cores := cores } : Reserve)]
      groups := updWhere (fun (g : Group) => ts.any (fun t => t.id == g.team)) (fun (g : Group) => { g with preempt := true }) s.groups }
    s.push ((ts.filterMap first).map (fun id => evWork .groupPreempt id))

/-- AT_RISK_TEST (15 R283): every launch at risk of a die, in the order of service, has its victims pre-empted. -/
def execAtRiskTest (s : State) : Result :=
  let ls := s.launches.filter (fun (l : Launch) => l.die == s.ev.obj && s.atRisk l)
  let order := sortBy s.servedBefore (ls.map (fun l => (l, s.nextDeadline l)))
  let keep := fun (x : Reserve) => x.die != s.ev.obj || ls.any (fun l => l.num == x.launch)
  .next (order.foldl (fun s x => s.rescue x.1) { s with reserves := s.reserves.filter keep })

/-! ### Stall hints (15 R289) -/

/-- A group's requests that are outstanding, each with the tick at which it was made and the module that it targets: loads
and atomics that have not returned, and writes that are not performed (15 R289, assumption log 18). -/
def State.requests (s : State) (g : Group) : List (Nat × Nat) :=
  g.lanes.flatMap (fun (l : Lane) => (l.asks.filter (fun a => s.ticks < a.2.1)).map (fun a => (a.1, a.2.2))) ++
  s.homes.flatMap (fun (h : Home) => (h.queue.filter (fun w => w.gid == some g.id || w.also.contains g.id)).map (fun w =>
    (w.sent, moduleOf (h.line * 128)))) ++
  (s.vheld.filter (fun h => h.gid == some g.id)).map (fun h => (h.sent, s.module))

/-- The module that a group's oldest outstanding request targets. -/
def State.oldestTarget (s : State) (g : Group) : Option Nat :=
  match s.requests g with
  | [] => none
  | x :: r => some (r.foldl (fun a b => if b.1 < a.1 then b else a) x).2

/-- The time until which a hint holds a group out of issue (15 R289), 0 for none. -/
def State.hintOf (s : State) (g : Group) : Nat :=
  match s.oldestTarget g with
  | none => 0
  | some m => maxOf ((s.hints.filter (fun h => h.die == dieOfCore g.core && h.peer == m && s.time < h.t)).map (·.t))

/-- The hints hold each group whose oldest outstanding request targets their peer, and no other, in every cycle until their
ends (15 R289). -/
def State.applyHints (s : State) : State :=
  if s.hints.isEmpty then s
  else
    let s := { s with groups := s.groups.map (fun (g : Group) => { g with hint := s.hintOf g }) }
    { s with hints := s.hints.filter (fun h => s.time < h.t) }

/-- STALL_HINT (15 R289): until the hinted end, a group whose oldest outstanding request targets the peer is out of
issue; a later hint for the peer moves the end to the later of the two. -/
def execStallHint (s : State) : Result :=
  let die := s.ev.obj
  let peer := s.ev.sub
  if s.ev.aux == 0 || 10000 < s.ev.aux then .next s
  else
    let same : Hint → Bool := fun h => h.die == die && h.peer == peer
    let old := ((s.hints.find? same).map (fun h => h.t)).getD 0
    let t := max old (s.time + s.ev.aux)
    let x : Hint := { die := die, peer := peer, t := t }
    .next { s with hints := s.hints.filter (fun h => !same h) ++ [x] }.applyHints

/-- STALL_HINT_END (15 R289): the group returns once the hinted end has passed or the request has completed. -/
def execStallHintEnd (s : State) : Result := .next (s.modGroup s.ev.obj (fun g => { g with hint := s.hintOf g }))

end Sys2Proof.Machine
end

