-- ==== Sys2Proof/Machine/Frames.lean ====
section
/-! DEFINITION. Frames of memory that firmware chooses, pages that it maps, and what the front ends and firmware read
at a tenant's addresses (21 R376, 16 R301, 18 R348). -/

namespace Sys2Proof.Machine

open Sys2Proof

/-- Whether two ranges have a byte in common. -/
def meets (a n b m : Nat) : Bool := a < b + m && b < a + n

/-- A frame of `size` bytes in a range of physical memory that no page uses and no retired row lies in: the free
choice of firmware (assumption log 3), and where that is taken the end of a page. -/
def State.freeFrame (s : State) (lo hi size : Nat) : Option Nat × State :=
  let base := s.module * 2 ^ 51
  let (d, s) := s.drawNat
  let up := fun (a : Nat) => (a + size - 1) / size * size
  let cand := (lo + d % ((hi - lo) / size) * size) :: lo :: s.pages.map (fun (p : Page) => up (p.pa + p.size - base))
  let free := fun (a : Nat) => lo ≤ a && a + size ≤ hi &&
    s.pages.all (fun (p : Page) => !meets (base + a) size p.pa p.size) &&
    s.retired.all (fun f => !meets (base + a) size f 16384)
  ((cand.find? free).map (fun a => base + a), s)

/-- The top of the module's HBM and of its LPDDR6 (18 Table 18-1). -/
def hbmEnd : Nat := 2 ^ 39
/-- The end of the module's memory (18 Table 18-1). -/
def memEnd : Nat := 0x18000000000

/-- A run of virtual addresses of a tenant that no page and no demand-mapped region has: the free choice of firmware
(assumption log 3). -/
def State.freeVa (s : State) (tenant size : Nat) : Nat × State :=
  let (d, s) := s.drawNat
  let mine := s.pages.filter (fun (p : Page) => p.tenant == tenant)
  let wants := s.demand.filter (fun (r : Region) => r.tenant == tenant)
  let up := fun (a : Nat) => (a + 16383) / 16384 * 16384
  let cand := ((1 + d % (2 ^ 40 - 1)) * 16384) :: 16384 :: mine.map (fun (p : Page) => up (p.va + p.size)) ++
    wants.map (fun (r : Region) => up (r.base + r.len))
  let free := fun (a : Nat) => a + size ≤ 2 ^ 56 && mine.all (fun (p : Page) => !meets a size p.va p.size) &&
    wants.all (fun (r : Region) => !meets a size r.base r.len)
  ((cand.find? free).getD 0, s)

/-- Resolves a page fault in a demand-mapped region by mapping a 16 KiB frame (21 R376): whether it did. The page is
readable, and writable where the region is, and the frame keeps the bytes that stand in memory (assumption log 19). -/
def State.mapDemand (s : State) (tenant a : Nat) : Bool × State :=
  match s.demand.find? (fun (r : Region) => r.tenant == tenant && r.base ≤ a && a < r.base + r.len) with
  | none => (false, s)
  | some r =>
    let (f, s) := s.freeFrame 0 memEnd 16384
    match f with
    | none => (false, s)
    | some f =>
      let p : Page := { tenant := tenant, va := a / 16384 * 16384, pa := f, w := r.write }
      (true, { s with pages := s.pages ++ [p] })

/-- Maps the demand pages of a range that is not mapped. -/
def State.demandRange (s : State) (tenant a n : Nat) : State :=
  let starts := (List.range (n / 16384 + 2)).map (fun i => max a (a / 16384 * 16384 + 16384 * i))
  (starts.filter (fun x => x < a + n)).foldl (fun s x =>
    if (s.page? tenant x).isNone then (s.mapDemand tenant x).2 else s) s

/-- The bytes of physical pieces as their homes stand (17 R317), loads of an engine (07 R142). Bytes of another module are
free values (assumption log 6). -/
def State.readPieces (s : State) (ps : List (Nat × Nat)) : List Byte × State :=
  let get := fun (x : List Byte × State) (p : Nat × Nat) =>
    if x.2.isRemote p.1 then
      let (bs, s) := x.2.drawBytes p.2
      (x.1 ++ bs, s)
    else (x.1 ++ x.2.homeBytes p.1 p.2, x.2.engineLoads p.1 p.2)
  ps.foldl get ([], s)

/-- What a front end or firmware reads at a tenant's address, firmware having handled the faults (15 R271): none where
a byte cannot be read. -/
def State.tenantRead (s : State) (tenant a n : Nat) : Option (List Byte) × State :=
  let s := s.demandRange tenant a n
  match s.pieces tenant .read (n / 16384 + 2) a n with
  | .error _ => (none, s)
  | .ok ps =>
    let (bs, s) := s.readPieces ps
    (some bs, s)

/-- The words of a kernel's text as Conjunction reads it (16 R301): none where it cannot be fetched. -/
def State.textRead (s : State) (tenant a n : Nat) : Option (List W32) × State :=
  match s.pieces tenant .exec (n / 16384 + 2) a n with
  | .error _ => (none, s)
  | .ok ps =>
    let (bs, s) := s.readPieces ps
    (some (wordsOf bs), s)

/-! ### Wawafer objects (02 R47, R48) -/

/-- A field of an object's file. -/
def Wawafer.at_ (x : Wawafer) (off n : Nat) : Nat := leVal ((x.file.drop off).take n)

/-- Whether a loader accepts an object: its magic and version match and its reserved fields are zero (02 R47). -/
def Wawafer.ok (x : Wawafer) : Bool :=
  x.at_ 0 4 == 0x00465757 && x.at_ 4 2 == 1 && x.at_ 6 2 == 0 && x.at_ 0x38 8 == 0

/-- The text offsets that a kernel of an object declares with `.pool` (02 Table 2-10); the entries run from the pool table's
offset to the tile table's (assumption log 69). -/
def Wawafer.pool (x : Wawafer) (kernel : Nat) : List Nat :=
  ((List.range ((x.at_ 0x28 8 - x.at_ 0x20 8) / 16)).map (fun i => x.at_ 0x20 8 + 16 * i)).filterMap (fun o =>
    if x.at_ (o + 8) 4 == kernel then some (x.at_ o 8) else none)

/-- The string at an offset of an object's string table. -/
def Wawafer.string (x : Wawafer) (off : Nat) : List Byte := (x.file.drop (x.at_ 0x30 8 + off)).takeWhile (· != 0)

/-- A tile mark of an object (02 R48). -/
def Wawafer.mark (x : Wawafer) (n : Nat) : TileMark :=
  let o := x.at_ 0x28 8 + 32 * n
  { off := x.at_ o 8, handle := x.string (x.at_ (o + 8) 4), rows := x.at_ (o + 12) 2, cols := x.at_ (o + 14) 2,
    stride := w64 (x.at_ (o + 16) 8), base := w64 (x.at_ (o + 24) 8) }

/-- The tile marks of a kernel of an object, which its descriptor counts from its first (02 Table 2-11). -/
def Wawafer.marks (x : Wawafer) (k : Kernel) : List TileMark :=
  (List.range k.tiles).map (fun i => x.mark (k.firstTile.toNat + i))

/-- The loaded object of a tenant in whose kernel table a kernel descriptor lies, with the kernel's index. -/
def State.object? (s : State) (tenant kdesc : Nat) : Option (Wawafer × Nat) :=
  (s.tables.find? (fun (x : Wawafer) => x.tenant == tenant && x.ok && x.kdesc ≤ kdesc && kdesc < x.kdesc + 64 * x.at_ 0x0C 4)).map
    (fun x => (x, (kdesc - x.kdesc) / 64))

end Sys2Proof.Machine
end

