-- ==== Sys2Proof/Machine/Launching.lean ====
section
/-! DEFINITION. Taking and completing launches (15 R270, R271, R285, R286, 16 R304). -/

namespace Sys2Proof.Machine

open Sys2Proof

/-! ### Descriptors (15 Table 15-1, 02 Table 2-11) -/

/-- A little-endian field of a list of bytes. -/
def fieldAt (bs : List Byte) (off n : Nat) : Nat := leVal ((bs.drop off).take n)

/-- A launch descriptor from its 128 bytes (15 Table 15-1). -/
def LaunchDesc.ofBytes (bs : List Byte) : LaunchDesc :=
  let q := fun o => w64 (fieldAt bs o 8)
  { code := q 0x00, kdesc := q 0x08, args := q 0x10, count := fieldAt bs 0x18 4, kind := fieldAt bs 0x1C 1,
    die := fieldAt bs 0x1D 1, opts := BitVec.ofNat 8 (fieldAt bs 0x1E 1), fmode := q 0x20, lsBytes := fieldAt bs 0x28 4,
    prio := fieldAt bs 0x2C 2, deadline := q 0x30, lead := q 0x38, vwin := [q 0x40, q 0x48, q 0x50, q 0x58],
    compl := q 0x60, signal := q 0x68, initrec := q 0x70, ringLog2 := fieldAt bs 0x78 4,
    zeros := fieldAt bs 0x1F 1 == 0 && fieldAt bs 0x2E 2 == 0 && fieldAt bs 0x7C 4 == 0 }

/-- A kernel descriptor from its 64 bytes (02 Table 2-11). -/
def Kernel.ofBytes (bs : List Byte) : Kernel :=
  let q := fun o => w64 (fieldAt bs o 8)
  { gregs := fieldAt bs 0x04 2, wregs := fieldAt bs 0x06 1, groups := fieldAt bs 0x07 1, clw := fieldAt bs 0x08 1,
    clh := fieldAt bs 0x09 1, flags := BitVec.ofNat 8 (fieldAt bs 0x0A 1), tiles := fieldAt bs 0x0C 4, entry := q 0x10,
    size := q 0x18, spliceBegin := q 0x20, spliceEnd := q 0x28, firstTile := q 0x30,
    zeros := fieldAt bs 0x0B 1 == 0 && fieldAt bs 0x38 8 == 0 }

/-- Whether a vault window has the form of 13 Table 13-2 and lies in the vault space (13 R245). -/
def windowOk (w : W64) : Bool :=
  field w 63 45 == 0 && field w 31 29 == 0 && field w 15 1 == 0 && field w 28 16 + field w 44 32 ≤ 8192

/-- Whether every block of a window is assigned to a tenant and none has a lasting fault (13 R246, R263). -/
def State.windowMine (s : State) (die tenant : Nat) (w : W64) : Bool :=
  (List.range (field w 44 32)).all (fun i =>
    let b := die * 8192 + field w 28 16 + i
    Sparse.get 0 s.blocks b == tenant + 1 && !s.badBlocks.contains b)

/-- Whether a launch descriptor keeps the limits of 15 Table 15-1 that do not need its kernel. -/
def LaunchDesc.ok (d : LaunchDesc) : Bool :=
  d.zeros && d.kdesc.toNat % 64 == 0 && d.kind ≤ 1 && d.die ≤ 1 && field (d.opts.setWidth 64) 7 6 == 0 &&
  (d.fmode &&& ~~~0xF#64) == 0 && d.lsBytes ≤ 262144 && d.prio ≤ 15 &&
  (d.opts.getLsbD 5 || (d.deadline == 0 && d.lead == 0)) && d.vwin.all windowOk && d.compl.toNat % 64 == 0 &&
  d.signal.toNat % 8 == 0 &&
  (if d.kind == 0 then 1 ≤ d.count && d.initrec == 0 && d.ringLog2 == 0
   else d.count ≤ 2 ^ 20 && d.initrec.toNat % 32 == 0 && 10 ≤ d.ringLog2 && d.ringLog2 ≤ 20 && d.count ≤ 2 ^ d.ringLog2)

/-- Whether a kernel descriptor keeps the limits of 02 Table 2-11. -/
def Kernel.ok (k : Kernel) : Bool :=
  k.zeros && 16 ≤ k.gregs && k.gregs ≤ 256 && k.gregs % 16 == 0 && k.wregs ≤ 32 && k.wregs % 4 == 0 &&
  1 ≤ k.groups && k.groups ≤ 32 && 1 ≤ k.clw && k.clw ≤ 4 && 1 ≤ k.clh && k.clh ≤ 3 &&
  field (k.flags.setWidth 64) 7 4 == 0 && (k.flags.getLsbD 3 || (k.spliceBegin == 0 && k.spliceEnd == 0))

/-- Whether a descriptor and its kernel agree (15 Table 15-1, R271). -/
def LaunchDesc.fits (d : LaunchDesc) (k : Kernel) : Bool :=
  if d.kind == 0 then d.count % (k.clw * k.clh) == 0
  else k.groups == 1 && k.clw * k.clh == 1 && !k.flags.getLsbD 0

/-- The initial records of a pool launch (15 Table 15-1, 09 R178). -/
def recordsOf (bs : List Byte) (now n : Nat) : List Record :=
  (List.range n).map (fun i =>
    let q := fun o => w64 (fieldAt bs (32 * i + o) 8)
    { code := q 0, frame := q 8, join := q 16, flags := q 24, time := now })

/-! ### Taking a launch (15 R270, R271) -/

/-- The checks of 15 R271 on a descriptor: the kernel, where its descriptor can be read, the initial records, and the status
of a refusal. -/
def State.checkLaunch (s : State) (tenant : Nat) (d : LaunchDesc) : (Option Kernel × List Record × Option Nat) × State :=
  let (kb, s) := s.tenantRead tenant d.kdesc.toNat 64
  match kb with
  | none => ((none, [], some 5), s)
  | some kb =>
    let k := Kernel.ofBytes kb
    if !d.ok || !k.ok || !d.fits k || !d.vwin.all (s.windowMine d.die tenant) then ((some k, [], some 5), s)
    else
      let (rb, s) := if d.kind == 0 then (some [], s) else s.tenantRead tenant d.initrec.toNat (32 * d.count)
      match rb with
      | none => ((some k, [], some 5), s)
      | some rb =>
        let recs := if d.kind == 0 then [] else recordsOf rb s.time d.count
        let l : Launch := { die := d.die, num := 0, desc := d, kernel := k }
        ((some k, recs, if l.need.fitsEmpty then none else some 4), s)

/-- The die whose front end takes a descriptor (15 R270). -/
def LaunchDesc.home (d : LaunchDesc) : Nat := if d.die ≤ 1 then d.die else 0

/-- The next launch number of a die. -/
def State.launchNumber (s : State) (die : Nat) : Nat × State :=
  let n := s.nextLaunch.getD die 1
  (n, { s with nextLaunch := setAt s.nextLaunch die (n + 1) })

/-- Adds a launch that a front end has taken; its number goes to the queue that submitted it. -/
def State.addLaunch (s : State) (l : Launch) (queue : Nat) : State :=
  let s := { s with launches := s.launches ++ [l] }
  if queue == 0 then s
  else
    let mine := fun (q : HostQueue) => q.num + 1 == queue
    { s with queues := updWhere mine (fun q => { q with launches := q.launches ++ [(l.die, l.num)] }) s.queues }

/-- The ring of a pool launch is allocated in its tenant's memory, and its initial records enter it (15 R276). Where it
lies is the free choice of firmware (assumption log 3); lanes can read it and not write it (assumption log 91). With no frame free
the launch has no ring memory, the model's choice (assumption log 111). -/
def State.openRing (s : State) (l : Launch) (recs : List Record) : State :=
  if !l.isPool then s
  else
    let size := 32 * 2 ^ l.desc.ringLog2
    let n := (size + 16383) / 16384
    let (va, s) := s.freeVa l.tenant (16384 * n)
    let (f, s) := s.freeFrame 0 memEnd (16384 * n)
    let s := match f with
      | none => s
      | some f =>
        let pages : List Page := (List.range n).map (fun i =>
          { tenant := l.tenant, va := va + 16384 * i, pa := f + 16384 * i, w := false })
        ({ s with pages := s.pages ++ pages }).modLaunch l.die l.num (fun l => { l with ringVa := va, ringPa := some f })
    recs.foldl (fun s r => s.pushRecord l.die l.num { r with time := s.time }) s

/-- Takes a descriptor: the launch's number on its die. -/
def State.takeLaunch (s : State) (tenant queue : Nat) (bs : List Byte) : (Nat × Nat) × State :=
  let d := LaunchDesc.ofBytes bs
  let ((k, recs, st), s) := s.checkLaunch tenant d
  let (n, s) := s.launchNumber d.home
  let l : Launch :=
    { die := d.home, num := n, tenant := tenant, desc := d, kernel := k.getD {}, status := st, statusAt := s.ticks }
  let s := s.addLaunch l queue
  ((d.home, n), if st.isNone then s.openRing l recs else s)

/-- LAUNCH_TAKE (15 R270, R271): of a descriptor in memory, or of the develop launch whose bytes the sensor back end
has made (20 R363). A descriptor that cannot be read is not taken. -/
def execLaunchTake (s : State) : Result :=
  let ev := s.ev
  if !ev.bytes.isEmpty then
    let (x, s) := s.takeLaunch ev.sub 0 ev.bytes
    match ev.nats with
    | [cam, frame] => .next (s.modCamera cam (fun c => { c with develop := c.develop ++ [(frame, x.1, x.2)] }))
    | _ => .next s
  else if ev.val.toNat % 64 != 0 then .next s
  else
    let (bs, s) := s.tenantRead ev.sub ev.val.toNat 128
    match bs with
    | none => .next s
    | some bs => .next (s.takeLaunch ev.sub ev.aux bs).2

/-! ### The head of a pool ring (15 R276, R277) -/

/-- The text offsets of the entry points that a launch's kernel declares with `.pool` (02 Table 2-10). -/
def State.poolEntries (s : State) (l : Launch) : List Nat :=
  match s.object? l.tenant l.desc.kdesc.toNat with
  | some (x, k) => x.pool k
  | none => []

/-- POOL_RECORD_BIN (15 R276, R277): the record at the head of a ring goes to a bin, stays, or is dropped. -/
def execPoolRecordBin (s : State) : Result :=
  let die := s.ev.obj
  match s.launch? die s.ev.sub with
  | none => .next s
  | some l =>
    match l.ring with
    | [] => .next s
    | r :: rest =>
      let drop := fun (s : State) => s.modLaunch die l.num (fun l => { l with ring := rest })
      if !(s.poolEntries l).any (fun o => l.desc.code + w64 o == r.code) then
        .next (((drop s).modLaunch die l.num (fun l => l.countFault 0)).abortLaunch die l.num 8)
      else
        let bins := s.bins.getD die []
        let here := fun (k : Nat) => (bins.getD k .free).keyed l.num r
        let k := match (List.range 64).find? here with
          | some k => some k
          | none => (List.range 64).find? (fun k => bins.getD k .free == Bin.free)
        match k.bind (fun k => ((bins.getD k .free).store l.num r).map (fun b => (k, b))) with
        | none => .next s
        | some (k, b) => .next (drop { s with bins := modAt (fun l => setAt l k b) s.bins die })

/-! ### The end of a launch (15 R279, R285, R286) -/

/-- Whether a launch has no unit left to run (15 R279, R285). -/
def State.launchIdle (s : State) (l : Launch) : Bool :=
  let mine := fun (t : Team) => t.die == l.die && t.launch == l.num
  !s.teams.any mine && !s.saved.any (fun (v : Saved) => mine v.team) &&
  (l.status.isSome ||
    (if l.isPool then
      l.ring.isEmpty && !(s.bins.getD l.die []).any (fun b => match b with
        | .bound _ n _ _ _ => n == l.num
        | .free => false)
    else l.desc.count ≤ l.next))

/-- Whether every store of a launch has been performed and the device time has passed its completion time (15 R285, 17
R316); its engines' work is done when its teams are released. -/
def State.launchQuiet (s : State) (l : Launch) : Bool :=
  l.left.all (fun g => !s.unperformed g && !s.splats.any (fun (x : Splat) => x.gid == some g)) && l.leftT ≤ s.time

/-- The `SPLICE` field of a completion record (15 Table 15-4). -/
def Launch.spliceField (l : Launch) : Nat :=
  if l.splice.isSome || l.spliced then 1 else if l.refused != 0 then 2 + 256 * l.refused else 0

/-- A completion record (15 Table 15-4). -/
def Launch.record (l : Launch) : List Byte :=
  leOf 2 (l.status.getD 0) ++ leOf 2 l.spliceField ++ leOf 4 l.faults ++ leOf 8 l.start ++ leOf 8 l.endT ++
    bytes64 (l.desc.code + l.kernel.entry) ++ leOf 8 l.num ++ bytes64 l.fpc ++ leOf 8 l.iter ++ leOf 4 l.teams ++
    leOf 2 l.tenant ++ leOf 2 0x4352

/-- What marks the writes of a launch's completion record (`HWrite.origin`). -/
def Launch.mark (l : Launch) : Nat := 2 ^ 42 + 2 * l.num + l.die

/-- Writes a launch's completion record, or offers the fault of its write to firmware. -/
def State.writeCompletion (s : State) (l : Launch) : State :=
  match s.tenantWrite l.tenant l.desc.compl.toNat l.record l.mark with
  | (some t, s) => s.modLaunch l.die l.num (fun l => { l with stage := 3, recT := t })
  | (none, s) => (s.modLaunch l.die l.num (fun l => { l with stage := 2 })).enqueueFault l.die (.record l.num false)

/-- Raises a launch's signal (21 R373): an `.I64` atomic add of −1 at the word's home, or offers its fault to
firmware. -/
def State.raiseSignal (s : State) (l : Launch) : State :=
  let set := fun (s : State) (n : Nat) => s.modLaunch l.die l.num (fun l => { l with stage := n })
  if l.desc.signal == 0 || l.desc.signal.toNat % 8 != 0 then set s 5
  else match s.translate l.tenant l.desc.signal.toNat .write with
    | .error _ => (set s 4).enqueueFault l.die (.record l.num true)
    | .ok pa => set (s.writeAtHome (pa / 128) { op := .atom pa 0 2 (w64 (2 ^ 64 - 1)) }) 5

/-- The consumer of a spliced pair ends with its producer (16 R304). -/
def State.endConsumer (s : State) (l : Launch) : State :=
  match l.splice with
  | none => s
  | some sp => s.modLaunch l.die sp.consumer (fun c =>
      { c with status := if sp.cstatus == 0 then none else some sp.cstatus, faults := sp.cfaults, start := l.start,
               endT := l.endT, fpc := sp.cfpc, iter := sp.citer, teams := l.teams, ended := true, stage := 1 })

/-- Firmware releases the pages of a spliced text (16 R301), and those of a pool ring. -/
def State.releaseText (s : State) (l : Launch) : State :=
  let gone := fun (va n : Nat) => (List.range n).map (fun i => (l.tenant, va + 16384 * i))
  let text := match l.splice with
    | none => []
    | some sp => gone sp.text sp.pages
  let ring := if l.ringPa.isSome then gone l.ringVa ((32 * 2 ^ l.desc.ringLog2 + 16383) / 16384) else []
  { s with invals := s.invals ++ text ++ ring }

/-- Whether a launch that follows a producer still waits for it (16 R294, R304). -/
def State.awaitsProducer (s : State) (l : Launch) : Bool :=
  match l.after with
  | none => false
  | some (die, n) => s.launches.any (fun (p : Launch) => p.die == die && p.num == n && p.stage != 5)

/-- One part of a launch's completion (15 R285): its end, its record, and once the record is performed its signal.
The consumer of a spliced pair follows its producer. -/
def State.completeLaunch (s : State) (l : Launch) : State :=
  if l.after.isSome && !l.spliced && l.status.isNone then s
  else if s.awaitsProducer l && l.status.isNone then s
  else if l.spliced && s.awaitsProducer l then s
  else match l.stage with
    | 0 =>
      if l.spliced || !s.launchIdle l || !s.launchQuiet l then s
      else
        let s := s.modLaunch l.die l.num (fun l => { l with ended := true, stage := 1, endT := s.time })
        let l := (s.launch? l.die l.num).getD l
        ((s.endConsumer l).releaseText l).writeCompletion l
    | 1 => s.writeCompletion l
    | 3 => if s.time ≤ l.recT || s.originQueued l.mark then s else s.raiseSignal l
    | _ => s

/-- LAUNCH_COMPLETE (15 R285, R286, 16 R304). -/
def execLaunchComplete (s : State) : Result :=
  match s.launch? s.ev.obj s.ev.sub with
  | none => .next s
  | some l => .next (s.completeLaunch l)

/-- The consumer of a refused pair is taken: one that is a pool launch reads its initial records now; where it cannot, it
is refused with `BAD_DESC` (15 R271). -/
def State.takeDeferred (s : State) (l : Launch) : State :=
  let s := s.modLaunch l.die l.num (fun l => { l with after := none })
  if !l.isPool || l.status.isSome then s
  else match s.tenantRead l.tenant l.desc.initrec.toNat (32 * l.desc.count) with
    | (none, s) => s.modLaunch l.die l.num (fun l => { l with status := some 5, statusAt := s.ticks })
    | (some bs, s) => s.openRing l (recordsOf bs s.time l.desc.count)

/-- CONSUMER_DEFERRED_TAKE (16 R294): the consumer of a refused pair runs once its producer's record is written and
its signal raised. -/
def execConsumerDeferredTake (s : State) : Result :=
  match s.launch? s.ev.obj s.ev.sub with
  | none => .next s
  | some l => .next (if l.after.isNone || l.spliced || s.awaitsProducer l then s else s.takeDeferred l)

end Sys2Proof.Machine
end

