-- ==== Sys2Proof/Machine/Conjunction.lean ====
section
/-! DEFINITION. Conjunction (16): taking a pair, the form of a spliceable kernel, matching, the refusal codes,
renumbering and the building of the spliced text. -/

namespace Sys2Proof.Machine

open Sys2Proof

/-! ### A kernel's text -/

/-- An instruction of a kernel's text at its text offset. -/
structure TextItem where
  off  : Nat
  i    : Instr
  size : Nat
  deriving DecidableEq, Repr

/-- A word as part of a lane instruction that passes steps 2 to 6 of 02 Table 2-8 (16 R291 item 6); a pair that fails
step 7 is one. -/
def textInstr (ws : List W32) : Option Instr :=
  match decodeWords ws with
  | .ok i => some i
  | .illegalPair _ =>
    let w := ws.getD 1 0 ++ ws.getD 0 0
    match COp.ofCode (w.extractLsb' 3 7).toNat, COp.ofCode (w.extractLsb' 33 7).toNat with
    | some c0, some c1 => some (.p64Pair (w.getLsbD 2) (Half.ofBits0 c0 w) (Half.ofBits1 c1 w))
    | _, _ => none
  | _ => none

/-- The instructions of a kernel's words; none where a word is part of none. -/
def parseText : Nat → Nat → List W32 → Option (List TextItem)
  | 0, _, ws => if ws.isEmpty then some [] else none
  | fuel + 1, off, ws =>
    match ws with
    | [] => some []
    | w :: _ =>
      let n := formWords w
      match textInstr (ws.take n) with
      | none => none
      | some i => (parseText fuel (off + 4 * n) (ws.drop n)).map (fun r => { off := off, i := i, size := 4 * n } :: r)

/-- The operations of an instruction with their F64 fields: two for a pair. -/
def Instr.fulls (i : Instr) : List (Op × Full) :=
  match i.full? with
  | some x => [x]
  | none => match i.comp? with
    | some (c, x) => [(c.op, x.expand)]
    | none => match i with
      | .p64Pair as h0 h1 => [(h0.op.op, h0.expand as), (h1.op.op, h1.expand as)]
      | _ => []

/-- Every register that an instruction names, its guard among them (16 R293). -/
def Instr.names (i : Instr) : List Reg :=
  (Instr.fulls i).flatMap (fun x => x.2.reads x.1 ++ (x.1.shape x.2).dst.regs (!(x.1.shape x.2).nform && x.2.xd) x.2.dst.toNat)

/-- Whether some operation of an instruction passes a test. -/
def Instr.isAny (i : Instr) (p : Op → Bool) : Bool := (Instr.fulls i).any (fun x => p x.1)

/-- The target of a `BRA` at a text offset; none for another instruction, or a target before text byte 0. -/
def TextItem.target (x : TextItem) : Option Nat :=
  match x.i.full? with
  | some (.bra, f) =>
    let t : Int := (branchTarget f (w64 x.off)).toInt
    if t < 0 then none else some t.toNat
  | _ => none

/-- Whether an instruction is a `BRA`. -/
def TextItem.isBra (x : TextItem) : Bool := Instr.isAny x.i (· == .bra)

/-- Whether an instruction has no guard. -/
def TextItem.unguarded (x : TextItem) : Bool := (Instr.fulls x.i).all (fun y => y.2.gp == 0 && !y.2.gn)

/-! ### The spliceable form (16 R291) -/

/-- Operations that may not stand in a body (16 R291 item 3). -/
def bodyBarred (op : Op) : Bool :=
  [Op.brx, .call, .ret, .exit, .spawn, .cont, .join, .jenr, .jarr, .jstr, .jclr, .barTeam, .barNum, .barTree, .mbar,
   .bobjInit, .bobjExpect, .bobjWait, .tcopy, .tcopy2d, .txbegin, .txcommit, .txabort, .txstat, .fwcall, .wrsr, .qbind,
   .qflush].contains op

/-- Operations that may stand nowhere in a kernel but for its last `EXIT` (16 R291 item 4). -/
def kernelBarred (op : Op) : Bool := [Op.exit, .brx, .call, .ret, .spawn, .cont, .join].contains op

/-- The three parts of a kernel: prologue, body, epilogue. -/
structure Parts where
  pro  : List TextItem
  body : List TextItem
  epi  : List TextItem
  deriving DecidableEq, Repr

/-- A kernel's text in parts, where it has the spliceable form (16 R291). -/
def kernelParts (k : Kernel) (producer : Bool) (ws : List W32) : Option Parts :=
  let entry := k.entry.toNat
  let stop := entry + k.size.toNat
  let b := k.spliceBegin.toNat
  let e := k.spliceEnd.toNat
  match parseText ws.length entry ws with
  | none => none
  | some items =>
    let pro := items.filter (fun x => x.off < b)
    let body := items.filter (fun x => b ≤ x.off && x.off < e)
    let epi := items.filter (fun x => e ≤ x.off)
    let starts := items.map (·.off)
    let inner := body.dropLast
    let outside := pro ++ epi
    let closing := match body.getLast? with
      | some x => x.isBra && x.target == some b && (Instr.fulls x.i).all (fun y => y.2.gp != 0)
      | none => false
    let goes := fun (x : TextItem) (p : Nat → Bool) => !x.isBra || (match x.target with
      | some t => p t
      | none => false)
    let last := match epi.getLast? with
      | some x => x.i.full?.any (fun y => y.1 == .exit) && x.unguarded
      | none => false
    let ok := starts.contains b && starts.contains e && closing &&
      inner.all (fun x => goes x (fun t => b ≤ t && t < e)) &&
      outside.all (fun x => goes x (fun t => entry ≤ t && t < stop && !(b ≤ t && t < e))) &&
      body.all (fun x => !Instr.isAny x.i bodyBarred) && last &&
      (pro ++ body ++ epi.dropLast).all (fun x => !Instr.isAny x.i kernelBarred) &&
      (!producer || inner.all (fun x => !x.isBra))
    if ok then some { pro := pro, body := body, epi := epi } else none

/-! ### Matching (16 R292) -/

/-- The tile mark of an instruction, by its number in the kernel. -/
def markAt (ms : List TileMark) (off : Nat) : Option (Nat × TileMark) :=
  ((List.range ms.length).zip ms).find? (fun m => m.2.off == off)

/-- Whether two marks describe one tile. -/
def sameTile (a b : TileMark) : Bool :=
  a.handle == b.handle && a.rows == b.rows && a.cols == b.cols && a.stride == b.stride && a.base == b.base

/-- Whether a consumer `TLD` matches a producer `TST`. -/
def matchesTst (pm cm : List TileMark) (ld st : TextItem) : Bool :=
  match ld.i.full?, st.i.full?, markAt cm ld.off, markAt pm st.off with
  | some (.tld, a), some (.tst, b), some (_, x), some (_, y) =>
    sameTile x y && a.fam % 4 == b.fam % 4 && a.spc == b.spc && a.gp == 0 && !a.gn && b.gp == 0 && !b.gn && a.la == 0
  | _, _, _, _ => false

/-- Whether no instruction of the producer's body after a `TST` writes a register of its source run. -/
def runKept (body : List TextItem) (st : TextItem) : Bool :=
  match st.i.full? with
  | some (_, f) =>
    let run := (List.range (runLen f)).map (fun k => Reg.g (f.dst.toNat + k))
    (body.filter (fun x => st.off < x.off)).all (fun x =>
      (Instr.fulls x.i).all (fun y => (y.2.writes y.1).all (fun r => !run.contains r)))
  | none => false

/-- The `TST` that a `TLD` of the consumer's body takes its values from: exactly one, its source run kept. -/
def matchOf (pm cm : List TileMark) (body : List TextItem) (ld : TextItem) : Option TextItem :=
  match body.filter (matchesTst pm cm ld) with
  | [st] => if runKept body st then some st else none
  | _ => none

/-! ### Budgets and refusal codes (16 R293, R295) -/

/-- The predicates of a text: its highest predicate number plus 1. -/
def predCount (l : List TextItem) : Nat :=
  maxOf ((l.flatMap (fun x => Instr.names x.i)).map (fun r => match r with
    | .p n => n + 1
    | _ => 0))

/-- The `k` registers of a text: the larger of 2 and its highest number plus 1. -/
def kCount (l : List TextItem) : Nat :=
  max 2 (maxOf ((l.flatMap (fun x => Instr.names x.i)).map (fun r => match r with
    | .k n => n + 1
    | _ => 0)))

/-- Whether a text names a queue register. -/
def namesQueue (l : List TextItem) : Bool :=
  l.any (fun x => Instr.isAny x.i [Op.qbind, .qstat, .qflush].contains || (Instr.names x.i).any (fun r => match r with
    | .q _ => true
    | _ => false))

/-- Whether a text has an operation among some. -/
def usesOp (l : List TextItem) (ops : List Op) : Bool := l.any (fun x => Instr.isAny x.i ops.contains)

/-- Whether a text has an operand of sixteen spectral registers. -/
def usesW16 (l : List TextItem) : Bool :=
  l.any (fun x => (Instr.fulls x.i).any (fun y =>
    let sh := y.1.shape y.2
    [sh.dst, sh.sa, sh.sb, sh.sc].any (fun c => match c with
      | .w n _ => n == 16
      | _ => false)))

/-- The instructions of a kernel in order. -/
def Parts.all (x : Parts) : List TextItem := x.pro ++ x.body ++ x.epi

/-- A member of a pair as Conjunction reads it. -/
structure Member where
  d     : LaunchDesc
  k     : Kernel
  marks : List TileMark
  ws    : Option (List W32)
  deriving DecidableEq, Repr

/-- The parts of a member's kernel, where it has the form. -/
def Member.parts (m : Member) (producer : Bool) : Option Parts := m.ws.bind (kernelParts m.k producer)

/-- What a spliced team needs (16 R296). -/
def spliceNeed (p c : Member) : Need :=
  { groups := p.k.groups, n := p.k.gregs + c.k.gregs, m := p.k.wregs + c.k.wregs, ls := max p.d.lsBytes c.d.lsBytes,
    matrix := p.k.matrix || c.k.matrix }

/-- The checks of 16 Table 16-2 that come before the kernels' form; 0 where all pass. -/
def earlyCode (pflags : Nat) (p c : Member) : Nat :=
  if pflags / 2 % 2 == 1 then 0x01
  else if pflags % 2 == 1 then 0x02
  else if p.d.kind == 1 || c.d.kind == 1 then 0x03
  else if !p.k.flags.getLsbD 3 || !c.k.flags.getLsbD 3 then 0x04
  else if p.d.count != c.d.count || p.k.groups != c.k.groups || p.k.clw != c.k.clw || p.k.clh != c.k.clh ||
      p.d.die != c.d.die || p.d.fmode != c.d.fmode || packet8 p.d p.k != packet8 c.d c.k ||
      rejoinOn p.d p.k != rejoinOn c.d c.k then 0x05
  else 0

/-- The checks of 16 Table 16-2 on the kernels' texts; 0 where all pass. -/
def lateCode (p c : Member) (x y : Parts) : Nat :=
  let tlds := y.body.filter (fun i => usesOp [i] [.tld])
  let ps := x.all
  let cs := y.all
  let both := fun (ops : List Op) => usesOp ps ops && usesOp cs ops
  let masks := [Op.jenr, .jarr, .jstr, .jclr]
  if tlds.any (fun ld => (matchOf p.marks c.marks x.body ld).isNone) then 0x07
  else if 256 < p.k.gregs + c.k.gregs then 0x08
  else if 32 < p.k.wregs + c.k.wregs || (usesW16 cs && p.k.wregs != 0 && p.k.wregs != 16) then 0x09
  else if 64 < predCount ps + predCount cs then 0x0A
  else if 64 < kCount ps + kCount cs then 0x0B
  else if (p.d.lsBytes != 0 && c.d.lsBytes != 0) || (p.k.matrix && c.k.matrix) || (namesQueue ps && namesQueue cs) ||
      both masks || both [.barNum, .mbar] || both [.wrsr] || 4 < ((windowsOf p.d.vwin ++ windowsOf c.d.vwin).eraseDups).length then 0x0C
  else if !(spliceNeed p c).fitsEmpty then 0x0D
  else 0

/-! ### Renumbering (16 R295) -/

/-- The offsets of the renumbering: `Gp`, `Wp`, `Pp`, `Kp`. -/
structure Shift where
  g : Nat
  w : Nat
  p : Nat
  k : Nat
  deriving DecidableEq, Repr

/-- A predicate number of the consumer, renumbered. -/
def Shift.pred (x : Shift) (n : Nat) : Nat := if n == 0 then 0 else n + x.p - 1

/-- A field of a class, renumbered. -/
def Shift.field (x : Shift) (c : Cls) (ext : Bool) (v : Byte) : Byte :=
  match c with
  | .g _ _ _ =>
    if ext then (if v.toNat < 0x40 then BitVec.ofNat 8 (v.toNat + x.k) else v) else BitVec.ofNat 8 (v.toNat + x.g)
  | .p _ => BitVec.ofNat 8 (x.pred v.toNat)
  | .w _ _ => BitVec.ofNat 8 (v.toNat + x.w)
  | _ => v

/-- The fields of an operation, renumbered: every class, memory bases and indexes, and the guard. -/
def Shift.full (x : Shift) (op : Op) (f : Full) : Full :=
  let sh := op.shape f
  let mem := sh.mem ≠ .no
  let lit := f.lit.isSome
  { f with
    dst := x.field sh.dst (!sh.nform && f.xd) f.dst
    sa := if mem then BitVec.ofNat 8 (f.sa.toNat + (if f.bk then x.k else x.g)) else x.field sh.sa (!sh.nform && f.xa) f.sa
    sb := if mem then (if f.idx then BitVec.ofNat 8 (f.sb.toNat + x.g) else f.sb)
      else if lit && sh.lit = .b then f.sb else x.field sh.sb false f.sb
    sc := if mem || (lit && sh.lit = .c) then f.sc else x.field sh.sc false f.sc
    gp := BitVec.ofNat 6 (x.pred f.gp.toNat) }

/-- A compact half from renumbered fields. -/
def Half.renumbered (h : Half) (f : Full) : Half := { h with dst := f.dst, src := f.sb, gp := f.gp.setWidth 3 }

/-- An operation with a predicate that it reads replaced by another. -/
def Full.readsFrom (op : Op) (f : Full) (old new : Nat) : Full :=
  let sh := op.shape f
  let sub := fun (c : Cls) (v : Byte) => match c with
    | .p _ => if v.toNat == old then BitVec.ofNat 8 new else v
    | _ => v
  { f with
    sa := sub sh.sa f.sa
    sb := sub sh.sb f.sb
    sc := sub sh.sc f.sc
    gp := if f.gp.toNat == old then BitVec.ofNat 6 new else f.gp }

/-- An F64 operation with no modifier, unguarded. -/
def plainFull (dst sa sb : Nat) : Full :=
  { as := false, dst := BitVec.ofNat 8 dst, sa := BitVec.ofNat 8 sa, sb := BitVec.ofNat 8 sb, sc := 0, gp := 0, gn := false,
    la := 0, mod := 0, lit := none }

/-- The two halves of a pair as F64 operations with the result of 02 R40: in order, reversed, or with the old value of
half 0's predicate saved in the scratch. -/
def splitPair (scratch : Nat) (a b : Op × Full) : List Instr :=
  let i0 := Instr.ofFull a.1 a.2
  let i1 := Instr.ofFull b.1 b.2
  let disjoint := fun (w r : List Reg) => w.all (fun x => !r.contains x)
  if disjoint (a.2.writes a.1) (b.2.reads b.1) then [i0, i1]
  else if disjoint (b.2.writes b.1) (a.2.reads a.1) then [i1, i0]
  else match a.2.writes a.1 with
    | .p n :: _ => [Instr.ofFull .pmov (plainFull scratch n 0), i0, Instr.ofFull b.1 (Full.readsFrom b.1 b.2 n scratch)]
    | _ => [i0, i1]

/-- A consumer instruction, renumbered; a compact form whose guard lies above `p7` becomes F64. -/
def Shift.instr (x : Shift) (scratch : Nat) (i : Instr) : List Instr :=
  match i.full? with
  | some (op, f) => [Instr.ofFull op (x.full op f)]
  | none => match i.comp? with
    | some (c, y) =>
      let f := x.full c.op y.expand
      if f.gp.toNat ≤ 7 then [Instr.ofComp c { y with dst := f.dst, src := f.sb, gp := f.gp.setWidth 3 }] else [Instr.ofFull c.op f]
    | none => match i with
      | .p64Pair as h0 h1 =>
        let f0 := x.full h0.op.op (h0.expand as)
        let f1 := x.full h1.op.op (h1.expand as)
        if f0.gp.toNat ≤ 7 && f1.gp.toNat ≤ 7 then [.p64Pair as (Half.renumbered h0 f0) (Half.renumbered h1 f1)]
        else splitPair scratch (h0.op.op, f0) (h1.op.op, f1)
      | i => [i]

/-! ### The spliced text (16 R297 to R300) -/

/-- An instruction of the spliced text: whether of the consumer, the text offset that it stands for, its origin
(16 Table 16-4), the instruction (none where one is left out), and its branch target: whether in the consumer's
kernel, and the text offset. -/
structure Emitted where
  cons   : Bool
  off    : Nat
  origin : Nat
  i      : Option Instr
  target : Option (Bool × Nat) := none
  deriving DecidableEq, Repr

/-- The instructions of a part that are taken over as they are. -/
def emitKept (cons : Bool) (ren : Instr → List Instr) (l : List TextItem) : List Emitted :=
  l.flatMap (fun x => (ren x.i).map (fun i =>
    ({ cons := cons, off := x.off, origin := if cons then 2 else 1, i := some i,
       target := if x.isBra then x.target.map (fun t => (cons, t)) else none } : Emitted)))

/-- An instruction that is left out; its place is that of the next. -/
def emitNone (cons : Bool) (x : TextItem) : Emitted :=
  { cons := cons, off := x.off, origin := if cons then 2 else 1, i := none }

/-- The forwarding copies of a matched `TLD` (16 R298). -/
def emitCopies (sh : Shift) (ld st : TextItem) : List Emitted :=
  match ld.i.full?, st.i.full? with
  | some (_, a), some (_, b) =>
    (List.range (runLen a)).map (fun k =>
      ({ cons := true, off := ld.off, origin := 2,
         i := some (Instr.ofFull .mov (plainFull (a.dst.toNat + sh.g + k) (b.dst.toNat + k) 0)) } : Emitted))
  | _, _ => []

/-- Whether a `TST` is elided (16 R299): it is matched, and a mark of its handle is transient. -/
def elided (transient : W64) (p : Member) (matched : List TextItem) (st : TextItem) : Bool :=
  matched.any (fun x => x.off == st.off) &&
  (match markAt p.marks st.off with
    | none => false
    | some (_, m) => (List.range p.marks.length).any (fun i =>
        i < 64 && transient.getLsbD i && ((p.marks[i]?).map (·.handle)) == some m.handle))

/-- The spliced text as a list of instructions, in the order of 16 R297. -/
def spliceItems (transient : W64) (p c : Member) (x y : Parts) : List Emitted :=
  let sh : Shift := { g := p.k.gregs, w := p.k.wregs, p := predCount x.all, k := kCount x.all }
  let scratch := predCount x.all + predCount y.all - 1
  let ren := sh.instr scratch
  let keep := fun (i : Instr) => [i]
  let pick := fun (i : TextItem) => if usesOp [i] [.tld] then matchOf p.marks c.marks x.body i else none
  let matched := y.body.filterMap pick
  let prod := x.body.dropLast.flatMap (fun i =>
    if elided transient p matched i then [emitNone false i] else emitKept false keep [i])
  let cons := y.body.dropLast.flatMap (fun i => match pick i with
    | some st => emitCopies sh i st
    | none => emitKept true ren [i])
  let guard := fun (l : List TextItem) => match (l.getLast?).bind (fun (i : TextItem) => i.i.full?) with
    | some (_, f) => (f.gp.toNat, f.gn)
    | none => (0, false)
  let close := match y.body.getLast? with
    | none => []
    | some b =>
      let (gp, np) := guard x.body
      let (gc, nc) := guard y.body
      let trap : Full := { plainFull 0 0 0xFF with
        gp := BitVec.ofNat 6 scratch
        gn := np != nc }
      let check := fun (i : Instr) => ({ cons := true, off := b.off, origin := 3, i := some i } : Emitted)
      [check (Instr.ofFull .pxor (plainFull scratch gp (sh.pred gc))), check (Instr.ofFull .trap trap)] ++
        (emitKept true ren [b]).map (fun (e : Emitted) => { e with target := some (false, p.k.spliceBegin.toNat) })
  emitKept false keep x.pro ++ emitKept true ren y.pro ++ prod ++
    (x.body.getLast?.toList.map (emitNone false)) ++ cons ++ close ++
    emitKept false keep x.epi.dropLast ++ (x.epi.getLast?.toList.map (emitNone false)) ++ emitKept true ren y.epi

/-- The words that an emitted instruction takes; a branch is encoded as L96, whose offset reaches every target. -/
def Emitted.words (e : Emitted) : Nat :=
  match e.i with
  | none => 0
  | some i => if e.target.isSome then 3 else (encode i).length

/-- The instructions of a spliced text with their addresses. -/
def withAddrs (base : Nat) : List Emitted → List (Nat × Emitted)
  | [] => []
  | e :: r => (base, e) :: withAddrs (base + 4 * e.words) r

/-- The address in the spliced text that stands for a place in a kernel; a place inside an instruction keeps its distance
from that instruction's start (DEDUCED, assumption log 52). -/
def placeOf (l : List (Nat × Emitted)) (t : Bool × Nat) : Nat :=
  match l.find? (fun x => x.2.cons == t.1 && x.2.off == t.2) with
  | some x => x.1
  | none =>
    match (l.filter (fun x => x.2.cons == t.1 && x.2.off < t.2)).getLast? with
    | some x => x.1 + (t.2 - x.2.off)
    | none => 0

/-- The words of a spliced text. -/
def spliceWords (l : List (Nat × Emitted)) : List W32 :=
  l.flatMap (fun x => match x.2.i with
    | none => []
    | some i =>
      match x.2.target, i.full? with
      | some t, some (op, f) =>
        let off : Int := ((placeOf l t : Int) - (x.1 : Int)) / 4
        encode (Instr.ofFull op { f with
          sb := 0
          sc := 0
          lit := some (BitVec.ofInt 32 off) })
      | _, _ => encode i)

/-- The program-counter map of a spliced text (16 R302). -/
def spliceMap (p c : Member) (l : List (Nat × Emitted)) : List SplicePc :=
  l.filterMap (fun x => x.2.i.map (fun _ =>
    { addr := x.1, orig := ((if x.2.cons then c.d.code else p.d.code) + w64 x.2.off).toNat, origin := x.2.origin }))

/-- Places a spliced text in pages of firmware that lanes can execute and not write (16 R301): its address and its
pages; none where there is no memory for it. -/
def State.placeSplice (s : State) (tenant : Nat) (items : List Emitted) : Option (Nat × Nat) × State :=
  let size := 4 * (items.map (·.words)).sum
  let n := (size + 16383) / 16384
  let (va, s) := s.freeVa tenant (16384 * n)
  let (f, s) := s.freeFrame 0 memEnd (16384 * n)
  match f with
  | none => (none, s)
  | some f =>
    let pages : List Page := (List.range n).map (fun i =>
      { tenant := tenant, va := va + 16384 * i, pa := f + 16384 * i, r := false, w := false, x := true })
    let bs := (spliceWords (withAddrs va items)).flatMap bytes32
    let out := fun (l : L1Line) => l.line * 128 + 128 ≤ f || f + 16384 * n ≤ l.line * 128
    (some (va, n), { s with
      pages := s.pages ++ pages
      mem := Memory.setBytes s.mem f bs
      l1 := s.l1.filter out })

/-! ### Taking a pair (16 R290, R293, R294, R301) -/

/-- A member of a pair as Conjunction reads it. -/
def State.member (s : State) (tenant : Nat) (d : LaunchDesc) (k : Kernel) : Member × State :=
  let (ws, s) := s.textRead tenant (d.code + k.entry).toNat k.size.toNat
  let marks := match s.object? tenant d.kdesc.toNat with
    | some (x, _) => x.marks k
    | none => []
  ({ d := d, k := k, marks := marks, ws := ws }, s)

/-- The refusal code of a pair, or its parts. -/
def pairCode (pflags : Nat) (p c : Member) : Except Nat (Parts × Parts) :=
  match earlyCode pflags p c with
  | 0 =>
    match p.parts true, c.parts false with
    | some x, some y => match lateCode p c x y with
      | 0 => .ok (x, y)
      | n => .error n
    | _, _ => .error 0x06
  | n => .error n

/-- Takes a pair that passes 15 R271: spliced, or unspliced with the consumer after the producer. -/
def State.takeMembers (s : State) (tenant queue pflags : Nat) (transient : W64) (dp dc : LaunchDesc) (kp kc : Kernel)
    (rp : List Record) : State :=
  let (p, s) := s.member tenant dp kp
  let (c, s) := s.member tenant dc kc
  let (np, s) := s.launchNumber dp.home
  let (nc, s) := s.launchNumber dc.home
  let lp : Launch := { die := dp.home, num := np, tenant := tenant, desc := dp, kernel := kp }
  let lc : Launch := { die := dc.home, num := nc, tenant := tenant, desc := dc, kernel := kc, after := some (dp.home, np) }
  let unspliced := fun (s : State) (code : Nat) =>
    ((s.addLaunch { lp with refused := code } queue).addLaunch { lc with refused := code } queue).openRing lp rp
  match pairCode pflags p c with
  | .error code => unspliced s code
  | .ok (x, y) =>
    let items := spliceItems transient p c x y
    match s.placeSplice tenant items with
    | (none, s) => unspliced s 0x0D
    | (some (va, n), s) =>
      let sp : Splice :=
        { consumer := nc, cdesc := dc, ckernel := kc, kp := kCount x.all, text := va, pages := n,
          map := spliceMap p c (withAddrs va items) }
      -- a route tag that either launch asks for serves the one unit (DEDUCED, assumption log 20)
      let d := { dp with opts := dp.opts ||| (dc.opts &&& 0x10) }
      (s.addLaunch { lp with
        desc := d
        splice := some sp } queue).addLaunch { lc with spliced := true } queue

/-- Takes a pair whose descriptors have been read: the checks of 16 R290. -/
def State.takePair (s : State) (tenant queue : Nat) (pr pb cb : List Byte) : State :=
  let dp := LaunchDesc.ofBytes pb
  let dc := LaunchDesc.ofBytes cb
  let transient := w64 (fieldAt pr 0x10 8)
  let pflags := fieldAt pr 0x18 4
  let ((kp, rp, sp), s) := s.checkLaunch tenant dp
  let ((kc, _, sc), s) := s.checkLaunch tenant dc
  let reserved := 4 ≤ pflags || fieldAt pr 0x1C 36 != 0 || kp.any (fun k => k.tiles < 64 && field transient 63 k.tiles != 0)
  let kp := kp.getD {}
  let kc := kc.getD {}
  let refuse := fun (s : State) (a b : Nat) =>
    let (np, s) := s.launchNumber dp.home
    let (nc, s) := s.launchNumber dc.home
    let x : Launch := { die := dp.home, num := np, tenant := tenant, desc := dp, kernel := kp, status := some a, statusAt := s.ticks }
    let y : Launch := { die := dc.home, num := nc, tenant := tenant, desc := dc, kernel := kc, status := some b, statusAt := s.ticks }
    (s.addLaunch x queue).addLaunch y queue
  if reserved then refuse s 5 5
  else match sp, sc with
    | none, none => s.takeMembers tenant queue pflags transient dp dc kp kc rp
    | a, b => refuse s (a.getD 10) (b.getD 10)

/-- PAIR_TAKE (16 R290, R293): of the pair record at an address. Where the record or a descriptor cannot be read no
launch is taken. -/
def execPairTake (s : State) : Result :=
  let ev := s.ev
  let (pr, s) := s.tenantRead ev.sub ev.val.toNat 64
  match pr with
  | none => .next s
  | some pr =>
    let (pb, s) := s.tenantRead ev.sub (fieldAt pr 0 8) 128
    let (cb, s) := s.tenantRead ev.sub (fieldAt pr 8 8) 128
    match pb, cb with
    | some pb, some cb =>
      if fieldAt pr 0 8 % 64 != 0 || fieldAt pr 8 8 % 64 != 0 then .next s else .next (s.takePair ev.sub ev.aux pr pb cb)
    | _, _ => .next s

end Sys2Proof.Machine
end

