-- ==== Sys2Proof/Machine/CoreEvents.lean ====
section
/-! DEFINITION. Events of lanes, caches, homes and the time base: the ends of waits (02 R35, 09 R175, R176), leases and
write-backs (11 R225, 17 R309, R310), transactions (07 R143, 17 R319), translation (15 R287), the time base (00 R8
to R11) and the states of peers (22 R398). -/

namespace Sys2Proof.Machine

open Sys2Proof

/-! ### Lanes -/

/-- YIELD_EXPIRE (09 R175): eight issue cycles of the group have passed, and the lane is ready in this one. -/
def execYieldExpire (s : State) : Result :=
  .next (s.modLane s.ev.obj s.ev.sub (fun l => if l.yield == 1 then { l with yield := 0 } else l))

/-- The queue that a pending result is for. -/
def Pend.queue? (p : Pend) : Option Nat := p.cells.findSome? (fun c => match c.1 with
  | .q q => some q
  | _ => none)

/-- The queue and the value of a pending result that is for a queue, when it is known. -/
def Pend.due (p : Pend) : Option (Nat × W64) := match p.cells with
  | [(.q q, some v)] => some (q, v)
  | _ => none

/-- The result of a lane that its queue takes next: known, after the lane's earlier results for that queue, and after
those of the lower lanes of its issue (02 R32). -/
def Group.queueDue (g : Group) (i : Nat) : Option (Pend × Nat × W64) :=
  let ps := (g.lane i).pend
  ps.findSome? (fun p => match p.due with
    | some (q, v) =>
      let first := (ps.find? (fun x => x.queue? == some q)).any (fun x => x.serial == p.serial)
      let lower := (List.range i).any (fun j => (g.lane j).pend.any (fun x => x.queue? == some q && x.tick == p.tick && x.pc == p.pc))
      if first && !lower then some (p, q, v) else none
    | none => none)

/-- A pending result of a lane is gone. -/
def Lane.dropPend (l : Lane) (serial : Nat) : Lane := { l with pend := l.pend.filter (fun (p : Pend) => p.serial != serial) }

/-- LONG_LATENCY_RETIRE (02 R35): the known results of a lane whose windows are over are written. One for a queue is pushed
as an instruction pushes (09 R192): the port's check traps the lane at its instruction (11 R231, 18 R330), and an absent
record line or a full queue parks it. -/
def execLongLatencyRetire (s : State) : Result :=
  let gid := s.ev.obj
  let i := s.ev.sub
  let s := s.modGroup gid (fun g => g.retire i false)
  let g := s.group gid
  let t := s.team g.team
  match g.queueDue i with
  | none => .next s
  | some (p, q, v) =>
    let port := (t.queue q).port
    match t.entryCheck port v with
    | some x =>
      let s := s.modLane gid i (fun l => { l.dropPend p.serial with pc := p.pc })
      .next (s.takeTrap gid p.pc (s.wordsAt g.core g.tenant p.pc) [(i, x)])
    | none =>
      if port == 5 && !t.present (field v 17 0) then
        .next (s.modLane gid i (fun l => if l.park == 0 then { l with park := 2, aux := field v 17 7 } else l))
      else if !s.canPush g.team q gid i then
        .next (if (g.lane i).park == 0 then s.parkOnQueue g.team q gid i else s)
      else
        let c := s.cur
        let s := { s with cur := { c with gid := gid, pc := p.pc } }
        .next { (s.pushQueue g.team q gid i v).modLane gid i (fun l => l.dropPend p.serial) with cur := c }

/-- NAP_WAKE (09 R176): the device time has reached the end of the nap. -/
def execNapWake (s : State) : Result :=
  .next (s.modLane s.ev.obj s.ev.sub (fun l => if l.park == 4 && l.napEnd ≤ s.time then { l with park := 0 } else l))

/-! ### Leases, write-backs and homes -/

/-- L1_LEASE_EXPIRE (17 Table 17-3): the line lapses. Its bytes and dirty bits stay; that it serves no hit follows
from its lease and the device time, which `l1Fetch` compares. -/
def execL1LeaseExpire (s : State) : Result := .next s

/-- DIRTY_WRITEBACK_TIMER (11 R225): the dirty sectors of a line go to their home. -/
def execDirtyWritebackTimer (s : State) : Result := .next (s.writeBack s.ev.obj s.ev.sub)

/-- FETCH_AT_HOME (17 R309): a core's fetch of the sector of a physical address reaches the line's home; a line held
by a row command answers later (18 R334). -/
def execFetchAtHome (s : State) : Result :=
  let pa := s.ev.sub
  .next (if s.fetchHeld pa then s else s.l1Fetch s.ev.obj (pa / 128) (pa / 64 % 2) 0)

/-- WRITE_AT_HOME (17 R309): a write of a group's bytes, or of a party that is no group, reaches its home. -/
def execWriteAtHome (s : State) : Result :=
  .next (s.engineWrite ((s.group? s.ev.obj).map (fun (g : Group) => g.id)) s.ev.sub s.ev.bytes)

/-- The lines on which a committed transaction of a group has writes queued. -/
def State.txLines (s : State) (gid : Nat) : List Home :=
  s.homes.filter (fun h => h.queue.any (fun w => w.tx && w.gid == some gid))

/-- Performs the writes of a group's committed transactions, those of one commit time all at once (17 R319): they stand on
all their lines before any write that could hold them back. -/
def State.releaseTx (s : State) (gid : Nat) : State := (s.txLines gid).foldl (fun s h => s.releaseHold h.line) s

/-- HOLD_RELEASE (17 R309): the queued writes of a line are performed; a line with a transaction's writes is
performed with the transaction's other lines. -/
def execHoldRelease (s : State) : Result :=
  let txs := (s.home s.ev.obj).queue.filterMap (fun w => if w.tx && w.due ≤ s.time then w.gid else none)
  .next ((txs.foldl (fun s gid => s.releaseTx gid) s).releaseHold s.ev.obj)

/-- TX_COMMIT_PERFORM (17 R319). -/
def execTxCommitPerform (s : State) : Result := .next (s.releaseTx s.ev.obj)

/-- TX_ABORT_RESUME (07 R143): the group has reached an instruction boundary after another party aborted its
transaction. -/
def execTxAbortResume (s : State) : Result :=
  .next (match (s.group s.ev.obj).tx.bind (·.dead) with
    | some (cause, code) => s.txAbort s.ev.obj cause code
    | none => s)

/-! ### Translation (15 R287) -/

/-- PAGE_WALK (15 R287): a walker of a die brings the translation of a tenant's page to a core's TLBs of 2,048 and 64
entries (assumption log 83). -/
def execPageWalk (s : State) : Result :=
  match s.page? s.ev.sub s.ev.val.toNat with
  | none => .next s
  | some p => .next { s with
      tlb := tlbEnter s.tlb 2048 s.ev.obj p
      tlb1 := tlbEnter s.tlb1 64 s.ev.obj p }

/-- Whether an access that used a page's translation has not been performed: a dirty line, a queued write, a line of an
open transaction's sets, or a row command's. A port's command translates its descriptor's `STAT` anew when it writes it
(18 R330), so that it goes where a move has brought the page. -/
def State.pageInUse (s : State) (p : Page) : Bool :=
  let inside := fun (line : Nat) => p.pa ≤ line * 128 && line * 128 < p.pa + p.size
  let uses := fun (c : RowCmd) => c.tenant == p.tenant && match c.st with
    | .reading | .entered | .faulted => false
    | .stat => s.originQueued (2 ^ 41 + c.id) && overlaps (c.port.toList.map (fun va => (va, 64))) [(p.va, p.size)]
    | _ => overlaps (c.sources ++ c.dests) [(p.va, p.size)]
  s.l1.any (fun l => inside l.line && !l.dirty.isEmpty) ||
  s.homes.any (fun h => inside h.line && !h.queue.isEmpty) ||
  s.groups.any (fun (g : Group) => g.tx.any (fun t => (t.reads ++ t.writes).any inside)) ||
  s.rows.any uses

/-- TLB_INVALIDATE (15 R287): firmware's invalidation of a mapping completes once every access that used it is
performed; until then it stays pending. -/
def execTlbInvalidate (s : State) : Result :=
  let tenant := s.ev.obj
  let va := s.ev.val.toNat
  let s := { s with invals := s.invals.filter (· != (tenant, va)) }
  match s.page? tenant va with
  | none => .next s
  | some p =>
    let inside := fun (l : L1Line) => p.pa ≤ l.line * 128 && l.line * 128 < p.pa + p.size
    let s := (s.l1.filter inside).foldl (fun s l => s.writeBack l.core l.line) s
    if s.pageInUse p then .next { s with invals := s.invals ++ [(tenant, va)] }
    else .next { s with
      pages := s.pages.filter (· != p)
      tlb := s.tlb.filter (fun (x : Nat × Page) => x.2 != p)
      tlb1 := s.tlb1.filter (fun (x : Nat × Page) => x.2 != p) }

/-! ### The time base (00 R8 to R11, 22 R398) -/

/-- The units of 1/40,000 ns in a core cycle of 5/8 ns. -/
def cycleUnits : Nat := 25000

/-- 20 ns in the units of the count's fraction (00 R11). -/
def lockBound : Int := 800000

/-- How far the 1588 time moves against a count that is not held, in one cycle (00 R9, R11): in `LOCKED` by at most 200 parts
per million and never out of 20 ns, in `HOLDOVER` by the oscillator's drift of at most 50 parts per billion, one unit in 800
cycles, and in `UNSYNCED` by the correction, towards the count. All are free values (assumption log 96). -/
def State.drift (s : State) : State :=
  let (n, s) := s.drawNat
  let by_ := fun (d : Int) => { s with off := s.off + d }
  match s.tstat with
  | .locked => { s with off := max (-lockBound) (min lockBound (s.off + ((n % 11 : Nat) : Int) - 5)) }
  | .holdover => if s.ticks / 5 % 800 == 0 then by_ (((n % 3 : Nat) : Int) - 1) else s
  | .unsynced =>
    if !s.source then s else by_ (if 0 < s.off then -(min ((n % 6 : Nat) : Int) s.off) else min ((n % 6 : Nat) : Int) (-s.off))
  | .unlocked => s

/-- One core cycle passes (00 R9). A correction changes the count's advance by at most 5 of 25,000 units, 200 parts
per million; it is a free value while the 1588 source corrects the rate, and the last one stays in force without
the source. A first-lock hold keeps the count still. -/
def State.tick (s : State) : State :=
  let (n, s) := if s.source && (s.tstat == .locked || s.tstat == .unsynced) then
      (let (n, s) := s.drawNat
       (n % 11, s))
    else (s.rate, s)
  let adv := cycleUnits - 5 + n
  let held := min s.hold adv
  let sub := s.sub + (adv - held)
  let s := if s.tstat == .unlocked then s else if held != 0 then { s with off := s.off + held } else s.drift
  { s with ticks := s.ticks + 5, rate := n, hold := s.hold - held, time := (s.time + sub / 40000) % 2 ^ 64, sub := sub % 40000 }

/-- Whether a line is homed on another module. -/
def State.remoteLine (s : State) (line : Nat) : Bool := s.isRemote (line * 128)

/-- The writes queued at a home whose Emax another module was granted wait 1 µs more once the module is not synchronised (22
R398 item 3). -/
def Home.guarded (h : Home) : Home :=
  if h.remote && h.pt.isSome then
    { h with
      pt := h.pt.map (fun t => max t (h.emax + 1000))
      queue := h.queue.map (fun w => { w with due := max w.due (h.emax + 1000) }) }
  else h

/-- The module changes its time-base state (22 R398): on leaving `LOCKED` or `HOLDOVER` it writes back and drops every
line homed on another module, and holds writes to lines that others lease; each entry into or exit from `UNLOCKED` or `UNSYNCED` is reported. -/
def State.setTime (s : State) (st : TimeState) : State :=
  let was := s.synced
  let same := s.tstat == st
  let s := { s with tstat := st }
  let s := if was && !s.synced then
      let s := (s.l1.filter (fun l => s.remoteLine l.line)).foldl (fun (s : State) l => (s.writeBack l.core l.line).dropL1 l.core l.line) s
      { s with homes := s.homes.map Home.guarded }
    else s
  if !same && !(was && s.synced) then s.report { sev := 0, src := 9, code := TimeState.code st } else s

/-- How far a 1588 time is ahead of the count. -/
def State.ahead (s : State) (src : Nat) : Int := 40000 * ((src : Int) - s.time) - s.sub

/-- Whether the count lies within 20 ns of a 1588 time. -/
def State.near1588 (s : State) (src : Nat) : Bool := -lockBound ≤ s.ahead src && s.ahead src ≤ lockBound

/-- TIMEBASE_FIRST_LOCK (00 R9, Table 0-6). -/
def execTimebaseFirstLock (s : State) : Result :=
  let src := s.ev.val.toNat
  if s.tstat != .unlocked then .next s
  else
    let s := { s with source := true }
    if s.time ≤ src then .next ({ s with time := src, sub := 0, off := 0 }.setTime .locked)
    else .next ({ s with hold := (s.time - src) * 40000, off := s.ahead src }.setTime .unsynced)

/-- TIMEBASE_SOURCE_LOST (00 Table 0-6): the count runs at the last rate, a first-lock hold being over. -/
def execTimebaseSourceLost (s : State) : Result :=
  let s := { s with source := false, hold := 0 }
  .next (if s.tstat == .locked then { s with since := s.ticks }.setTime .holdover else s)

/-- TIMEBASE_SOURCE_REGAINED (00 Table 0-6). -/
def execTimebaseSourceRegained (s : State) : Result :=
  let src := s.ev.val.toNat
  if s.tstat == .unlocked then .next s
  else
    let s := { s with source := true, off := s.ahead src }
    .next (if s.tstat == .holdover then s.setTime (if s.near1588 src then .locked else .unsynced) else s)

/-- HOLDOVER_TIMEOUT (00 Table 0-6): 100 ms have passed without the source. -/
def execHoldoverTimeout (s : State) : Result :=
  .next (if s.tstat == .holdover && s.since + 800000000 ≤ s.ticks then s.setTime .unsynced else s)

/-- UNSYNCED_CONVERGE (00 Table 0-6). -/
def execUnsyncedConverge (s : State) : Result :=
  .next (if s.tstat == .unsynced && s.source && s.near1588 s.ev.val.toNat then { s with hold := 0, off := s.ahead s.ev.val.toNat }.setTime .locked else s)

/-- PEER_STATE_UPDATE (22 R398): what a peer's state is; 1 `UNLOCKED`, 2 `LOCKED`, 3 `HOLDOVER`, 4 `UNSYNCED`. -/
def execPeerStateUpdate (s : State) : Result :=
  .next { s with peers := Sparse.put 0 s.peers s.ev.obj (TimeState.code s.ev.ts + 1) }

end Sys2Proof.Machine
end

