-- ==== Sys2Proof/Machine/RowSteps.lean ====
section
/-! DEFINITION. The row instructions of lanes (18 R329, R345), the steps of row programs (18 R342) and the events
of row commands (18 R330 to R346). -/

namespace Sys2Proof.Machine

open Sys2Proof

/-! ### Lane instructions -/

/-- A new command of a lane, its descriptor read (18 R329). -/
def newRow (s : State) (g : Group) (i serial op : Nat) (bs : List Byte) : RowCmd :=
  let t := s.team g.team
  let l := (s.launch? t.die t.launch).getD { die := t.die, num := t.launch }
  ({ id := serial, team := g.team, launch := t.launch, tenant := g.tenant, die := t.die, gid := g.id, lane := i,
     serial := serial, op := op, vwin := g.vwin, st := .reading, asked := s.ticks, origin := (l.origin s.cur.pc.toNat).1 } : RowCmd).ofBytes bs

/-- A row command instruction on one lane (18 R329): alignment, the descriptor read, and a command that enters
the row stream once the earlier writes are performed; the lane is owed its status word. -/
def rowLane (op : Op) (f : Full) (cmd : Nat) (s : State) (g : Group) (got : List (Nat × W64)) (i : Nat) : LaneStep :=
  match s.load g i .global (srcA op f g i (poppedBy got i)).toNat 64 0 with
  | .trap t s => .trapIn t s
  | .wait s => .stay s
  | .bytes bs s =>
    let (n, s) := s.fresh
    .owe { s with rows := s.rows ++ [newRow s g i n cmd bs] } n

/-- A row command instruction on its issue. -/
def rowExec (op : Op) (cmd : Nat) (f : Full) (s : State) : State := laneExec op f s (rowLane op f cmd)

/-- `ROW.COPY` (18 R333). -/
def execRowCopy (f : Full) (s : State) : Result := .next (rowExec .rowCopy 0 f s)
/-- `ROW.FILL` (18 R333). -/
def execRowFill (f : Full) (s : State) : Result := .next (rowExec .rowFill 1 f s)
/-- `ROW.AND` (18 R333). -/
def execRowAnd (f : Full) (s : State) : Result := .next (rowExec .rowAnd 2 f s)
/-- `ROW.OR` (18 R333). -/
def execRowOr (f : Full) (s : State) : Result := .next (rowExec .rowOr 3 f s)
/-- `ROW.XOR` (18 R333). -/
def execRowXor (f : Full) (s : State) : Result := .next (rowExec .rowXor 4 f s)
/-- `ROW.NOT` (18 R333). -/
def execRowNot (f : Full) (s : State) : Result := .next (rowExec .rowNot 5 f s)
/-- `ROW.MAJ` (18 R333). -/
def execRowMaj (f : Full) (s : State) : Result := .next (rowExec .rowMaj 6 f s)
/-- `ROW.ALLB` (18 R338). -/
def execRowAllb (f : Full) (s : State) : Result := .next (rowExec .rowAllb 7 f s)
/-- `ROW.BCST` (18 R340). -/
def execRowBcst (f : Full) (s : State) : Result := .next (rowExec .rowBcst 8 f s)
/-- `ROW.MAC` (18 R340). -/
def execRowMac (f : Full) (s : State) : Result := .next (rowExec .rowMac 9 f s)
/-- `ROW.SADD` (18 R333). -/
def execRowSadd (f : Full) (s : State) : Result := .next (rowExec .rowSadd 10 f s)
/-- `ROW.RDACC` (18 R340). -/
def execRowRdacc (f : Full) (s : State) : Result := .next (rowExec .rowRdacc 11 f s)
/-- `ROW.PROG` (18 R340). -/
def execRowProg (f : Full) (s : State) : Result := .next (rowExec .rowProg 12 f s)

/-- How many commands of a team have entered and not ended (18 R345): one that still awaits the writes before it
(18 R329, step 3) has not entered, and one whose completion time is over has ended (18 R332). -/
def State.rowsLive (s : State) (team : Nat) : Nat :=
  (s.rows.filter (fun c => c.team == team && c.st != .reading && !c.hasEnded)).length

/-- `ROW.WAIT` (18 R345): the group stalls, past the instruction, until few enough commands of its team are
left; with no enabled lane it does not stall. The value is the least of the lanes that have their source. -/
def execRowWait (f : Full) (s : State) : Result :=
  .next (laneExec .rowWait f s (fun s g got _ =>
    match minOf? (got.map (fun x => (srcA .rowWait f g x.1 x.2).toNat % 2 ^ 32)) with
    | none => .res s [] 0
    | some n => .res (if s.rowsLive g.team ≤ n then s else s.modGroup g.id (fun g => { g with wait := .rows n })) [] 0))

/-! ### Row-program steps -/

/-- `END` (18 Table 18-7). -/
def execStepEnd (s : State) : Result := .next (runStep s (fun _ _ _ => .done))

/-- The rows that an `OPEN` of a command opens, one of each bank: empty where it opens none. -/
def State.opened (s : State) (c : RowCmd) : List (Nat × Nat) :=
  let nb := s.near c.stack c.pch
  if c.rows ≤ nb.rp then [] else (List.range 16).map (fun b => (rowPa s.module c.stack c.pch b (c.row0 + nb.rp), 2048))

/-- The first bad sector of the rows that the step of a command opens. -/
def State.openedBad (s : State) : Option (RowCmd × Nat) :=
  (s.row? s.cur.cmd).bind (fun c => (s.badSector (s.opened c)).map (fun x => (c, x)))

/-- `OPEN` (18 Table 18-7): the next row of the stripe in every bank, its dirty sectors written back (18 R334); one with an
uncorrectable error ends the command (18 R335), and one under test is waited for (21 R388). -/
def execStepOpen (s : State) : Result :=
  if (s.row? s.cur.cmd).any (fun c => s.rowsTested (s.opened c)) then
    .next (s.modRow s.cur.cmd (fun c => { c with worked := false, endAt := s.time }))
  else match s.openedBad with
  | some (c, x) => .next ((s.rowDone c.id 5).rowEcc c x)
  | none =>
  let s := match s.row? s.cur.cmd with
    | some c => s.rowReads (s.opened c)
    | none => s
  .next (runStep s (fun _ c nb =>
    if c.rows ≤ nb.rp then .bad
    else .go { c with isOpen := true, chunks := 0, next := nb.rp + 1 } { nb with rp := nb.rp + 1 } (nb.rpc + 1)))

/-- A `MACB` or `MACE` step: its fields are checked, a row must be open, and at most 64 chunks are processed
since it was opened (18 R342). -/
def macRun (own : Bool) (v : BitVec 3) (c0 : BitVec 6) (n : BitVec 5) (s : State) : State :=
  runStep s (fun s c nb =>
    let k := n.toNat
    if k == 0 || 16 < k || 64 < c0.toNat + k || c.next == 0 || 64 < c.chunks + k then .bad
    else
      let nb' := (List.range k).foldl (s.macChunk c own v.toNat c0.toNat) nb
      .go { c with chunks := c.chunks + k } nb' (nb.rpc + 1))

/-- `MACB` (18 Table 18-7). -/
def execMacb (v : BitVec 3) (c0 : BitVec 6) (n : BitVec 5) (s : State) : Result := .next (macRun false v c0 n s)
/-- `MACE` (18 Table 18-7). -/
def execMace (v : BitVec 3) (c0 : BitVec 6) (n : BitVec 5) (s : State) : Result := .next (macRun true v c0 n s)

/-- `CLR` (18 Table 18-7). -/
def execStepClr (s : State) : Result := .next (runStep s (fun _ c nb => .go c { nb with acc := [] } (nb.rpc + 1)))

/-- `LOOP` (18 Table 18-7); `LC` is 16 bits wide. -/
def execStepLoop (t : BitVec 5) (s : State) : Result :=
  .next (runStep s (fun _ c nb =>
    let lc := (nb.lc + 65535) % 65536
    .go c { nb with lc := lc } (if lc != 0 then t.toNat else nb.rpc + 1)))

/-! ### Events -/

/-- ROW_CMD_ENTER (18 R329, R332): a command enters its stream once it may, and starts once no earlier command
holds it back. -/
def execRowCmdEnter (s : State) : Result :=
  let id := s.ev.obj
  let s := match s.row? id with
    | some c => if c.st == RowState.reading && s.canEnter c then s.modRow id (fun (c : RowCmd) => { c with st := RowState.entered }) else s
    | none => s
  match s.row? id with
  | some c => .next (if c.st == RowState.entered && s.canStart c then s.startRow id else s)
  | none => .next s

/-- ROW_STEP (18 R343): the row step of a running command is over, or its next one begins. -/
def execRowStep (s : State) : Result :=
  match s.row? s.ev.obj with
  | some c => .next (if c.st != .run then s else if c.worked then s.rowStepOver c else s.rowWork c.id)
  | none => .next s

/-- ROW_SLOT_END (18 Table 18-9): one more slot of ordinary traffic is over; after seven, or when no access is
pending, the command resumes. -/
def execRowSlotEnd (s : State) : Result :=
  match s.row? s.ev.obj with
  | some c =>
    match c.st with
    | .yield n =>
      .next (if 6 ≤ n || !s.askedFor c then s.rowResume c.id
        else s.modRow c.id (fun c => { c with st := .yield (n + 1), since := s.ticks, endAt := c.endAt + 128 }))
    | _ => .next s
  | none => .next s

/-- ROW_REFRESH_DONE (18 Table 18-9). -/
def execRowRefreshDone (s : State) : Result :=
  match s.row? s.ev.obj with
  | some c => .next (if c.st == .refresh then s.rowResume c.id else s)
  | none => .next s

/-- ROW_COMMAND_END (18 R334). -/
def execRowCommandEnd (s : State) : Result := .next (s.endRow s.ev.obj)

/-- Whether the port waits to read the descriptor at the head of its queue, as an ordinary access does (18 R334, R343,
21 R388). -/
def State.portHeld (s : State) (t : Team) : Bool :=
  ((t.bound? 7).bind (fun q => (t.queue q).entries.head?)).any (fun e =>
    match s.translate t.tenant (e.val.toNat / 64 * 64) .read with
    | .ok pa => s.fetchHeld pa || s.bankHeld pa
    | .error _ => false)

/-- The descriptor of a port's command, read at its home; none where the read faults (18 R330). What another module answers is a
free value (assumption log 6); an uncorrectable error is a fault of the read, and its row's test follows (assumption log 46). -/
def State.portRead (s : State) (c : RowCmd) (va : Nat) : Option (List Byte) × State :=
  match s.translate c.tenant va .read with
  | .error _ => (none, s)
  | .ok pa =>
    if s.isRemote pa then
      if (s.remoteRefusal pa va).isSome || (s.remoteAnswer pa va false).isSome then (none, s)
      else
        let (bs, s) := (s.engineLoads pa 64).drawBytes 64
        (some bs, s)
    else match s.badSector [(pa, 64)] with
      | some x => (none, s.rowEcc c x)
      | none => (some (s.homeBytes pa 64), s.engineLoads pa 64)

/-- ROW_CMD_PORT_TAKE (18 R330): the port takes the entry at the head of the team's queue, reads the
descriptor at its home and enters the command. -/
def execRowCmdPortTake (s : State) : Result :=
  let t := s.team s.ev.obj
  match (if s.preempting t.id || s.portHeld t then none else t.bound? 7) with
  | none => .next s
  | some q =>
    match s.engineTake t.id q true with
    | none => .next s
    | some (e, s) =>
      let (n, s) := s.fresh
      let va := e.val.toNat / 64 * 64
      let l := (s.launch? t.die t.launch).getD { die := t.die, num := t.launch }
      let vwin := ((s.groups.find? (fun (g : Group) => g.team == t.id)).map (fun (g : Group) => g.vwin)).getD l.desc.vwin
      let base : RowCmd :=
        { id := n, team := t.id, launch := t.launch, tenant := t.tenant, die := t.die, serial := n,
          op := e.val.toNat % 64, queue := q, st := .reading, vwin := vwin, port := some va,
          origin := (l.origin e.pc.toNat).1 }
      .next (match s.portRead base va with
        | (some bs, s) => { s with rows := s.rows ++ [base.ofBytes bs] }
        | (none, s) => { s.engineFault t.die t.launch base.origin with rows := s.rows ++ [{ base with unread := true }] })

/-- REFRESH_DUE (18 R344): while a running command holds the bank its refresh is postponed, else it is issued. -/
def execRefreshDue (s : State) : Result :=
  let bank := (s.ev.obj * 64 + s.ev.sub) * 16 + s.ev.aux
  let held := s.rows.any (fun c => c.st == .run && c.worked && c.held.contains bank)
  .next (if held then { s with postponed := Sparse.put 0 s.postponed bank (Sparse.get 0 s.postponed bank + 1) } else s)

end Sys2Proof.Machine
end

