-- ==== Sys2Proof/Machine/Firmware.lean ====
section
/-! DEFINITION. Firmware's work on faults (21 R376, R377, 15 R288, 16 R303), its services (21 R378, 18 R348), and the
failures of structures with their targeted tests (08 R166, R167, 18 R346, 21 R387, R388). -/

namespace Sys2Proof.Machine

open Sys2Proof

/-! ### Faults (21 R376) -/

/-- The cause of a group's trap. -/
def Group.cause (g : Group) : Nat := g.trapCause.toNat % 256
/-- The detail of a group's trap. -/
def Group.detail (g : Group) : Nat := g.trapCause.toNat / 256

/-- The team of a group, resident or saved. -/
def State.anyTeam? (s : State) (id : Nat) : Option Team :=
  match s.team? id with
  | some t => some t
  | none => (s.saved.find? (fun (v : Saved) => v.team.id == id)).map (·.team)

/-- The inner iterations that the lowest trapping lane has completed (16 R303). -/
def Group.iterations (g : Group) : Nat :=
  match lanesOf g.trapMask with
  | [] => 0
  | i :: _ => (g.lane i).checks

/-- The record fields of a launch that an unhandled trap ends (15 Table 15-4, 16 R303). -/
def Launch.fail (l : Launch) (g : Group) : Launch :=
  let (o, orig) := l.origin g.trapPc.toNat
  match l.splice with
  | none => { l with fpc := g.trapPc }
  | some sp =>
    if 2 ≤ o then { l with
      iter := g.iterations
      splice := some { sp with
        cstatus := 1
        cfpc := w64 orig } }
    else { l with
      fpc := w64 orig
      splice := some { sp with
        cstatus := 6
        citer := g.iterations } }

/-- A trap that firmware does not handle ends the grid with `FAULT` (07 R137, 09 R186, 15 R286, 16 R303); the first
one fills the record. -/
def State.unhandled (s : State) (g : Group) : State :=
  match s.anyTeam? g.team with
  | none => s
  | some t => match s.launch? t.die t.launch with
    | none => s
    | some l =>
      let consumer := l.splice.isSome && 2 ≤ (l.origin g.trapPc.toNat).1
      let s' := s.abortLaunch l.die l.num (if consumer then 6 else 1) 1
      if l.gives s.ticks 1 then s'.modLaunch l.die l.num (fun l => l.fail g) else s'

/-- Whether a page fault at a tenant's address is resolved: it is mapped by now, or lies in a demand-mapped region. -/
def State.resolvePage (s : State) (tenant a : Nat) : Bool × State :=
  if (s.page? tenant a).isSome then (true, s) else if canonical a then s.mapDemand tenant a else (false, s)

/-- Whether an access at a tenant's address can be performed after firmware's handling. -/
def State.resolveAccess (s : State) (tenant a : Nat) (write : Bool) : Bool × State :=
  let k := if write then Access.write else .read
  match s.translate tenant a k with
  | .ok _ => (true, s)
  | .error t =>
    if t.cause != 6 then (false, s)
    else
      let (_, s) := s.mapDemand tenant a
      match s.translate tenant a k with
      | .ok _ => (true, s)
      | .error _ => (false, s)

/-- Why an access at a tenant's address is refused as one to another module (22 R398). -/
def State.refusedAt (s : State) (tenant a : Nat) : Option Trap :=
  match s.translate tenant a .read with
  | .ok pa => s.remoteRefusal pa a
  | .error _ => none

/-- Whether the modules of a trap that was refused for their time bases are synced again (22 R398). -/
def State.resynced (s : State) (g : Group) : Bool :=
  s.synced && (match s.page? g.tenant g.trapAddr.toNat with
    | none => true
    | some p =>
      let x := Sparse.get 0 s.peers (moduleOf (p.pa + (g.trapAddr.toNat - p.va)))
      x != 1 && x != 4)

/-- The groups of the fault queues that wait on a page of a tenant which is mapped by now. -/
def State.freedBy (s : State) (tenant a : Nat) : List Nat :=
  match s.page? tenant a with
  | none => []
  | some p => (s.faultq ++ s.faultWait).flatten.filterMap (fun e => match e with
      | .group id => match s.anyGroup? id with
        | some g =>
          if g.tenant == tenant && g.cause == 6 && p.va ≤ g.trapAddr.toNat && g.trapAddr.toNat < p.va + p.size then some id else none
        | none => none
      | _ => none)

/-- Lets groups replay, their entries gone from the fault queues. -/
def State.replay (s : State) (ids : List Nat) : State :=
  let gone := fun (e : FaultEntry) => match e with
    | .group id => ids.contains id
    | _ => false
  let s := s.dropFaults gone
  { s with agenda := ids.map (fun id => evWork .laneReplay id) ++ s.agenda }

/-- The debug session of a tenant. -/
def State.debugOf (s : State) (tenant : Nat) : Option Nat := (s.debugs.find? (fun x => x.2 == tenant)).map (·.1)

/-- Whether a group's trap is that of a closing check, which is never resumed (16 R300). -/
def State.closing (s : State) (g : Group) : Bool :=
  match s.anyTeam? g.team with
  | none => false
  | some t => (s.launch? t.die t.launch).any (fun l => (l.origin g.trapPc.toNat).1 == 3)

/-- The capability of a group's image, made where the group has none yet (21 R367, R377). -/
def State.imageOf (s : State) (g : Group) : Capability × State :=
  if capIs g.imgCap 3 then (g.imgCap, s)
  else
    let (c, s) := s.imageCap g
    (c, s.modAnyGroup g.id (fun g => { g with imgCap := c }))

/-- Firmware resolves the trap of a group (21 R376). A debug session is sent the address of its image. -/
def State.resolveGroup (s : State) (g : Group) : State :=
  if g.cause == 6 then
    match s.resolvePage g.tenant g.trapAddr.toNat with
    | (true, s) => s.replay (g.id :: s.freedBy g.tenant g.trapAddr.toNat)
    | (false, s) => s.unhandled g
  else if g.cause == 7 then
    if g.detail == 3 then
      if s.resynced g then s.replay [g.id] else { s with held := s.held ++ [(g.id, s.ticks)] }
    else s.unhandled g
  else match (if s.closing g then none else s.debugOf g.tenant) with
    | none => s.unhandled g
    | some x =>
      let (c, s) := s.imageOf g
      { s.sendEvent x (leOf 8 c.base) with delivered := s.delivered ++ [g.id] }

/-- Firmware resolves a fault of a write of a completion record or signal (15 R285). -/
def State.resolveRecord (s : State) (l : Launch) (signal : Bool) : State :=
  let set := fun (s : State) (n : Nat) => s.modLaunch l.die l.num (fun l => { l with stage := n })
  let a := (if signal then l.desc.signal else l.desc.compl).toNat
  let lost := fun (s : State) => s.report { sev := 1, src := 11, tenant := l.tenant, launch := l.num }
  match s.resolveAccess l.tenant a true with
  | (true, s) => set s (if signal then 3 else 1)
  | (false, s) => set (lost s) (if signal then 5 else 3)

/-- Firmware resolves an entry of a die's fault queue. A texture request that is refused for the modules' time bases is held
for up to 10 s, as a lane is; any other refusal by a module stands (11 R232, 21 R376). -/
def State.resolveEntry (s : State) (die : Nat) (e : FaultEntry) : State :=
  match e with
  | .group id => match s.anyGroup? id with
    | some g => if g.stopped then s.resolveGroup g else s
    | none => s
  | .copy id a w => match s.copy? id with
    | none => s
    | some c => match s.resolveAccess c.tenant a w with
      | (true, s) => s.modCopy id (fun c => { c with waiting := false })
      | (false, s) => s.modCopy id (fun c =>
        { c with
          waiting := false
          status := if c.status != 0 then c.status else if w then 4 else 3 })
  | .row id a w => match s.row? id with
    | none => s
    | some c => match s.resolveAccess c.tenant a w with
      | (true, s) => s.modRow id (fun (c : RowCmd) => { c with st := RowState.entered })
      | (false, s) => s.rowDone id (if w then 3 else 2)
  | .texture team a => match s.tex.find? (fun (x : TexReq) => x.team == team && x.wait) with
    | none => s
    | some q =>
      let stands := fun (s : State) => s.setTex { q with wait := false }
      if q.hard then stands s
      else match s.resolveAccess q.tenant a false with
      | (false, s) => stands s
      | (true, s) => match s.refusedAt q.tenant a with
        | none => s.setTex { q with
            wait := false
            failed := 0 }
        | some x =>
          if x.detail == 3 && s.ticks < q.since + 80000000000 then s.enqueueFault die (.texture team a) else stands s
  | .record n signal => match s.launch? die n with
    | none => s
    | some l => s.resolveRecord l signal

/-- Entries that wait for room enter their die's fault queue as its slots free (15 R288). -/
def State.fillFaults (s : State) : State := [0, 1].foldl (fun s die => s.setFaults die (s.faults die)) s

/-- FAULT_RESOLVE (21 R376, 15 R288): the next entry of a die's fault queue; entries that wait for room enter. -/
def execFaultResolve (s : State) : Result :=
  let die := s.ev.obj
  match s.faultq.getD die [] with
  | [] => .next s
  | e :: rest => .next (({ s with faultq := setAt s.faultq die rest }.resolveEntry die e).fillFaults)

/-- Whether a group's trap is not resolved yet. -/
def State.faultPending (s : State) (id : Nat) : Bool :=
  s.faultq.any (fun q => q.any (· == .group id)) || s.faultWait.any (fun q => q.any (· == .group id)) || s.held.any (·.1 == id) ||
    s.delivered.contains id

/-- LANE_REPLAY (07 R137): a group whose trap is resolved goes on. -/
def execLaneReplay (s : State) : Result :=
  let id := s.ev.obj
  .next (if s.faultPending id then s else s.resumeTrap id [])

/-- SYNC_HOLD_TIMEOUT (21 R376): a group held for 10 s on a synchronisation refusal; its trap is unresolvable. -/
def execSyncHoldTimeout (s : State) : Result :=
  let id := s.ev.obj
  match s.held.find? (fun x => x.1 == id), s.anyGroup? id with
  | some x, some g =>
    if s.resynced g || s.ticks < x.2 + 80000000000 then .next s
    else .next ({ s with held := s.held.filter (fun y => y.1 != id) }.unhandled g)
  | _, _ => .next s

/-! ### Firmware calls (09 R187, 21 R378, 18 R348) -/

/-- A byte of a boot slot's image. -/
def BootSlot.byte (x : BootSlot) (i : Nat) : Byte :=
  match x.img.find? (fun c => c.1 == i) with
  | some c => c.2
  | none => if x.factory then Config.factoryByte i else 0

/-- A little-endian field of a boot slot's image. -/
def BootSlot.field (x : BootSlot) (off n : Nat) : Nat := leVal ((List.range n).map (fun i => x.byte (off + i)))

/-- The security version number of the running image (21 R383). -/
def State.svn (s : State) : Nat :=
  match s.running with
  | none => 0
  | some i => (s.slots.getD i {}).field 0x008 4

/-- Moves the bytes of a frame to another (18 R348). -/
def State.moveFrame (s : State) (src dst size : Nat) : State :=
  let cells := (s.mem.filter (fun c => src ≤ c.1 && c.1 < src + size)).map (fun c => (c.1 - src + dst, c.2))
  let base := s.mem.filter (fun c => !(dst ≤ c.1 && c.1 < dst + size))
  let out := fun (l : L1Line) => !(meets (l.line * 128) 128 src size) && !(meets (l.line * 128) 128 dst size)
  { s with
    mem := Memory.setCells base cells
    l1 := s.l1.filter out }

/-- Moves a page to another tier, once every access that used its mapping is performed: the result (18 R348), none
while one is not. -/
def State.tierMove (s : State) (tenant arg : Nat) : Option W64 × State :=
  let a := arg / 2 * 2
  let low := arg % 2 == 1
  match s.page? tenant a with
  | none =>
    let (v, s) := s.drawWord
    (some v, s)
  | some p =>
    if s.isRemote p.pa then
      let (v, s) := s.drawWord
      (some v, s)
    else if low != isHbm p.pa then (some 0, s)
    else
      let inside := fun (l : L1Line) => meets (l.line * 128) 128 p.pa p.size
      let s := (s.l1.filter inside).foldl (fun s l => s.writeBack l.core l.line) s
      if s.pageInUse p then (none, s)
      else
        let (f, s) := if low then s.freeFrame hbmEnd memEnd p.size else s.freeFrame 0 hbmEnd p.size
        match f with
        | none => (some 1, s)
        | some f =>
          let s := s.moveFrame p.pa f p.size
          (some 0, { s with
            pages := updWhere (fun (x : Page) => x == p) (fun x => { x with pa := f }) s.pages
            tlb := s.tlb.filter (fun (x : Nat × Page) => x.2 != p) })

/-- Firmware's answer to one lane's call: none while a move has to wait (21 R378). -/
def State.serviceCall (s : State) (tenant svc : Nat) (arg : W64) : Option W64 × State :=
  let ones := w64 (2 ^ 64 - 1)
  if svc == 0 then (some (Config.fwVersion ++ w32 s.svn), s)
  else if svc == 0x10 then s.tierMove tenant arg.toNat
  else if 0x80 ≤ svc && s.services.contains svc then
    let (v, s) := s.drawWord
    (some v, s)
  else (some ones, s)

/-- The answers to the lanes of a call, in ascending order. -/
def State.serviceCalls (s : State) (tenant svc : Nat) : List W64 → Option (List W64) × State
  | [] => (some [], s)
  | a :: r => match s.serviceCall tenant svc a with
    | (none, s) => (none, s)
    | (some v, s) => match s.serviceCalls tenant svc r with
      | (none, s) => (none, s)
      | (some vs, s) => (some (v :: vs), s)

/-- The cells of a call's destination: a pair, a `k` register, or a queue. -/
def callCells (dst : Nat) (conv : Bool) : List RCell :=
  if !conv then [.g dst, .g (dst + 1)] else if dst < 0x40 then [.k dst] else [.q (dst - 0x40)]

/-- Writes a lane's result of a call (09 R187), in place of any earlier result that is still pending for its destination
(02 R35 rule 2): to a pair, a `k` register, or as a result for a queue; with a lookahead window of `la` instructions left,
as a result that retires at its end. -/
def State.answerLane (s : State) (gid i dst : Nat) (conv : Bool) (la : Nat) (v : W64) : State :=
  let cells := destVals (callCells dst conv) [v]
  match cells with
  | [(.q q, v)] =>
    let (n, s) := s.fresh
    let p : Pend := { serial := n, window := 0, cells := [(.q q, some v)], tick := s.ticks,
                      pc := ((s.group gid).lane i).pc - 8 }
    s.modLane gid i (fun l => { l with pend := l.pend ++ [p] })
  | _ =>
    let s := s.modLane gid i (fun l => l.dropCells (cells.map (·.1)))
    if la == 0 then s.modGroup gid (fun g => cells.foldl (fun g c => g.writeNow i c.1 c.2 s.serial) g)
    else
      let (n, s) := s.fresh
      let p : Pend := { serial := n, window := la, cells := cells.map (fun c => (c.1, some c.2)), tick := s.ticks }
      s.modLane gid i (fun l => { l with pend := l.pend ++ [p] })

/-- FWCALL_ANSWER (09 R187, 21 R378): once the group's earlier accesses are performed and its engines have answered, as for
a `FENCE.DIE` (07 R140), firmware answers. -/
def execFwcallAnswer (s : State) : Result :=
  match s.group? s.ev.obj with
  | none => .next s
  | some g =>
    match g.wait with
    | .fwcall lanes svc dst conv la args =>
      if !s.drained g.id || s.engineOwes g.id || g.lanes.any (fun l => s.ticks < l.back) then .next s
      else match s.serviceCalls g.tenant svc args with
        | (none, s) => .next s
        | (some vs, s) =>
          let s := ((lanesOf lanes).zip vs).foldl (fun s x => s.answerLane g.id x.1 dst conv la x.2) s
          .next (s.modGroup g.id (fun g => { g with wait := .none }))
    | _ => .next s

/-! ### Failures and tests -/

/-- CORE_STRUCTURE_UNCORRECTABLE (08 R166): every team of the core ends with `CORE_ERROR`; the targeted test runs on
the partition concerned, which is a free value. -/
def execCoreStructureUncorrectable (s : State) : Result :=
  let core := s.ev.obj
  let (d, s) := s.drawNat
  let ts := s.teams.filter (fun (t : Team) => t.core == core && t.finished.isNone)
  let s := ts.foldl (fun s t => s.abortLaunch t.die t.launch 2) s
  let tenant := (ts.map (fun (t : Team) => t.tenant)).headD 0xFFFF
  .next (s.raiseError { sev := 1, src := 1, tenant := tenant } 1 (core * 4 + d % 4))

/-- The stack whose Meridian runs a command (18 R329): that of its first destination row, or of the pseudo-channel named. -/
def State.rowStack (s : State) (c : RowCmd) : Option Nat :=
  match s.translate c.tenant (if usesD c.op then c.d else c.s0) .read with
  | .ok pa => some (s.dram pa).stack
  | .error _ => none

/-- STACK_FAILURE (18 R346): every command on the stack ends with `ECC`, its `DONE` the rows completed. -/
def execStackFailure (s : State) : Result :=
  let k := s.ev.obj
  let on := fun (c : RowCmd) => s.rowStack c == some k && (match c.st with
    | .run | .yield _ | .refresh => true
    | _ => false)
  .next ((s.rows.filter on).foldl (fun s c => s.rowDone c.id 5) s)

/-- Whether the bank of a DRAM row, by the row's number, has a spare row left (21 Table 21-8). -/
def State.hasSpareRow (s : State) (loc : Nat) : Bool := Sparse.get 0 s.rowSpares (loc / 32768) < 32

/-- The pages on a block of physical memory. -/
def State.pagesOn (s : State) (base size : Nat) : List Page := s.pages.filter (fun (p : Page) => meets p.pa p.size base size)

/-- The L1 lines of the pages on a block are written back before the pages are moved (21 R388, 18 R348). -/
def State.flushBlock (s : State) (base size : Nat) : State :=
  let on := fun (l : L1Line) => (s.pagesOn base size).any (fun (p : Page) => meets (l.line * 128) 128 p.pa p.size)
  (s.l1.filter on).foldl (fun s l => s.writeBack l.core l.line) s

/-- The action of a lasting failure (21 Table 21-8), with its code. -/
def State.spare (s : State) (x : PendingTest) : Nat × State :=
  let core := fun (n : Nat) (f : Core → Core) (s : State) => { s with cores := modAt f s.cores n }
  match x.kind with
  | 1 =>
    let c := x.loc / 4
    (5, core c (fun k => { k with fenced := if k.fenced.contains (x.loc % 4) then k.fenced else k.fenced ++ [x.loc % 4] }) s)
  | 2 => (4, core (x.loc / 2048) (fun k => { k with units := k.units ++ [x.loc % 2048 / 32] }) s)
  | 3 => (6, core (x.loc / 128) (fun k =>
      { k with l1ways := Sparse.put 0 k.l1ways (x.loc % 128) (min 8 (Sparse.get 0 k.l1ways (x.loc % 128) + 1)) }) s)
  | 4 =>
    let vault := x.loc / 2 ^ 19
    let used := Sparse.get 0 s.spares vault
    if used < 1024 then
      (3, { s with
        spares := Sparse.put 0 s.spares vault (used + 1)
        poison := if s.poison.contains (2, x.loc) then s.poison else s.poison ++ [(2, x.loc)] })
    else (3, { s with badBlocks := s.badBlocks ++ [x.loc / 512] })
  | 5 =>
    if s.hasSpareRow x.loc then
      (1, { s with rowSpares := Sparse.put 0 s.rowSpares (x.loc / 32768) (Sparse.get 0 s.rowSpares (x.loc / 32768) + 1) })
    else
      let (base, size) := s.rowBlock x.loc
      let frames := (List.range (size / 16384)).map (fun i => base + 16384 * i)
      let s := { s with retired := s.retired ++ frames }
      let move := fun (s : State) (p : Page) =>
        let (f, s) := s.freeFrame 0 hbmEnd p.size
        match f with
        | none => s
        | some f =>
          let s := s.moveFrame p.pa f p.size
          { s with pages := updWhere (fun (y : Page) => y == p) (fun y => { y with pa := f }) s.pages }
      (2, (s.pagesOn base size).foldl move s)
  | 6 => (7, core (x.loc / 4) (fun k => { k with seqs := k.seqs ++ [x.loc % 4] }) s)
  | _ => (6, { s with mscWays := Sparse.put 0 s.mscWays x.loc (min 16 (Sparse.get 0 s.mscWays x.loc + 1)) })

/-- The end of a structure's test (21 R388): its action is taken where it fails, and its records take their result. `open_` says
which results are settled by it. -/
def State.settleTest (s : State) (x : PendingTest) (pass : Bool) (open_ : List Nat) : State :=
  let (action, s) := if pass then (0, s) else s.spare x
  let mine := fun (e : ErrorRec) => e.src == testSource x.kind && e.loc == x.loc && open_.contains e.result
  { s with errors := updWhere mine (fun e =>
    { e with
      result := if pass then 1 else 2
      action := action }) s.errors }

/-- Whether the action of a test has to wait: its block of frames is to be retired, and an access that uses a page on it has not
been performed (21 R388, 18 R348). -/
def State.actionWaits (s : State) (x : PendingTest) : Bool :=
  x.kind == 5 && !s.hasSpareRow x.loc && (s.pagesOn (s.rowBlock x.loc).1 (s.rowBlock x.loc).2).any s.pageInUse

/-- TARGETED_TEST_DONE (21 R388): the test of a structure passes, or its action is taken. That of a partition goes on until
the groups on it, which are pre-empted first, have left it (08 R167). A frame to be retired is moved once every access that
used it is performed. -/
def execTargetedTestDone (s : State) : Result :=
  match s.tests.find? (fun (x : PendingTest) => x.num == s.ev.obj) with
  | none => .next s
  | some x =>
    if x.kind == 1 && !(s.partGroups x.loc).isEmpty then .next s
    else
    let pass := s.ev.flag && !x.lasting
    let s := if !pass && x.kind == 5 && !s.hasSpareRow x.loc then s.flushBlock (s.rowBlock x.loc).1 (s.rowBlock x.loc).2 else s
    if !pass && s.actionWaits x then
      .next { s with tests := updWhere (fun (y : PendingTest) => y.num == x.num) (fun y => { y with lasting := true }) s.tests }
    else
    .next ({ s with tests := s.tests.filter (fun (y : PendingTest) => y.num != x.num) }.settleTest x pass [0])

end Sys2Proof.Machine
end

