-- ==== Sys2Proof/Machine/HostQueues.lean ====
section
/-! DEFINITION. Host queues and their packets (21 R368 to R375, 20 R356, R364, 16 R290). -/

namespace Sys2Proof.Machine

open Sys2Proof

/-! ### Queues (21 R370 to R372) -/

/-- A queue by its number. -/
def State.queue? (s : State) (n : Nat) : Option HostQueue := s.queues.find? (fun (q : HostQueue) => q.num == n)

/-- Changes a queue. -/
def State.modQueue (s : State) (n : Nat) (f : HostQueue → HostQueue) : State :=
  { s with queues := updWhere (fun (q : HostQueue) => q.num == n) f s.queues }

/-- The codes with which a queue halts (21 R370 to R372). -/
inductive Halt where
  | unknownOp | reservedNz | capFault | argBad | indexBad | watchdog
  deriving DecidableEq, Repr

/-- A halt code as an error record holds it; the numbers are the implementation's (assumption log 21). -/
def Halt.code : Halt → Nat
  | .unknownOp => Config.haltCode 0
  | .reservedNz => Config.haltCode 1
  | .capFault => Config.haltCode 2
  | .argBad => Config.haltCode 3
  | .indexBad => Config.haltCode 4
  | .watchdog => Config.haltCode 5

/-- A queue halts (21 R371): `RI` stays, and an error record names the queue, `RI` and the code. A `SIGNAL` whose write is at its
home stays so: its effect is taken when the home performs it. -/
def State.haltQueue (s : State) (q : HostQueue) (h : Halt) : State :=
  (s.modQueue q.num (fun q =>
    { q with
      st := .halted
      now := if q.busy.isSome then q.now else none
      seen := [] })).report { sev := 1, src := 10, code := h.code, loc := q.ri, tenant := q.tenant, queue := q.num }

/-- Whether a queue's capability allows an access of n bytes at an address (21 R368): 1 read, 2 write. -/
def capAllows (c : Capability) (perm a n : Nat) : Bool :=
  capIs c 0 && c.base ≤ a && a + n ≤ c.base + c.len && c.perm.toNat / perm % 2 == 1

/-- A queue's packet has taken its effect: `RI` moves, and `NOTIFY` sends an event with the packet's `PID`
(21 Table 21-2). A queue that halted meanwhile stays halted. -/
def State.packetDone (s : State) (q : HostQueue) (pk : List Byte) : State :=
  let s := s.modQueue q.num (fun q =>
    { q with
      ri := q.ri + 1
      st := if q.st == .halted then .halted else if q.ri + 1 == q.wi then .empty else .run
      now := none
      seen := []
      busy := none })
  if fieldAt pk 0 8 / 2 ^ 9 % 2 == 1 then
    let who := s.tenantSessions q.tenant
    who.foldl (fun s x => s.sendEvent x (leOf 4 (fieldAt pk 4 4))) s
  else s

/-- A queue waits at its packet, its watchdog running (21 Table 21-4). -/
def State.queueWait (s : State) (q : HostQueue) (pk : List Byte) : State :=
  s.modQueue q.num (fun q => match q.st with
    | .wait _ => q
    | _ => { q with st := .wait s.ticks, now := some pk })

/-- The payload bytes that each opcode uses (21 Table 21-3), as offset and length; none for an unassigned opcode. -/
def packetUses (op : Nat) : Option (List (Nat × Nat)) :=
  match op with
  | 1 | 2 => some [(8, 8)]
  | 3 | 4 => some [(8, 8), (16, 8), (24, 8)]
  | 5 => some [(8, 8), (16, 8)]
  | 6 => some [(8, 8), (16, 8)]
  | 7 => some [(8, 8), (16, 4), (24, 8), (32, 8), (40, 8)]
  | _ => none

/-- Whether the reserved bits of a packet are zero (21 R371 check 2): the header's, the bytes that the opcode does not
use, and the bits that Table 21-3 gives as zero. -/
def packetReservedOk (op : Nat) (uses : List (Nat × Nat)) (pk : List Byte) : Bool :=
  let head := fieldAt pk 0 8
  let used := fun (i : Nat) => i < 8 || uses.any (fun u => u.1 ≤ i && i < u.1 + u.2)
  let bits := match op with
    | 3 => fieldAt pk 24 8 < 2
    | 4 => fieldAt pk 24 8 < 4
    | 5 => fieldAt pk 16 8 < 2
    | 6 => fieldAt pk 8 8 < 256
    | 7 =>
      let w := fieldAt pk 8 8
      w % 2 ^ 8 < 64 && w / 2 ^ 9 % 2 ^ 7 == 0 && w / 2 ^ 24 == 0
    | _ => true
  head / 2 ^ 10 % 2 ^ 22 == 0 && (List.range 64).all (fun i => used i || pk.getD i 0 == 0) && bits

/-- Whether a launch taken from the queue has not ended (21 Table 21-2, `BAR`). -/
def State.barred (s : State) (q : HostQueue) (pk : List Byte) : Bool :=
  fieldAt pk 0 8 / 2 ^ 8 % 2 == 1 && q.launches.any (fun x =>
    s.launches.any (fun (l : Launch) => l.die == x.1 && l.num == x.2 && !l.ended))

/-- The mark of a queue's write at a home. -/
def HostQueue.mark (q : HostQueue) : Nat := 2 ^ 40 + q.num

/-- What the checks and the effect of a packet come to. -/
inductive PacketEnd where
  | halt (h : Halt) (s : State)
  | wait (s : State)
  | done (s : State)
  | busy (line : Nat) (s : State)

/-- Whether a queue processes its packet: it runs or waits, and firmware reaches its ring and its state (21 R367, R372). -/
def HostQueue.live (q : HostQueue) : Bool :=
  q.ri < q.wi && capIs q.ringCap 1 && capIs q.stateCap 2 && (match q.st with
    | .run | .wait _ => true
    | _ => false)

/-- A packet of an opcode runs at the read index of a queue (21 R371, R372): opcode, reserved bits, then what the
opcode checks, the barrier, and its effect. An unassigned opcode halts the queue, whichever of them meets it. A packet that the
queue waits at has passed its checks; `reach` is done when the queue first comes to it. A packet whose write is at its home
takes its effect when that is performed. -/
def State.runPacket (s : State) (op : Nat) (check : State → HostQueue → List Byte → Option Halt × State)
    (act : State → HostQueue → List Byte → PacketEnd)
    (reach : State → HostQueue → List Byte → State := fun s _ _ => s) : State :=
  match s.queue? s.ev.obj with
  | none => s
  | some q =>
    match q.busy with
    | some line =>
      if (s.home line).queue.any (fun w => w.origin == q.mark) then s else s.packetDone q (q.now.getD [])
    | none =>
      let pk := q.now.getD (s.packet q)
      let here := fieldAt pk 0 1
      if !q.live then s
      else match packetUses here with
      | none => s.haltQueue q .unknownOp
      | some uses =>
        if here != op then s
        else if q.now.isNone && !packetReservedOk op uses pk then s.haltQueue q .reservedNz
        else match (if q.now.isNone then check s q pk else (none, s)) with
          | (some h, s) => s.haltQueue q h
          | (none, s) =>
            if s.barred q pk then (if q.now.isNone then reach s q pk else s).queueWait q pk
            else match act s q pk with
              | .halt h s => s.haltQueue q h
              | .wait s => s.queueWait q pk
              | .busy line s => s.modQueue q.num (fun q => { q with st := .run, now := some pk, busy := some line })
              | .done s => s.packetDone q pk

/-! ### Launches (21 R371, 15 R271, 16 R290) -/

/-- The check of a launch descriptor's address fields (21 R368, Table 21-3). -/
def launchCaps (c : Capability) (d : LaunchDesc) : Bool :=
  capAllows c 2 d.compl.toNat 64 && (d.signal == 0 || capAllows c 2 d.signal.toNat 8) &&
  (d.kind != 1 || d.count == 0 || capAllows c 1 d.initrec.toNat (32 * d.count))

/-- The checks of a packet's launch descriptor, in their order (21 R371): legal under the capability with the fields that it
names, then aligned and readable. -/
def State.checkDesc (s : State) (q : HostQueue) (a : Nat) : Option Halt × State :=
  if !capAllows q.qdata 1 a 128 then (some .capFault, s)
  else match s.tenantRead q.tenant a 128 with
    | (none, s) => (some .argBad, s)
    | (some bs, s) =>
      (if !launchCaps q.qdata (LaunchDesc.ofBytes bs) then some .capFault else if a % 64 != 0 then some .argBad else none, s)

/-- The checks of several descriptors: any capability fault comes before any other (21 R371). -/
def State.checkDescs (s : State) (q : HostQueue) : List Nat → Option Halt × State
  | [] => (none, s)
  | a :: r => match s.checkDesc q a with
    | (some .capFault, s) => (some .capFault, s)
    | (x, s) => match s.checkDescs q r with
      | (some .capFault, s) => (some .capFault, s)
      | (y, s) => (x.or y, s)

/-- PKT_LAUNCH (21 R371): the descriptor goes to a front end. -/
def execPktLaunch (s : State) : Result :=
  .next (s.runPacket 1 (fun s q pk => s.checkDesc q (fieldAt pk 8 8)) (fun s q pk =>
    let ev : Subject := { sub := q.tenant, val := w64 (fieldAt pk 8 8), aux := q.num + 1 }
    .done { s with agenda := .event .launchTake ev :: s.agenda }))

/-- PKT_PAIR (16 R290): the pair record goes to a front end. -/
def execPktPair (s : State) : Result :=
  .next (s.runPacket 2 (fun s q pk =>
    let a := fieldAt pk 8 8
    if !capAllows q.qdata 1 a 64 then (some .capFault, s)
    else match s.tenantRead q.tenant a 64 with
      | (none, s) => (some .argBad, s)
      | (some pr, s) => s.checkDescs q [fieldAt pr 0 8, fieldAt pr 8 8]) (fun s q pk =>
    let ev : Subject := { sub := q.tenant, val := w64 (fieldAt pk 8 8), aux := q.num + 1 }
    .done { s with agenda := .event .pairTake ev :: s.agenda }))

/-! ### Signals (21 R373) -/

/-- PKT_SIGNAL (21 Table 21-3): a store or an atomic add at the signal's home; the packet is done once it is
performed. -/
def execPktSignal (s : State) : Result :=
  .next (s.runPacket 3 (fun s q pk =>
    let a := fieldAt pk 8 8
    if !capAllows q.qdata 2 a 8 then (some .capFault, s)
    else if a % 8 != 0 then (some .argBad, s)
    else match s.resolveAccess q.tenant a true with
      | (true, s) => (none, s)
      | (false, s) => (some .argBad, s)) (fun s q pk =>
    let a := fieldAt pk 8 8
    match s.translate q.tenant a .write with
    | .error _ => .halt .argBad s
    | .ok pa =>
      let op := if fieldAt pk 24 8 == 0 then
          WriteOp.store ((List.range 8).map (fun i => (pa + i, pk.getD (16 + i) 0)))
        else .atom pa 0 2 (w64 (fieldAt pk 16 8))
      let s := s.writeAtHome (pa / 128) { op := op, origin := q.mark }
      if (s.home (pa / 128)).queue.any (fun w => w.origin == q.mark) then .busy (pa / 128) s else .done s))

/-- The value of a `WAIT` packet's word, where it can be read and meets the condition. -/
def State.waitMet (s : State) (q : HostQueue) (pk : List Byte) : Option (Option W64) × State :=
  match s.tenantRead q.tenant (fieldAt pk 8 8) 8 with
  | (none, s) => (none, s)
  | (some bs, s) =>
    let v := w64 (leVal bs)
    (some (if waitCond (fieldAt pk 24 1) v (w64 (fieldAt pk 16 8)) then some v else none), s)

/-- PKT_WAIT (21 R373): the word meets the condition now, or has since the queue reached the packet, also while a barrier held
that. A word of another module has a free value (assumption log 6). -/
def execPktWait (s : State) : Result :=
  .next (s.runPacket 4 (fun s q pk =>
    let a := fieldAt pk 8 8
    if !capAllows q.qdata 1 a 8 then (some .capFault, s)
    else if a % 8 != 0 then (some .argBad, s)
    else match s.resolveAccess q.tenant a false with
      | (true, s) => (none, s)
      | (false, s) => (some .argBad, s)) (fun s q pk =>
    match s.waitMet q pk with
    | (none, s) => .halt .argBad s
    | (some v, s) => if v.isSome || !q.seen.isEmpty then .done s else .wait s)
    (fun s q pk => match s.waitMet q pk with
      | (some (some v), s) => s.modQueue q.num (fun q => { q with seen := q.seen ++ [v] })
      | (_, s) => s))

/-- Whether a launch ends in this cycle of itself (21 R374): its last group has ended. -/
def State.endsNow (s : State) (l : Launch) : Bool := l.status.isNone && s.launchIdle l

/-- PKT_KILL (21 R374): a launch of the queue's tenant ends with `KILLED`. The consumer of a spliced pair ends with its
producer (16 R303). -/
def execPktKill (s : State) : Result :=
  .next (s.runPacket 5 (fun s _ _ => (none, s)) (fun s q pk =>
    match s.launch? (fieldAt pk 16 8) (fieldAt pk 8 8) with
    | none => .done s
    | some l =>
      let x := match l.spliced, l.after with
        | true, some p => (s.launch? p.1 p.2).getD l
        | _, _ => l
      if x.tenant != q.tenant || x.ended || s.endsNow x then .done s else .done (s.abortLaunch x.die x.num 9)))

/-! ### Cameras and sessions (20 R356, R364) -/

/-- A camera descriptor from its 104 bytes (20 Table 20-1). -/
def CameraDesc.ofBytes (bs : List Byte) : CameraDesc :=
  let n := fieldAt bs
  { w := n 0 2, h := n 2 2, c := n 4 1, rolling := n 5 1 / 2 % 2 == 1, epoch := n 0x08 8, period := n 0x10 8, expo := n 0x18 8,
    rowt := n 0x20 8, lam0 := w32 (n 0x28 4), invd := w32 (n 0x2C 4), s := n 0x30 2, resp := n 0x38 8, plane0 := n 0x40 8,
    plane1 := n 0x48 8, devdesc := n 0x50 8, devdl := n 0x58 8, frec := n 0x60 8 }

/-- Whether an F32 is above zero. -/
def posF32 (w : W32) : Bool := !w.getLsbD 31 && w != 0 && !(Val.ofBits .f32 false w.toNat).isNan

/-- Whether a camera descriptor keeps the limits of 20 Table 20-1. -/
def cameraDescOk (tenant : Nat) (bs : List Byte) : Bool :=
  let d := CameraDesc.ofBytes bs
  1 ≤ d.w && d.w ≤ 8192 && 1 ≤ d.h && d.h ≤ 8192 && 1 ≤ d.c && d.c ≤ 4 && fieldAt bs 5 1 < 4 && fieldAt bs 6 2 == tenant &&
  1000 ≤ d.period && d.period ≤ 10000000000 && 1 ≤ d.expo && d.expo ≤ d.period &&
  (if d.rolling then (d.h - 1) * d.rowt + d.expo < d.period else d.rowt == 0) && posF32 d.invd && 1 ≤ d.s && d.s ≤ 256 &&
  fieldAt bs 0x32 6 == 0 && d.plane0 % 64 == 0 && d.plane1 % 64 == 0

/-- Whether a camera, by its number, or an encode session, by 256 and its number, is granted to a tenant (assumption log 22). -/
def State.mediaGranted (s : State) (k tenant : Nat) : Bool := Sparse.get 0 s.grants k == tenant + 1

/-- The camera that a packet describes, where the camera is granted to the queue's tenant and its descriptor and response can
be read and keep their limits (21 R371 check 4): the descriptor, whether it is enabled, and the response. -/
def State.cameraPacket (s : State) (q : HostQueue) (pk : List Byte) : Option (CameraDesc × Bool × List W32) × State :=
  match s.tenantRead q.tenant (fieldAt pk 16 8) 104 with
  | (none, s) => (none, s)
  | (some bs, s) =>
    let d := CameraDesc.ofBytes bs
    if !s.mediaGranted (fieldAt pk 8 1) q.tenant || !cameraDescOk q.tenant bs then (none, s)
    else match s.tenantRead q.tenant d.resp (4 * (d.c * d.s)) with
      | (none, s) => (none, s)
      | (some rb, s) => (some (d, fieldAt bs 5 1 % 2 == 1, wordsOf rb), s)

/-- PKT_CAMERA (20 R356, 21 R371): a running camera takes its new configuration at its next frame close. -/
def execPktCamera (s : State) : Result :=
  .next (s.runPacket 6 (fun s q pk =>
    if !capAllows q.qdata 1 (fieldAt pk 16 8) 104 then (some .capFault, s)
    else match s.cameraPacket q pk with
      | (none, s) => (some .argBad, s)
      | (some _, s) => (none, s)) (fun s q pk =>
    let n := fieldAt pk 8 1
    match s.cameraPacket q pk with
    | (none, s) => .halt .argBad s
    | (some (d, cen, resp), s) =>
          match s.camera? n with
          | some c =>
            if c.cen then .done (s.modCamera n (fun c => { c with next := some (d, cen, resp) }))
            else .done (s.modCamera n (fun c =>
              { c with
                desc := d
                cen := cen
                resp := resp
                frame := d.nextFrame s.time }))
          | none =>
            let c : Camera := { num := n, tenant := q.tenant, cen := cen, desc := d, resp := resp, frame := d.nextFrame s.time,
                                outdrop := Sparse.get 0 s.lostSplats n }
            .done { s with
              cameras := s.cameras ++ [c]
              lostSplats := Sparse.put 0 s.lostSplats n 0 }))

/-- Whether a session's size and ring keep the limits of 20 R364 and 21 Table 21-3. -/
def sessionOk (w h bytes : Nat) : Bool :=
  1 ≤ w && w % 8 == 0 && w ≤ 1920 && 1 ≤ h && h % 2 == 0 && h ≤ 1080 &&
  (List.range 11).any (fun i => bytes == 2 ^ (20 + i))

/-- PKT_SESSION (20 R364, 21 R371, R375): the session is configured, and the control bytes of its ring are written. -/
def execPktSession (s : State) : Result :=
  .next (s.runPacket 7 (fun s q pk =>
    if !capAllows q.qdata 2 (fieldAt pk 32 8) (fieldAt pk 40 8) then (some .capFault, s)
    else if s.mediaGranted (256 + fieldAt pk 8 1) q.tenant && sessionOk (fieldAt pk 16 2) (fieldAt pk 18 2) (fieldAt pk 40 8) then
      (none, s)
    else (some .argBad, s)) (fun s q pk =>
    let x : Session :=
      { num := fieldAt pk 8 1, tenant := q.tenant, hevc := fieldAt pk 9 1 % 2 == 1, w := fieldAt pk 16 2, h := fieldAt pk 18 2,
        camera := fieldAt pk 10 1, encdl := fieldAt pk 24 8, ring := fieldAt pk 32 8, bytes := fieldAt pk 40 8 }
    .done (({ s with sessions := s.sessions.filter (fun (y : Session) => y.num != x.num) ++ [x] } : State).openRingOf x)))

/-- QUEUE_WATCHDOG (21 R372): a queue that has waited for `QWDOG` halts; 0 disables the watchdog. -/
def execQueueWatchdog (s : State) : Result :=
  match s.queue? s.ev.obj with
  | none => .next s
  | some q => match q.st with
    | .wait t => .next (if s.qwdog != 0 && t + 8 * s.qwdog ≤ s.ticks then s.haltQueue q .watchdog else s)
    | _ => .next s

end Sys2Proof.Machine
end

