-- ==== Sys2Proof/Machine/HostLink.lean ====
section
/-! DEFINITION. The host link (21 R379 to R382), the SPDM responder (21 R384), management registers (00 R5, 22 R393),
queue control (21 R369, R370, R372) and debug sessions (21 R377). -/

namespace Sys2Proof.Machine

open Sys2Proof

/-! ### Messages (21 R380, R381) -/

/-- A session by its number. -/
def State.session? (s : State) (n : Nat) : Option Ehps := s.ehp.find? (fun (x : Ehps) => x.num == n)

/-- Changes a session. -/
def State.modEhp (s : State) (n : Nat) (f : Ehps → Ehps) : State :=
  { s with ehp := updWhere (fun (x : Ehps) => x.num == n) f s.ehp }

/-- A message that is dropped and counted (21 R380). -/
def State.dropMessage (s : State) : State := { s with dropped := s.dropped + 1 }

/-- A session's record of its last 1,024 sequence numbers with one more (21 R381). -/
def Ehps.note (x : Ehps) (seq : Nat) (reply : List Byte) : Ehps :=
  let top := max x.top seq
  { x with
    top := top
    seqs := (x.seqs ++ [(seq, reply)]).filter (fun y => top < y.1 + 1024) }

/-- Whether a session takes a protected message (21 R380): its tag verifies under the session's key, which firmware reaches
(R367), its reserved fields are zero, and its payload is not too long. -/
def Ehps.admits (x : Ehps) (m : Ehp) (payload : List Byte) : Bool :=
  m.tagOk && m.clean && x.keyed && capIs x.key 5 && m.session != 0 && payload.length ≤ 8192

/-- A protected message (21 R380, R381): dropped and counted where its tag fails, its session is unknown, its role does
not allow it or a reserved field is not zero; acknowledged again, and not applied, where its number is on record;
dropped where it is older than the record; else applied and acknowledged with its reply. `role` answers whether the
operation is allowed to a role. -/
def State.protected_ (s : State) (role : Role → Bool) (act : State → Ehps → List Byte × State) : State :=
  let m := s.ev.ehp
  match s.session? m.session with
  | none => s.dropMessage
  | some x =>
    if !x.admits m s.ev.bytes || !role x.role then s.dropMessage
    else match x.seqs.find? (fun y => y.1 == m.seq) with
      | some y => { s with outbox := s.outbox ++ [HostMsg.ack x.num m.seq y.2] }
      | none =>
        if m.seq + 1024 ≤ x.top then s
        else
          let (reply, s) := act s x
          let s := s.modEhp x.num (fun x => x.note m.seq reply)
          { s with outbox := s.outbox ++ [.ack x.num m.seq reply] }

/-- Whether a role is the operator's. -/
def isOperator (r : Role) : Bool := r == .operator

/-- An operator's message that changes the state and gives no reply; not taken in `RECOVERY` (21 R385) or during a
start. -/
def State.operatorDoes (s : State) (f : State → State) : State :=
  if s.step != .ready then s.dropMessage else s.protected_ isOperator (fun s _ => ([], f s))

/-! ### Frames (21 R379). The layouts are those of IEEE 802.3, 802.1Q and 802.1Qbb and of IP (PRESUMED, assumption log 79). -/

/-- A big-endian field of a frame. -/
def beAt (bs : List Byte) (off n : Nat) : Nat := leVal ((bs.drop off).take n).reverse

/-- The type of a frame and where its payload begins: behind one 802.1Q tag at most. -/
def frameType (bs : List Byte) : Nat × Nat := if beAt bs 12 2 == 0x8100 then (beAt bs 16 2, 18) else (beAt bs 12 2, 14)

/-- The IPv6 extension headers, by their next-header numbers. -/
def extensionHeaders : List Nat := [0, 43, 44, 50, 51, 60, 135, 139, 140]

/-- Whether the host port accepts a frame (21 R379): up to 9,216 bytes, at most one tag, and IPv4 without options, not
fragmented, or IPv6 without extension headers. -/
def frameAccepted (bs : List Byte) : Bool :=
  let (ty, o) := frameType bs
  bs.length ≤ 9216 && (
    (ty == 0x0800 && o + 20 ≤ bs.length && fieldAt bs o 1 == 0x45 && beAt bs (o + 6) 2 % 0x4000 == 0) ||
    (ty == 0x86DD && o + 40 ≤ bs.length && fieldAt bs o 1 / 16 == 6 && !extensionHeaders.contains (fieldAt bs (o + 6) 1)))

/-- Whether a frame is a PFC frame. -/
def isPfc (bs : List Byte) : Bool := bs.length ≤ 9216 && beAt bs 12 2 == 0x8808 && beAt bs 14 2 == 0x0101

/-- A PFC frame for the priority that the port honours pauses what it sends for a number of quanta of 512 bit times, 0.64 ns
each at 800 Gb/s. -/
def State.pfc (s : State) (bs : List Byte) : State :=
  let k := Config.pfcPriority % 8
  if beAt bs 16 2 / 2 ^ k % 2 == 1 then { s with pausedTo := s.ticks + (beAt bs (18 + 2 * k) 2 * 128 + 24) / 25 } else s

/-- What the module has to send leaves its host port, unless that is paused (21 R379). -/
def State.sendOut (s : State) : State := if s.pausedTo ≤ s.ticks then { s with onWire := s.outbox.length } else s

/-- DROPPED_FRAME (21 R379): a frame reaches the host port, which drops and counts it unless it accepts it. -/
def execDroppedFrame (s : State) : Result :=
  let bs := s.ev.bytes
  .next (if frameAccepted bs then s else if isPfc bs then s.pfc bs else { s with frames := s.frames + 1 })

/-- ACK (21 R380, R381): the host has the event of that number on its session. -/
def execAck (s : State) : Result :=
  let m := s.ev.ehp
  if !(s.session? m.session).any (fun x => x.admits m s.ev.bytes) then .next s.dropMessage
  else .next { s with events := s.events.filter (fun e => !(e.seq == m.seq && e.session == m.session)) }

/-- EVENT_RETRANSMIT (21 R381): every 1 ms, at most 64 times. -/
def execEventRetransmit (s : State) : Result :=
  let this := fun (e : Event) => e.seq == s.ev.obj && e.session == s.ev.sub
  match s.events.find? this with
  | none => .next s
  | some e =>
    if s.ticks < e.last + 8000000 then .next s
    else if 64 < e.sent then .next { s with events := s.events.filter (fun x => !this x) }
    else
      let again := fun (x : Event) =>
        { x with
          sent := x.sent + 1
          last := s.ticks }
      .next { s with
        events := updWhere this again s.events
        outbox := s.outbox ++ [.event e.session e.seq e.body] }

/-! ### Detaching (21 R377) -/

/-- Ends the grid of a group whose trap stands with a debug session. -/
def State.endDelivered (s : State) (id : Nat) : State :=
  let s' := { s with delivered := s.delivered.filter (· != id) }
  match s.anyGroup? id with
  | some g => s'.unhandled g
  | none => s'

/-- A debug session is detached from a tenant: every grid of the tenant with a trap pending with it ends (21 R377). -/
def State.detach (s : State) (t : Nat) : State :=
  let ids := s.delivered.filter (fun id => (s.anyGroup? id).any (fun (g : Group) => g.tenant == t))
  ids.foldl State.endDelivered { s with debugs := s.debugs.filter (fun y => y.2 != t) }

/-! ### SPDM (21 R384, 22 R401). The codes are those of DMTF DSP0274 (PRESUMED, assumption log 23). -/

/-- The request that a code names. -/
def spdmRequest (code : Nat) : Option Instr :=
  match code with
  | 0x84 => some .getVersion
  | 0xE1 => some .getCapabilities
  | 0xE3 => some .negotiateAlgorithms
  | 0x81 => some .getDigests
  | 0x82 => some .getCertificate
  | 0x83 => some .challenge
  | 0xE0 => some .getMeasurements
  | 0xE4 => some .keyExchange
  | 0xE5 => some .finish
  | 0xE9 => some .keyUpdate
  | 0xEC => some .endSession
  | _ => none

/-- Answers the SPDM message of the event with a code and what follows its two parameters: the `ACK` of its number carries the
answer, which the session keeps on record (21 R381). The answer has the version of the request, `VERSION` 1.0. -/
def State.spdmReply (s : State) (code : Nat) (body : List Byte) : State :=
  let m := s.ev.ehp
  let version := if code == 0x04 then 0x10 else s.ev.bytes.headD 0x10
  let reply := [version, BitVec.ofNat 8 code, 0, 0] ++ body
  let s := s.modEhp m.session (fun x => x.note m.seq reply)
  { s with outbox := s.outbox ++ [.ack m.session m.seq reply] }

/-- An SPDM `ERROR` answer. -/
def State.spdmError (s : State) : State := s.spdmReply 0x7F []

/-- An SPDM answer whose content is a free value (assumption log 23). -/
def State.spdmFree (s : State) (code : Nat) : State :=
  let (n, s) := s.drawNat
  let (bs, s) := s.drawBytes (n % 8189)
  s.spdmReply code bs

/-- The session that a request belongs to, made where a connection begins. -/
def State.spdmSession (s : State) (n : Nat) : Ehps × State :=
  match s.session? n with
  | some x => (x, s)
  | none =>
    let x : Ehps := { num := n }
    if n == 0 then (x, { s with ehp := s.ehp ++ [x] }) else (x, s)

/-- EHP_SPDM (21 R380, R381, R384): one SPDM message; session 0 only before key exchange. It is accepted from `READY` on and in
`RECOVERY` (R385, R386), and answered in its `ACK`. -/
def execEhpSpdm (s : State) : Result :=
  let m := s.ev.ehp
  let ev := s.ev
  let (x, s) := s.spdmSession m.session
  let known := s.ehp.any (fun (y : Ehps) => y.num == m.session)
  let up := match s.step with
    | .starting _ _ => false
    | _ => true
  if !up || !known || !m.clean || 8192 < ev.bytes.length then .next s.dropMessage
  else match x.seqs.find? (fun y => y.1 == m.seq) with
    | some y => .next { s with outbox := s.outbox ++ [HostMsg.ack x.num m.seq y.2] }
    | none =>
      if m.seq + 1024 ≤ x.top then .next s
      else
        match spdmRequest (fieldAt ev.bytes 1 1) with
        | none => .next s.spdmError
        | some i =>
          let (d, s) := s.drawNat
          let obj := if i == Instr.keyExchange then fieldAt ev.bytes 4 2 + 2 ^ 16 * (d % 2 ^ 16) else m.session
          let sub : Subject := { ev with
            obj := obj
            sub := fieldAt ev.bytes 2 1 }
          .next { s with agenda := .event i sub :: s.agenda }

/-- GET_VERSION (21 R384): 1.2 and 1.3. -/
def execGetVersion (s : State) : Result :=
  let n := s.ev.obj
  let (_, s) := s.spdmSession n
  .next ((s.modEhp n (fun x =>
    { x with
      version := true
      caps := false
      algs := false })).spdmReply 0x04 ([0, 2] ++ leOf 2 0x1200 ++ leOf 2 0x1300))

/-- A request that needs what came before it; else the answer is an error. -/
def State.spdmWith (s : State) (ready : Ehps → Bool) (go : State → State) : State :=
  match s.session? s.ev.obj with
  | some x => if ready x || x.keyed then go s else s.spdmError
  | none => s.spdmError

/-- The body of `CAPABILITIES` (21 R384): certificates, challenges, signed measurements, encryption, authentication, key exchange
and key update; messages of up to the payload of R380. The time exponent is a free value. -/
def capabilities (exp : Byte) : List Byte :=
  [0, exp, 0, 0] ++ leOf 4 0x42D6 ++ leOf 4 8192 ++ leOf 4 8192

/-- The body of `ALGORITHMS` (21 R384): ECDSA with NIST P-384, SHA-384, secp384r1, AES-256-GCM, and the SPDM key schedule. -/
def algorithms : List Byte :=
  leOf 2 48 ++ [1, 0] ++ leOf 4 0x4 ++ leOf 4 0x80 ++ leOf 4 0x2 ++ leOf 12 0 ++ [0, 0, 0, 0] ++
    [2, 0x20] ++ leOf 2 0x10 ++ [3, 0x20] ++ leOf 2 0x2 ++ [5, 0x20] ++ leOf 2 0x1

/-- GET_CAPABILITIES (21 R384). -/
def execGetCapabilities (s : State) : Result :=
  let n := s.ev.obj
  .next (s.spdmWith (·.version) (fun s => 
    let (e, s) := (s.modEhp n (fun x => { x with caps := true })).drawWord
    s.spdmReply 0x61 (capabilities (e.setWidth 8))))

/-- NEGOTIATE_ALGORITHMS (21 R384): P-384, SHA-384 and AES-256-GCM. -/
def execNegotiateAlgorithms (s : State) : Result :=
  let n := s.ev.obj
  .next (s.spdmWith (·.caps) (fun s => (s.modEhp n (fun x => { x with algs := true })).spdmReply 0x63 algorithms))

/-- GET_DIGESTS (21 R384). -/
def execGetDigests (s : State) : Result := .next (s.spdmWith (·.algs) (fun s => s.spdmFree 0x01))

/-- GET_CERTIFICATE (21 R384). -/
def execGetCertificate (s : State) : Result := .next (s.spdmWith (·.algs) (fun s => s.spdmFree 0x02))

/-- CHALLENGE (21 R384): both signatures are free values. -/
def execChallenge (s : State) : Result := .next (s.spdmWith (·.algs) (fun s => s.spdmFree 0x03))

/-- The measurements 1 to 5 (21 R384): the ROM, the image digest, the SVN, the fuse configuration, and whether memory
training was reused. Those of the ROM and of the fuses are the part's own. -/
def State.measurements (s : State) : List Byte :=
  let pad := fun (l : List Byte) => (List.range 48).map (fun i => l.getD i 0)
  let slot := match s.running with
    | some i => s.slots.getD i {}
    | none => {}
  let digest := (List.range 48).map (fun i => slot.byte (0x020 + i))
  pad Config.romDigest ++ digest ++ leOf 4 s.svn ++ pad (Config.fuseDigest s.minsvn) ++ [if s.reused then 1 else 0]

/-- GET_MEASUREMENTS (21 R384): the measurements, and two signatures that are free values. -/
def execGetMeasurements (s : State) : Result :=
  .next (s.spdmWith (·.algs) (fun s =>
    let (sig, s) := s.drawBytes 1868
    s.spdmReply 0x60 (s.measurements ++ sig)))

/-- KEY_EXCHANGE (21 R380, R384): a session of the requester's role begins. -/
def execKeyExchange (s : State) : Result :=
  let n := s.ev.obj
  let ready := n != 0 && s.ehp.any (fun (x : Ehps) => x.num == 0 && x.algs) && !s.ehp.any (fun (x : Ehps) => x.num == n)
  if !ready then .next s.spdmError
  else
    let x : Ehps := { num := n, role := s.ev.role, version := true, caps := true, algs := true }
    .next ({ s with ehp := s.ehp ++ [x] }.spdmFree 0x64)

/-- FINISH (21 R384): the session is established where the requester's data verify, and firmware holds its key by a capability
(R367). -/
def execFinish (s : State) : Result :=
  let n := s.ev.obj
  match s.session? n with
  | none => .next s.spdmError
  | some x =>
    if x.keyed || n == 0 then .next s.spdmError
    else if s.ev.flag then
      let (a, s) := s.drawWord
      let key : Capability := { tag := true, otype := 5, perm := 1, len := 32, base := a.toNat }
      .next ((s.modEhp n (fun x => { x with keyed := true, key := key })).spdmFree 0x65)
    else .next { s.spdmError with ehp := s.ehp.filter (fun (y : Ehps) => y.num != n) }

/-- KEY_UPDATE (21 R384, 22 R401): the session's keys are derived anew. -/
def execKeyUpdate (s : State) : Result :=
  let n := s.ev.obj
  .next (s.spdmWith (fun x => x.keyed) (fun s => (s.modEhp n (fun x => { x with updates := x.updates + 1 })).spdmReply 0x69 []))

/-- END_SESSION (21 R384): its debug attachments are detached (R377), and its events are sent no more. -/
def execEndSession (s : State) : Result :=
  let n := s.ev.obj
  .next (s.spdmWith (fun x => x.keyed) (fun s =>
    let s := (s.debugs.filter (fun x => x.1 == n)).foldl (fun s x => s.detach x.2) (s.spdmReply 0x6C [])
    { s with
      ehp := s.ehp.filter (fun (y : Ehps) => y.num != n)
      events := s.events.filter (fun e => e.session != n) }))

/-! ### Queue control (21 R369, R370, R372) -/

/-- QCTL_CREATE (21 R369): a queue with its tenant, ring and region, to which firmware makes the capabilities (R367). A ring that
breaks R369 makes none. -/
def execQctlCreate (s : State) : Result :=
  let ev := s.ev
  let ring := ev.val.toNat
  .next (s.operatorDoes (fun s =>
    if 2 ^ 20 ≤ ev.obj || ev.aux < 4 || 20 < ev.aux || ring % (64 * 2 ^ ev.aux) != 0 || (s.queue? ev.obj).isSome then s
    else
      let (a, s) := s.drawWord
      let q : HostQueue :=
        { num := ev.obj, tenant := ev.sub, log2 := ev.aux,
          ringCap := { tag := true, otype := 1, perm := 1, len := 64 * 2 ^ ev.aux, base := ring }
          stateCap := { tag := true, otype := 2, perm := 3, len := 64, base := a.toNat }
          qdata := { ev.cap with tag := true, otype := 0 } }
      { s with queues := s.queues ++ [q] }))

/-- QCTL_RESUME (21 R372): a halted queue reads its packet again; one whose write is at its home takes its effect there. -/
def execQctlResume (s : State) : Result :=
  let n := s.ev.obj
  .next (s.operatorDoes (fun s => s.modQueue n (fun q =>
    if q.st == .halted then { q with
      st := if q.ri == q.wi then .empty else .run
      seen := []
      now := if q.busy.isSome then q.now else none }
    else q)))

/-- QCTL_DESTROY (21 R372): the launches that it has submitted run on. -/
def execQctlDestroy (s : State) : Result :=
  let n := s.ev.obj
  .next (s.operatorDoes (fun s => { s with queues := s.queues.filter (fun (q : HostQueue) => q.num != n) }))

/-- A doorbell on a queue (21 R370, Table 21-4). -/
def State.ring (s : State) (q : HostQueue) (wi : Nat) : State :=
  if wi < q.ri || q.ri + 2 ^ q.log2 < wi then s.haltQueue q .indexBad
  else s.modQueue q.num (fun q =>
    { q with
      wi := wi
      st := if q.st == .empty && q.ri < wi then .run else q.st })

/-- DOORBELL (21 R370, R380): to a tenant session only on its own queues. -/
def execDoorbell (s : State) : Result :=
  let wi := s.ev.val.toNat
  let own := fun (r : Role) => match r with
    | .operator => true
    | .tenant t => (s.queue? s.ev.obj).any (fun q => q.tenant == t)
  if s.step != .ready then .next s.dropMessage
  else .next (s.protected_ own (fun s _ => ([], match s.queue? s.ev.obj with
    | none => s
    | some q => s.ring q wi)))

/-! ### Management registers (00 R5, 21 R380, 22 R393) -/

/-- Whether a scale-up port carries relayed traffic (22 Table 22-2): requests of this module to another than the port's far end, or
flits that it forwards for two others. -/
def State.relayBit (s : State) (p : Port) : Bool :=
  p.up && (s.forwards.any (fun x => s.ticks < x.till && (x.into == p.num || x.out == p.num)) ||
    (p.num < 30 && s.routes.any (fun r => r.port == p.num && moduleOf (r.line * 128) != p.peer && s.routeLive r)))

/-- The status word of a scale-up port (22 Table 22-2). -/
def Port.status (p : Port) (now : Nat) (relay : Bool) : Nat :=
  let n := min 255 (p.replays.filter (fun t => now < t + 8000000)).length
  p.up.toNat + 2 * p.fast.toNat + 4 * relay.toNat + 8 * p.tx.kg.toNat + 2 ^ 16 * p.rev.toNat + 2 ^ 24 * n + 2 ^ 32 * p.peer

/-- The settings of firmware, by number: the watchdog, the power limit, the retention idle time, the lease length, and
the pool age of each die. The offset of each is the implementation's (assumption log 21). -/
inductive Setting where
  | qwdog | plim | idle | leaselen | poolage (die : Nat)
  deriving DecidableEq, Repr

/-- The settings with the numbers of their offsets. -/
def Setting.table : List (Setting × Nat) := [(.qwdog, 0), (.plim, 1), (.idle, 2), (.leaselen, 3), (.poolage 0, 4), (.poolage 1, 5)]

/-- The setting at a management offset. -/
def settingAt (off : Nat) : Option Setting := (Setting.table.find? (fun x => Config.settingOffset x.2 == off)).map (·.1)

/-- The value of a setting. -/
def State.setting (s : State) : Setting → Nat
  | .qwdog => s.qwdog
  | .plim => s.plim
  | .idle => s.idle
  | .leaselen => s.leaselen.toNat
  | .poolage d => (s.poolage.getD d 0).toNat

/-- A write of a setting: one outside the limits of its rule has no effect (21 R372, R389, 13 R248, 11 Table 11-1,
15 Table 15-3). A write of a reserved bit is discarded and reported (00 R5); which record it leaves is the model's choice (assumption log 82). -/
def State.setSetting (s : State) (x : Setting) (v : Nat) : State :=
  let bad := s.report { sev := 1, src := 11 }
  match x with
  | .qwdog => if v == 0 || (1000000 ≤ v && v ≤ 3600000000000) then { s with qwdog := v } else s
  | .plim => if 1200 ≤ v && v ≤ 2600 then { s with plim := v } else s
  | .idle => if 1000 ≤ v && v ≤ 1000000000 then { s with idle := v } else s
  | .leaselen => if 2 ^ 16 ≤ v then bad else if 64 ≤ v then { s with leaselen := w64 v } else s
  | .poolage d =>
    if 2 ^ 20 ≤ v then bad else if 100 ≤ v && v ≤ 1000000 then { s with poolage := setAt s.poolage d (w64 v) } else s

/-- The port whose status word lies at a management offset. -/
def portAt (off : Nat) : Option Nat := if 0x4000 ≤ off && off < 0x4000 + 8 * 48 && off % 8 == 0 then some ((off - 0x4000) / 8) else none

/-- What an offset of the management space reads as; for an offset that the spec does not name, a free value. -/
def State.mgmtRead (s : State) (off : Nat) : List Byte × State :=
  match portAt off with
  | some n => (leOf 8 (((s.ports.find? (fun (p : Port) => p.num == n)).map (fun p => p.status s.ticks (s.relayBit p))).getD 0), s)
  | none => match settingAt off with
    | some x => (leOf 8 (s.setting x), s)
    | none =>
      let (v, s) := s.drawWord
      (bytes64 v, s)

/-- MREAD (21 R380): the operator reads a register, a tenant one of its own error records, by its place in the log. -/
def execMread (s : State) : Result :=
  let off := s.ev.obj
  let mine := fun (s : State) (t : Nat) => s.errors.filter (fun (e : ErrorRec) => e.tenant == t)
  let allowed := fun (r : Role) => match r with
    | .operator => true
    | .tenant t => off < (mine s t).length
  if s.step != .ready then .next s.dropMessage
  else .next (s.protected_ allowed (fun s x => match x.role with
    | .operator => s.mgmtRead off
    | .tenant t => (((mine s t)[off]?).map ErrorRec.bytes).getD [] |> fun bs => (bs, s)))

/-- The reserved bits of a port's status word (22 Table 22-2). -/
def portReserved : W64 := 0xFFFFFE000000FFF0

/-- MWRITE (00 R5): a write of a reserved bit is discarded and reported; read-only bits ignore theirs. Which record it
leaves is the model's choice (assumption log 82). -/
def execMwrite (s : State) : Result :=
  let off := s.ev.obj
  let v := s.ev.val
  .next (s.operatorDoes (fun s => match portAt off with
    | some _ => if v &&& portReserved != 0 then s.report { sev := 1, src := 11 } else s
    | none => match settingAt off with
      | some x => s.setSetting x v.toNat
      | none => s))

/-- MWRITE_WARM_START (21 R386, R385): also taken in `RECOVERY`. -/
def execMwriteWarmStart (s : State) : Result :=
  .next (s.protected_ isOperator (fun s _ => ([], { s with agenda := s.agenda ++ [.event .warmStart {}] })))

/-- MWRITE_BOOT_CONFIRM (21 R385): within 600 s the running trial becomes `CURRENT`, and the former `CURRENT` `OLD`. -/
def execMwriteBootConfirm (s : State) : Result :=
  .next (s.operatorDoes (fun s =>
    match s.running, s.trialAt with
    | some i, some t =>
      if (s.slots.getD i {}).st != .trial || t + 4800000000000 < s.ticks then s
      else
        let old := s.slots.map (fun (x : BootSlot) => if x.st == .current then { x with st := .old } else x)
        { s with
          slots := modAt (fun x => { x with st := .current }) old i
          trialAt := none }
    | _, _ => s))

/-! ### Debug sessions (21 R377) -/

/-- DEBUG_ATTACH (21 R377): an attachment of another session is detached. -/
def execDebugAttach (s : State) : Result :=
  let x := s.ev.ehp.session
  let t := s.ev.obj
  .next (s.operatorDoes (fun s =>
    if s.debugs.contains (x, t) then s
    else
      let s := if (s.debugOf t).isSome then s.detach t else s
      { s with debugs := s.debugs ++ [(x, t)] }))

/-- DEBUG_RESUME (21 R377): a group delivered to the session continues from the counters that are set, or replays its
instruction. -/
def execDebugResume (s : State) : Result :=
  let id := s.ev.obj
  let pcs := s.ev.pcs
  .next (s.operatorDoes (fun s =>
    if s.delivered.contains id then
      { s with delivered := s.delivered.filter (· != id) }.resumeTrap id pcs
    else s))

/-- DEBUG_END_GRID (21 R377). -/
def execDebugEndGrid (s : State) : Result :=
  let id := s.ev.obj
  .next (s.operatorDoes (fun s => if s.delivered.contains id then s.endDelivered id else s))

/-- DEBUG_DETACH (21 R377). -/
def execDebugDetach (s : State) : Result :=
  let t := s.ev.obj
  .next (s.operatorDoes (fun s => s.detach t))

/-! ### RDMA from the host (21 R382) -/

/-- The registered region that holds a range, for a read or a write. -/
def State.region? (s : State) (num a n : Nat) (write : Bool) : Option Region :=
  s.regions.find? (fun (r : Region) => r.num == num && r.base ≤ a && a + n ≤ r.base + r.len && (!write || r.write))

/-- RDMA_WRITE (21 R382), on a queue pair of the host port. -/
def execRdmaWrite (s : State) : Result :=
  let a := s.ev.val.toNat
  let bs := s.ev.bytes
  let nak := fun (s : State) => { s with outbox := s.outbox ++ [.nak] }
  if !s.hostQps.contains s.ev.aux then .next s
  else match s.region? s.ev.obj a bs.length true with
  | none => .next (nak s)
  | some r => match s.tenantWrite r.tenant a bs with
    | (some _, s) => .next { s with outbox := s.outbox ++ [.rdma []] }
    | (none, s) => .next (nak s)

/-- RDMA_READ (21 R382), on a queue pair of the host port. -/
def execRdmaRead (s : State) : Result :=
  let a := s.ev.val.toNat
  let n := s.ev.sub
  if !s.hostQps.contains s.ev.aux then .next s
  else match s.region? s.ev.obj a n false with
  | none => .next { s with outbox := s.outbox ++ [.nak] }
  | some r => match s.tenantRead r.tenant a n with
    | (none, s) => .next { s with outbox := s.outbox ++ [.nak] }
    | (some bs, s) => .next { s with outbox := s.outbox ++ [.rdma bs] }

end Sys2Proof.Machine
end

