-- ==== Sys2Proof/Machine/Sha384.lean ====
section
/-! DEFINITION. SHA-384 (21 R383), as FIPS 180-4 gives it (PRESUMED, assumption log 117). -/

namespace Sys2Proof.Machine

open Sys2Proof

/-- The largest number whose k-th power is at most `n`, found from bit `b` − 1 of it downwards. -/
def rootOf (k n : Nat) : Nat → Nat → Nat
  | 0, r => r
  | b + 1, r => rootOf k n b (if (r + 2 ^ b) ^ k ≤ n then r + 2 ^ b else r)

/-- The first 64 bits of the fraction of a k-th root. -/
def rootFraction (k p : Nat) : W64 := w64 (rootOf k (p * 2 ^ (64 * k)) 70 0)

/-- The primes below a bound. -/
def primesBelow (n : Nat) : List Nat :=
  (List.range n).filter (fun p => 2 ≤ p && (List.range p).all (fun d => d < 2 || p % d != 0))

/-- The constants of the 80 rounds: from the cube roots of the first 80 primes. -/
def shaConstants : List W64 := (primesBelow 410).map (rootFraction 3)

/-- The eight working words of SHA-512 and SHA-384. -/
structure ShaState where
  a : W64
  b : W64
  c : W64
  d : W64
  e : W64
  f : W64
  g : W64
  h : W64
  deriving DecidableEq, Repr

/-- The initial words of SHA-384: from the square roots of the ninth to sixteenth primes. -/
def shaInit : ShaState :=
  { a := rootFraction 2 23, b := rootFraction 2 29, c := rootFraction 2 31, d := rootFraction 2 37,
    e := rootFraction 2 41, f := rootFraction 2 43, g := rootFraction 2 47, h := rootFraction 2 53 }

/-- The message schedule, the newest word first: `n` more words. -/
def shaSchedule : Nat → List W64 → List W64
  | 0, w => w
  | n + 1, w =>
    let x := w.getD 1 0
    let y := w.getD 14 0
    let s1 := x.rotateRight 19 ^^^ x.rotateRight 61 ^^^ x >>> 6
    let s0 := y.rotateRight 1 ^^^ y.rotateRight 8 ^^^ y >>> 7
    shaSchedule n ((s1 + w.getD 6 0 + s0 + w.getD 15 0) :: w)

/-- One round with its constant and its schedule word. -/
def ShaState.round (x : ShaState) (kw : W64 × W64) : ShaState :=
  let s1 := x.e.rotateRight 14 ^^^ x.e.rotateRight 18 ^^^ x.e.rotateRight 41
  let ch := (x.e &&& x.f) ^^^ (~~~x.e &&& x.g)
  let t1 := x.h + s1 + ch + kw.1 + kw.2
  let s0 := x.a.rotateRight 28 ^^^ x.a.rotateRight 34 ^^^ x.a.rotateRight 39
  let maj := (x.a &&& x.b) ^^^ (x.a &&& x.c) ^^^ (x.b &&& x.c)
  { a := t1 + (s0 + maj), b := x.a, c := x.b, d := x.c, e := x.d + t1, f := x.e, g := x.f, h := x.g }

/-- A block of sixteen words, in order. -/
def ShaState.block (x : ShaState) (ws : List W64) : ShaState :=
  let y := (shaConstants.zip (shaSchedule 64 ws.reverse).reverse).foldl ShaState.round x
  { a := x.a + y.a, b := x.b + y.b, c := x.c + y.c, d := x.d + y.d,
    e := x.e + y.e, f := x.f + y.f, g := x.g + y.g, h := x.h + y.h }

/-- The big-endian bytes of a word. -/
def beBytes (w : W64) : List Byte := (bytes64 w).reverse

/-- The blocks of a padded message, `n` of them. -/
def shaBlocks : Nat → List Byte → ShaState → ShaState
  | 0, _, x => x
  | n + 1, bs, x =>
    shaBlocks n (bs.drop 128) (x.block ((List.range 16).map (fun i => w64 (leVal ((bs.drop (8 * i)).take 8).reverse))))

/-- The SHA-384 digest of a message: 48 bytes. -/
def sha384 (m : List Byte) : List Byte :=
  let pad := m ++ [0x80] ++ List.replicate ((239 - m.length % 128) % 128) 0 ++ beBytes 0 ++ beBytes (w64 (8 * m.length))
  let x := shaBlocks (pad.length / 128) pad shaInit
  [x.a, x.b, x.c, x.d, x.e, x.f].flatMap beBytes

end Sys2Proof.Machine
end

