-- ==== Sys2Proof/Machine/Starts.lean ====
section
/-! DEFINITION. Firmware images and starts (21 R383, R385, R386), and power (21 R389). -/

namespace Sys2Proof.Machine

open Sys2Proof

/-! ### Images (21 R383, R385) -/

/-- The bytes that an image header may hold (21 R383): every other byte of its 4 KiB is zero. -/
def headerUses (i : Nat) : Bool :=
  i < 4 || (8 ≤ i && i < 12) || (0x10 ≤ i && i < 0x18) || (0x20 ≤ i && i < 0x50) || (0x100 ≤ i && i < 0x160) ||
    (0x160 ≤ i && i < 0x160 + 1772)

/-- Whether the ROM lets an image run (21 R383): magic, zero bytes, both signatures and the digest, and the SVN. -/
def BootSlot.verifies (x : BootSlot) (minsvn : Nat) : Bool :=
  let size := x.field 0x010 8
  x.field 0 4 == 0x4D465756 && (List.range 4096).all (fun i => headerUses i || x.byte i == 0) && minsvn ≤ x.field 8 4 &&
    Config.imageVerified ((List.range 4096).map x.byte) &&
    sha384 ((List.range size).map (fun i => x.byte (4096 + i))) == (List.range 48).map (fun i => x.byte (0x020 + i))

/-- The slot that `IMAGE` writes: the one that is not `CURRENT`. -/
def imageSlot (l : List BootSlot) : Nat := if (l.getD 0 {}).st == .current then 1 else 0

/-- Writes a chunk of an image into a slot, which becomes `TRIAL` (21 R385). -/
def State.writeImage (s : State) (off : Nat) (bs : List Byte) : State :=
  let f := fun (x : BootSlot) =>
    let x := if x.st == .trial then x else { x with
      img := []
      size := 0
      factory := false }
    { x with
      st := .trial
      img := (List.range bs.length).foldl (fun m i => Sparse.put 0 m (off + i) (bs.getD i 0)) x.img
      size := max x.size (off + bs.length) }
  { s with slots := modAt f s.slots (imageSlot s.slots) }

/-- IMAGE (21 R385): also taken in `RECOVERY`. -/
def execImage (s : State) : Result :=
  let off := s.ev.obj
  let bs := s.ev.bytes
  .next (s.protected_ isOperator (fun s _ => ([], s.writeImage off bs)))

/-! ### Starts (21 R385, R386) -/

/-- The state that a start leaves: everything is reset but what the part keeps (21 Table 21-6, R388): the boot flash
and fuses, what has been spared, fenced or withdrawn, the module's number and what was sent to the host. A warm start
keeps the frames of the tenants whose policy says so, the error log and the pending tests. -/
def State.restarted (s : State) (warm : Bool) : State :=
  let r := State.reset
  let kept := s.pages.filter (fun (p : Page) => s.keep.contains p.tenant)
  let core := fun (c : Core) => ({ fenced := c.fenced, units := c.units, seqs := c.seqs, l1ways := c.l1ways } : Core)
  { r with
    free := s.free
    serial := s.serial
    ticks := 0
    cores := s.cores.map core
    mem := if warm then s.mem.filter (fun c => kept.any (fun p => p.pa ≤ c.1 && c.1 < p.pa + p.size)) else []
    mscWays := s.mscWays
    spares := s.spares
    badBlocks := s.badBlocks
    rowSpares := s.rowSpares
    retired := s.retired
    keep := s.keep
    outbox := s.outbox
    onWire := s.onWire
    slots := s.slots
    minsvn := s.minsvn
    module := s.module
    errors := if warm then s.errors else []
    tests := if warm then s.tests.map (fun (t : PendingTest) => { t with since := 0 }) else [] }

/-- How many structures of a row of 21 Table 21-8 there are. -/
def structures (kind : Nat) : Nat :=
  match kind with
  | 1 | 6 => 768
  | 2 => 192 * 2048
  | 3 => 192 * 128
  | 4 => 2 ^ 23
  | 5 => 2 ^ 28
  | _ => 8 * 4096

/-- The full test of a cold start (21 Table 21-6): `n` structures, which are free values, fail it and are spared or retired. -/
def State.coldTests (s : State) : Nat → State
  | 0 => s
  | n + 1 =>
    let (k, s) := s.drawNat
    let (l, s) := s.drawNat
    let kind := 1 + k % 7
    ((s.spare { num := 0, kind := kind, loc := l % structures kind }).2).coldTests n

/-- A structure that passes its test again after a lasting failure returns to use (21 R388), where it was only shut out. -/
def State.unspare (s : State) (x : PendingTest) : State :=
  let core := fun (n : Nat) (f : Core → Core) => ({ s with cores := modAt f s.cores n } : State)
  match x.kind with
  | 1 => core (x.loc / 4) (fun k => { k with fenced := k.fenced.filter (· != x.loc % 4) })
  | 2 => core (x.loc / 2048) (fun k => { k with units := k.units.filter (· != x.loc % 2048 / 32) })
  | 3 => core (x.loc / 128) (fun k => { k with l1ways := Sparse.put 0 k.l1ways (x.loc % 128) (Sparse.get 0 k.l1ways (x.loc % 128) - 1) })
  | 6 => core (x.loc / 4) (fun k => { k with seqs := k.seqs.filter (· != x.loc % 4) })
  | 7 => { s with mscWays := Sparse.put 0 s.mscWays x.loc (Sparse.get 0 s.mscWays x.loc - 1) }
  | _ => s

/-- The tests of a warm start (21 Table 21-6): datapath vectors on every partition, and the targeted test of every structure with
a pending or a lasting record. A structure that fails again stays as it is; whether each passes is a free value. -/
def State.warmTests (s : State) : State :=
  let parts : List PendingTest := (List.range 768).map (fun i => { num := 0, kind := 1, loc := i })
  let recorded := s.errors.flatMap (fun e => ((List.range 8).filter (fun k => 1 ≤ k && testSource k == e.src && (e.result == 0 || e.result == 2))).map
    (fun k => ({ num := 0, kind := k, loc := e.loc } : PendingTest)))
  let lasting := fun (s : State) (x : PendingTest) =>
    s.errors.any (fun e => e.src == testSource x.kind && e.loc == x.loc && e.result == 2)
  let test := fun (s : State) (x : PendingTest) =>
    let (bad, s) := s.drawBool
    match bad, lasting s x with
    | true, true => s
    | false, true => (s.unspare x).settleTest x true [0, 2]
    | b, false => s.settleTest x (!b) [0]
  ((parts ++ recorded).eraseDups.foldl test { s with tests := [] })

/-- The `TEST` step of a start (21 Table 21-6). -/
def State.startTests (s : State) (warm : Bool) : State :=
  if warm then s.warmTests
  else
    let (n, s) := s.drawNat
    s.coldTests n

/-- The slots that a start takes, in order (21 R385). -/
def bootOrder (l : List BootSlot) : List Nat :=
  let with_ := fun (x : SlotState) => (List.range l.length).filter (fun i => (l.getD i {}).st == x)
  with_ .trial ++ with_ .current ++ with_ .old

/-- A slot whose start has failed: a `TRIAL` becomes `BAD`. -/
def slotFailed (l : List BootSlot) (i : Nat) : List BootSlot :=
  modAt (fun x => if x.st == .trial then { x with st := .bad } else x) l i

/-- Tries the slots of a list: one that fails is followed by the next in the same reset, and with none left the module
is in `RECOVERY` (21 R385). In the `TEST` step what fails is spared, retired or shut out. Whether the steps after the ROM
succeed, fail, or do not reach `READY` in time is a free value. -/
def State.boot (s : State) (warm : Bool) : List Nat → State
  | [] => { s with
      step := .recovery
      running := none }
  | i :: r =>
    let slot := s.slots.getD i {}
    if !slot.verifies s.minsvn then { s with slots := slotFailed s.slots i }.boot warm r
    else
    let (d, s) := (s.startTests warm).drawNat
    if d % 3 == 1 then { s with slots := slotFailed s.slots i }.boot warm r
    else if d % 3 == 2 then { s with
      step := .starting i warm
      running := none }
    else
      let (t, s) := s.drawBool
      { s with
        step := .ready
        running := some i
        trained := true
        reused := warm && t
        trialAt := if slot.st == .trial then some s.ticks else none }

/-- A trial that was started and not confirmed has failed at the next start (21 R385). -/
def State.failTrial (s : State) : State :=
  match s.running with
  | none => s
  | some i => { s with slots := slotFailed s.slots i }

/-- A start from its first step. -/
def State.start (s : State) (warm : Bool) : State :=
  let s := s.failTrial.restarted warm
  s.boot warm (bootOrder s.slots)

/-- COLD_START (21 R386). -/
def execColdStart (s : State) : Result := .next (s.start false)

/-- WARM_START (21 R386). -/
def execWarmStart (s : State) : Result := .next (s.start true)

/-- START_TIMEOUT (21 R385): a start that has not reached `READY` within 180 s fails, and is tried from the next
slot. -/
def execStartTimeout (s : State) : Result :=
  match s.step with
  | .starting i warm =>
    let rest := (bootOrder s.slots).dropWhile (· != i) |>.drop 1
    .next ({ s with slots := slotFailed s.slots i }.boot warm rest)
  | _ => .next s

/-- TRIAL_CONFIRM_TIMEOUT (21 R385): a trial not confirmed within 600 s can no longer be; the next start treats it as
failed. -/
def execTrialConfirmTimeout (s : State) : Result :=
  match s.trialAt with
  | some t => .next (if t + 4800000000000 ≤ s.ticks then { s with trialAt := none } else s)
  | none => .next s

/-! ### Power (21 R389) -/

/-- The gating step of a die after a sample: at least 1 while it is over its limits, else not above its present step.
The rule gives no other value, so it is a free one (assumption log 24). -/
def State.gateStep (s : State) (die : Nat) (hot : Bool) : State :=
  let (d, s) := s.drawNat
  let g := s.gate.getD die 0
  { s with gate := setAt s.gate die (if hot then 1 + d % 12 else d % (g + 1)) }

/-- OVERTEMP_STOP (21 R389): the module stops until a cold start. -/
def execOvertempStop (s : State) : Result :=
  .next { s.report { sev := 2, src := 12, loc := s.ev.obj } with stopped := true }

/-- POWER_SAMPLE (21 R389): the 1 ms average of the samples of 10 µs, and the temperatures of the dies. -/
def execPowerSample (s : State) : Result :=
  let xs := (s.avg ++ [s.ev.obj]).drop (s.avg.length + 1 - 100)
  let temps := s.ev.nats
  let s := { s with avg := xs }
  let hot : Bool := s.plim * 1000 * xs.length < xs.sum
  let s := s.gateStep 0 (hot || 105 < temps.getD 0 0)
  let s := s.gateStep 1 (hot || 105 < temps.getD 1 0)
  let stop := (List.range 2).filter (fun d => 115 ≤ temps.getD d 0)
  .next (s.push (stop.map (fun d => evWork .overtempStop d)))

end Sys2Proof.Machine
end

