-- ==== Sys2Proof/Machine/Fabric.lean ====
section
/-! DEFINITION. The fabric (22): links and their keys, requests of other modules, congestion, and scale-out ports. -/

namespace Sys2Proof.Machine

open Sys2Proof

/-! ### Links (22 R393, R395, R400 to R402) -/

/-- A scale-up port by its number. -/
def State.port? (s : State) (n : Nat) : Option Port := s.ports.find? (fun (p : Port) => p.num == n)

/-- Changes a port. -/
def State.modPort (s : State) (n : Nat) (f : Port → Port) : State :=
  { s with ports := updWhere (fun (p : Port) => p.num == n) f s.ports }

/-- Routes change (22 R395): requests that are outstanding on a link that is down are sent again on the new route. -/
def State.reroute (s : State) : State :=
  s.routes.foldl (fun s r =>
    if s.portUp r.port then s
    else match s.portFor (r.line * 128) with
      | none => s
      | some p => ({ s with routes := updWhere (fun x => x == r) (fun x => { x with port := p }) s.routes }).sendFlit p) s

/-- LINK_DOWN (22 R395): the port carries nothing until it is trained again, and routes change. -/
def execLinkDown (s : State) : Result :=
  let now := s.ticks
  .next (s.modPort s.ev.obj (fun p =>
    { p with
      up := false
      downAt := if p.up then now else p.downAt
      fails := 0 })).reroute

/-- LINK_UP (22 R392, R393): the port is trained with the far end that it is wired to, at 224 Gb/s with a ZV9 alone, which a switch
plane is not; the exchange of 21 R384 gives bank 0 of both directions its key; and routes change. -/
def execLinkUp (s : State) : Result :=
  let ev := s.ev
  let key : LinkDir := { since := s.ticks, bank0 := true }
  .next (s.modPort ev.obj (fun p =>
    { p with
      up := true
      fast := ev.flag && p.num < 30
      peer := s.wiredPeer p.num
      rev := BitVec.ofNat 8 ev.aux
      fails := 0
      tx := key
      rx := key })).reroute

/-- Whether a bank of a direction holds a key. -/
def LinkDir.holds (d : LinkDir) (kg : Bool) : Bool := if kg then d.bank1 else d.bank0

/-- Sets whether a bank holds a key. -/
def LinkDir.setBank (d : LinkDir) (kg v : Bool) : LinkDir := if kg then { d with bank1 := v } else { d with bank0 := v }

/-- The crossbar of this module forwards a request to a module whose direct links it has (22 R395); the relay takes the 288 cycles
by which Table 22-3 tells a relayed from a direct access. -/
def State.forward (s : State) (into : Nat) (r : RemoteReq) : State :=
  match (if s.directUp (moduleOf r.addr) then s.portFor r.addr else none) with
  | none => s
  | some o =>
    let x : Forward := { into := into, out := o, till := s.ticks + 5 * 288 }
    State.sendFlit { s with forwards := s.forwards ++ [x] } o

/-- FLIT_RECEIVE (22 R402): a flit of an up port whose tag verifies under a bank that holds a key is accepted, its requests to
other modules forwarded; another is discarded and replayed, and the sixteenth replay in a row that fails takes the link down
(22 R395). -/
def execFlitReceive (s : State) : Result :=
  let ev := s.ev
  match s.port? ev.obj with
  | none => .next s
  | some p =>
    if !p.up then .next s
    else if p.rx.holds ev.flag && ev.flag2 then
      let s := s.modPort p.num (fun p =>
        { p with
          fails := 0
          rx := p.rx.flit ev.flag })
      let (away, here) := ev.reqs.partition (fun r => s.isRemote r.addr)
      .next ((away.foldl (fun s r => s.forward p.num r) s).push (here.map (fun r => .event .remoteRequest { reqs := [r] })))
    else
      let s := (s.modPort p.num (fun p =>
        { p with
          fails := p.fails + 1
          replays := p.replays.filter (fun t => s.ticks < t + 8000000) ++ [s.ticks] })).report
            { sev := 0, src := 9, loc := p.num }
      .next (if p.fails < 16 then s else s.push [evWork .linkDown p.num])

/-- Changes one direction of a port: `true` the transmitting one. -/
def State.modDir (s : State) (n : Nat) (tx : Bool) (f : LinkDir → LinkDir) : State :=
  s.modPort n (fun p => if tx then { p with tx := f p.tx } else { p with rx := f p.rx })

/-- A direction of a port. -/
def Port.dir (p : Port) (tx : Bool) : LinkDir := if tx then p.tx else p.rx

/-- A rekey begins (22 Table 22-6): the new key goes into the other bank; where the key update fails, which is a free
value, it is tried again after 1 s. -/
def State.rekey (s : State) (n : Nat) (tx : Bool) : State :=
  match s.port? n with
  | none => s
  | some p =>
    if (p.dir tx).st != .steady then s
    else
      let (ok, s) := s.drawBool
      if ok then s.modDir n tx (fun d =>
        { d.setBank (!d.g) true with
          st := .installed
          retry := none })
      else s.modDir n tx (fun d => { d with retry := some (s.ticks + 8000000000) })

/-- REKEY_DUE (22 R401). -/
def execRekeyDue (s : State) : Result := .next (s.rekey s.ev.obj s.ev.flag)

/-- REKEY_INSTALL_ACK (22 Table 22-6): the sender's next flit is under the new bank, whose key is in use from now on. -/
def execRekeyInstallAck (s : State) : Result :=
  let now := s.ticks
  .next (s.modDir s.ev.obj s.ev.flag (fun d =>
    if d.st == .installed then { d with
      kg := !d.g
      since := now
      from_ := d.fseq
      st := .switched }
    else d))

/-- REKEY_OLD_ACKED (22 Table 22-6): the old bank is erased. -/
def execRekeyOldAcked (s : State) : Result :=
  .next (s.modDir s.ev.obj s.ev.flag (fun d =>
    if d.st == .switched then { d.setBank d.g false with
      g := !d.g
      st := .steady }
    else d))

/-- Whether a direction of an up port is to be rekeyed: 60 minutes have passed, or 2^36 flits used the key, and the key update
is not waiting to be tried again (22 R401). -/
def LinkDir.keyOld (d : LinkDir) (now : Nat) : Bool :=
  d.st == .steady && d.retry.isNone && (d.since + 28800000000000 ≤ now || 2 ^ 36 ≤ d.fseq + 1 - d.from_)

/-- REKEY_RETRY (22 Table 22-6): 1 s after a failed key update. -/
def execRekeyRetry (s : State) : Result :=
  let tx := s.ev.flag
  match (s.port? s.ev.obj).bind (fun p => (p.dir tx).retry) with
  | some t => .next (if t ≤ s.ticks then s.rekey s.ev.obj tx else s)
  | none => .next s

/-! ### Congestion (22 R403) -/

/-- The transmit backlog of a port toward a module, in flits: the requests of this module there that are not performed (assumption
log 64). -/
def State.backlog (s : State) (port m : Nat) : Nat :=
  ((s.homes.filter (fun h => s.isRemote (h.line * 128) && moduleOf (h.line * 128) == m)).map (fun h =>
    (h.queue.filter (fun w => s.routes.any (fun r => r.core == w.core && r.line == h.line && r.port == port))).length)).sum

/-- What the ports measure in a cycle: which backlogs are above 75% of the credits, and since when; requests that have returned and
flits that are forwarded leave their routes. -/
def State.settleLinks (s : State) : State :=
  if s.routes.isEmpty && s.backlogs.isEmpty && s.forwards.isEmpty then s
  else
    let live := s.routes.filter s.routeLive
    let pairs := (live.map (fun r => (r.port, moduleOf (r.line * 128)))).eraseDups
    let full := pairs.filter (fun x => 3 * Config.credits x.1 < 4 * s.backlog x.1 x.2)
    { s with
      routes := live
      forwards := s.forwards.filter (fun x => s.ticks < x.till)
      backlogs := full.map (fun x =>
        (s.backlogs.find? (fun b => b.port == x.1 && b.target == x.2)).getD { port := x.1, target := x.2, since := s.ticks }) }

/-- Whether a backlog sends a hint: after 2 µs above the mark, and every 5 µs from then on. -/
def Backlog.due (b : Backlog) (now : Nat) : Bool := b.since + 16000 ≤ now && b.hint.all (fun t => t + 40000 ≤ now)

/-- The duration in ns of a hint: the backlog of 640-byte flits over the port's rate, 112 or 106.25 bytes in a ns, clamped. -/
def hintTime (flits : Nat) (fast : Bool) : Nat := max 1 (min 10000 (640 * flits * 4 / (if fast then 448 else 425)))

/-- BACKLOG_HINT (22 R403): the port sends the stall hint for the target to its die. -/
def execBacklogHint (s : State) : Result :=
  let this := fun (b : Backlog) => b.port == s.ev.obj && b.target == s.ev.sub
  match s.backlogs.find? this, s.port? s.ev.obj with
  | some b, some p =>
    if !b.due s.ticks then .next s
    else
      let t := hintTime (s.backlog b.port b.target) p.fast
      let s := { s with backlogs := updWhere this (fun b => { b with hint := some s.ticks }) s.backlogs }
      .next (s.push [evWork .stallHint (Config.portDie p.num % 2) b.target t])
  | _, _ => .next s

/-! ### Requests of other modules (22 R394 to R399) -/

/-- How many bytes a request names. -/
def RemoteReq.size (r : RemoteReq) : Nat :=
  match r.op with
  | .load n => n
  | .store bs => bs.length
  | .atom op ty _ => atomBytes op.toNat ty.toNat
  | .cas wide _ _ => if wide then 8 else 4
  | .join => 8
  | .other => 4

/-- Whether Table 7-3 of 07 defines a request's atomic code (22 R399). -/
def RemoteReq.defined (r : RemoteReq) : Bool :=
  match r.op with
  | .atom op ty _ => op.toNat < 7 || ty.toNat < 2
  | _ => true

/-- Whether the export table lets a request through (22 R396). -/
def State.exported (s : State) (r : RemoteReq) : Bool :=
  s.exports.any (fun (e : Export) => e.src == r.src && e.tenant == r.tenant && e.base ≤ r.addr && r.addr + RemoteReq.size r ≤ e.base + e.len)

/-- Answers a request. -/
def State.answer (s : State) (r : RemoteReq) (a : RemoteAnswer) : State := s.answerTo r.src r.tag r.addr a

/-- A write of another module at its home here; its answer comes when it is performed. -/
def State.remoteWrite (s : State) (r : RemoteReq) (op : WriteOp) : State :=
  s.writeAtHome (r.addr / 128) { op := op, reply := some (r.src, r.tag) }

/-- A store of another module, in parts that each lie in one line; the last part's performing answers it. -/
def State.remoteStore (s : State) (r : RemoteReq) (bs : List Byte) : State :=
  let cells := (List.range bs.length).map (fun i => (r.addr + i, bs.getD i 0))
  let lines := (cells.map (fun c => c.1 / 128)).eraseDups
  lines.foldl (fun s ln =>
    let op := WriteOp.store (cells.filter (fun c => c.1 / 128 == ln))
    s.writeAtHome ln { op := op, reply := if some ln == lines.getLast? then some (r.src, r.tag) else none }) s

/-- The lines that a request touches. -/
def RemoteReq.lines (r : RemoteReq) : List Nat :=
  (List.range ((r.addr + RemoteReq.size r - 1) / 128 + 1 - r.addr / 128)).map (fun i => r.addr / 128 + i)

/-- The leases of a load of another module: the earliest of those of its lines. -/
def State.grantLines (s : State) (lines : List Nat) : Nat × State :=
  lines.foldl (fun x ln =>
    let (e, s) := x.2.grant ln true
    (if x.1 == 0 then e else min x.1 e, s)) (0, s)

/-- Performs a request at its home (22 R396, R397, R399); data with an uncorrectable error is refused, reported and tested (18
R328). A load of a line that a row command holds waits, and so do later requests of its source to that line (R394). A request
of other than 4 to 256 bytes is not supported (R392; its answer is DEDUCED, assumption log 118). -/
def State.performRemote (s : State) (r : RemoteReq) : State :=
  let n := RemoteReq.size r
  let bad := s.badSector [(r.addr, n)]
  let lost := fun (x : Nat) => (s.answer r (.refused 0x04)).raiseError { sev := 1, src := 6, tenant := r.tenant } 5 (s.dram (x * 64)).place
  if !s.synced then s.answer r (.refused 0x03)
  else if !s.exported r then s.answer r (.refused 0x02)
  else if n < 4 || 256 < n || !RemoteReq.defined r then s.answer r .unsupported
  else if s.inbox.any (fun x => x.src == r.src && (RemoteReq.lines x).any (fun ln => (RemoteReq.lines r).contains ln)) then
    { s with inbox := s.inbox ++ [r] }
  else match r.op, bad with
    | .other, _ => s.answer r .unsupported
    | .store bs, _ => s.remoteStore r bs
    | _, some x => lost x
    | .load _, none =>
      if (RemoteReq.lines r).any (fun ln => s.fetchHeld (ln * 128)) then { s with inbox := s.inbox ++ [r] }
      else
        let s := (sectorsOf r.addr n).foldl (fun s a => s.mscTouch a 0 false) (s.engineLoads r.addr n)
        let (e, s) := s.grantLines (RemoteReq.lines r)
        s.answer r (.lease (s.homeBytes r.addr n) e)
    | .atom op ty v, none => s.remoteWrite r (.atom r.addr op.toNat ty.toNat v)
    | .cas wide c v, none => s.remoteWrite r (.cas r.addr wide c v)
    | .join, none => s.remoteWrite r (.dec r.addr)

/-- REMOTE_REQUEST (22 R395, R396): a request whose source and tag have been seen in the last 100 µs is discarded. -/
def execRemoteRequest (s : State) : Result :=
  match s.ev.reqs with
  | [] => .next s
  | r :: _ =>
    let live := s.tagsSeen.filter (fun x => s.ticks < x.2.2 + 800000)
    if live.any (fun x => x.1 == r.src && x.2.1 == r.tag) then .next { s with tagsSeen := live }
    else .next ({ s with tagsSeen := live ++ [(r.src, r.tag, s.ticks)] }.performRemote r)

/-! ### Scale-out ports (22 R404, R405) -/

/-- Changes a queue pair. -/
def State.modQp (s : State) (n : Nat) (f : QueuePair → QueuePair) : State :=
  { s with qps := updWhere (fun (q : QueuePair) => q.num == n) f s.qps }

/-- A queue pair goes in error (22 R405). -/
def State.qpError (s : State) (q : QueuePair) : State :=
  (s.modQp q.num (fun q => { q with error := true })).report { sev := 1, src := 9, tenant := q.tenant, loc := q.num }

/-- The bytes of a work request as the port reads them at their home (22 Table 22-7). -/
def State.workRequest (s : State) (q : QueuePair) (i : Nat) : Option (List Byte) × State :=
  s.tenantRead q.tenant (q.ring + 64 * (i % 2 ^ q.log2)) 64

/-- Whether a work request may run (22 R405): no reserved field, and its local bytes in a registered region. -/
def State.requestOk (s : State) (q : QueuePair) (bs : List Byte) : Bool :=
  let op := fieldAt bs 0 8
  let a := fieldAt bs 8 8
  let n := fieldAt bs 0x1C 4
  (op == 1 || op == 2) && fieldAt bs 0x28 24 == 0 && 1 ≤ n && n ≤ 2 ^ 31 &&
  s.regions.any (fun (r : Region) => r.tenant == q.tenant && r.base ≤ a && a + n ≤ r.base + r.len && (op == 1 || r.write))

/-- The port that carries a queue pair's traffic (22 R404): that of its number mod 6, or, where that is down, one of those that are
up. -/
def State.qpPort (s : State) (num : Nat) : Option Nat :=
  let up := (List.range 6).filter (fun k => s.outPorts.getD k false)
  if up.contains (num % 6) then some (num % 6) else up[num % up.length]?

/-- Starts the requests of a queue pair up to an index: the port reads each, and the local bytes of a WRITE, at their homes. One
that may not run puts the queue pair in error. -/
def State.startRequests (s : State) (num : Nat) : Nat → State
  | 0 => s
  | k + 1 =>
    match s.qps.find? (fun (q : QueuePair) => q.num == num) with
    | none => s
    | some q =>
      if q.error then s
      else match s.workRequest q q.prod with
        | (none, s) => s.qpError q
        | (some bs, s) =>
          if !s.requestOk q bs then s.qpError q
          else
            let go := fun (data : List Byte) (s : State) =>
              s.modQp num (fun q => { q with prod := q.prod + 1, started := q.started ++ [{ bytes := bs, data := data }] })
            if fieldAt bs 0 8 != 1 then (go [] s).startRequests num k
            else match s.tenantRead q.tenant (fieldAt bs 8 8) (fieldAt bs 0x1C 4) with
              | (none, s) => s.qpError q
              | (some data, s) => (go data s).startRequests num k

/-- SCALEOUT_DOORBELL (22 R405): the requests up to the new producer index start. -/
def execScaleoutDoorbell (s : State) : Result :=
  match s.qps.find? (fun (q : QueuePair) => q.num == s.ev.obj) with
  | none => .next s
  | some q =>
    let new := s.ev.val.toNat - q.prod
    .next (if 2 ^ q.log2 < new then s else s.startRequests q.num new)

/-- Adds −1 at a signal address of a tenant (21 R373). -/
def State.signalAt (s : State) (tenant a : Nat) : State :=
  if a == 0 || a % 8 != 0 then s
  else match s.translate tenant a .write with
    | .error _ => s
    | .ok pa => s.writeAtHome (pa / 128) { op := .atom pa 0 2 (w64 (2 ^ 64 - 1)) }

/-- WORK_REQUEST_COMPLETE (22 R405): the oldest request that was started has reached its end over a port that is up; a READ first
writes its local bytes, which are free values, and its signal follows once they are performed. -/
def execWorkRequestComplete (s : State) : Result :=
  match s.qps.find? (fun (q : QueuePair) => q.num == s.ev.obj) with
  | none => .next s
  | some q =>
    if q.error || (s.qpPort q.num).isNone then .next s
    else match q.started with
      | [] => .next s
      | x :: _ =>
        let bs := x.bytes
        let done := fun (s : State) =>
          (s.modQp q.num (fun q =>
            { q with
              cons := q.cons + 1
              started := q.started.drop 1
              wrote := none })).signalAt q.tenant (fieldAt bs 0x20 8)
        if fieldAt bs 0 8 == 1 then .next (done s)
        else match q.wrote with
          | some m => .next (if s.originQueued m then s else done s)
          | none =>
            let (data, s) := s.drawBytes (fieldAt bs 0x1C 4)
            let mark := 2 ^ 45 + q.num
            match s.tenantWrite q.tenant (fieldAt bs 8 8) data mark with
            | (none, s) => .next (s.qpError q)
            | (some _, s) =>
              if s.originQueued mark then .next (s.modQp q.num (fun q => { q with wrote := some mark })) else .next (done s)

/-- REMOTE_ERROR_NAK (22 R405): the queue pair goes in error, and the request's signal is not raised. -/
def execRemoteErrorNak (s : State) : Result :=
  match s.qps.find? (fun (q : QueuePair) => q.num == s.ev.obj) with
  | none => .next s
  | some q => .next (if q.error || q.started.isEmpty then s else s.qpError q)

end Sys2Proof.Machine
end

