-- ==== Sys2Proof/Machine/Outside.lean ====
section
/-! DEFINITION. What happens to the part from outside its instructions, with no event of the opcode table: errors that arise
or are corrected (01 R15, 08 R166, 11 R219, R227, 13 R263, R264, 18 R328), the blocks of vault space that firmware gives
to tenants (13 R246), and what firmware, the operator and the tray configure. -/

namespace Sys2Proof.Machine

open Sys2Proof

/-! ### Errors -/

/-- An uncorrectable error in a sector of an L1 line (11 R227): a clean sector is invalidated; a dirty one loses its bytes,
and every team on the core ends with `CORE_ERROR`. Both are reported, and the line's test follows (21 R388). -/
def State.l1Error (s : State) (core line sec : Nat) : State :=
  match s.l1Line? core line with
  | none => s
  | some l =>
    let inSec := fun (o : Nat) => o / 64 == sec
    let dirty := l.dirty.any (fun d => inSec d.1)
    let left := l.dirty.filter (fun d => !inSec d.1)
    let l := { l with
      v0 := l.v0 && sec != 0
      v1 := l.v1 && sec != 1
      bytes := l.bytes.filter (fun b => !inSec b.1)
      dirty := left
      since := if left.isEmpty then none else l.since
      owners := if left.isEmpty then [] else l.owners }
    let ts := if dirty then s.teams.filter (fun (t : Team) => t.core == core && t.finished.isNone) else []
    let s := (s.setL1 l).raiseError { sev := 1, src := 3, tenant := (ts.map (fun (t : Team) => t.tenant)).headD 0xFFFF } 3
      (core * 128 + line % 128)
    ts.foldl (fun s t => s.abortLaunch t.die t.launch 2) s

/-- An uncorrectable error in the entries of a copy engine (13 R264): every copy held there ends with `ECC`. -/
def State.copyError (s : State) (cluster : Nat) : State :=
  let mine := fun (c : Copy) => c.cluster == cluster && !c.spilled && c.status == 0
  let ids := (s.copies.filter mine).map (fun (c : Copy) => c.id)
  let s := s.dropFaults (fun e => match e with
    | .copy id _ _ => ids.contains id
    | _ => false)
  { s with copies := updWhere mine (fun c => { c with status := 7, waiting := false }) s.copies }.report
    { sev := 1, src := 8, loc := cluster, result := 3 }

/-! ### Vault blocks (13 R246) -/

/-- Whether a grid that has not ended holds a window on a block of vault space. -/
def State.blockHeld (s : State) (num : Nat) : Bool :=
  s.launches.any (fun (l : Launch) => l.die == num / 8192 && !l.ended &&
    vaultGranted l.desc.vwin (num % 8192 * 65536) false)

/-- A block that no grid holds a window on is zeroed and changes hands; one that is held waits. -/
def State.moveBlock (s : State) (num owner : Nat) : State :=
  if s.blockHeld num then { s with blockMoves := s.blockMoves ++ [(num, owner)] }
  else { s with
    vault := s.vault.filter (fun c => c.1 / 65536 != num)
    blocks := Sparse.put 0 s.blocks num owner }

/-- The blocks whose windows have ended change hands. -/
def State.settleBlocks (s : State) : State :=
  s.blockMoves.foldl (fun s x => s.moveBlock x.1 x.2) { s with blockMoves := [] }

/-! ### Configuration -/

/-- Whether firmware maps a page (18 Table 18-1, 15 R287): it is aligned, its addresses are canonical and free, and its frame
is memory, in use, of this module, or lies on another. -/
def State.mappable (s : State) (p : Page) : Bool :=
  canonical p.va && p.va % p.size == 0 && p.pa % p.size == 0 && p.pa < 2 ^ 60 &&
  (s.isRemote p.pa || p.pa % 2 ^ 51 + p.size ≤ memEnd) &&
  s.pages.all (fun (y : Page) => y.tenant != p.tenant || !meets p.va p.size y.va y.size) &&
  s.retired.all (fun f => !meets p.pa p.size f 16384)

/-- Whether a change of `RCMAP` of a stack is made (18 R324): no page is mapped in a region whose bit changes. -/
def State.rcmapFree (s : State) (stack : Nat) (v : W64) : Bool :=
  (List.range 64).all (fun g => (s.rcmap.getD stack 0).getLsbD g == v.getLsbD g ||
    (s.pagesOn (s.module * 2 ^ 51 + stack * 2 ^ 36 + g * 2 ^ 30) (2 ^ 30)).isEmpty)

/-- A tenant's budget of B group-slot nanoseconds in a period of T ns on a die (15 R280); what is left of one that it had
stays until the next refill. -/
def State.setBudget (s : State) (die tenant b t : Nat) : State :=
  let mine := fun (x : Budget) => x.die == die && x.tenant == tenant
  let left := ((s.budgets.find? mine).map (fun (x : Budget) => x.left)).getD (8 * b)
  if 10000 ≤ t && t ≤ 1000000000 then
    { s with budgets := s.budgets.filter (fun x => !mine x) ++ [{ die := die, tenant := tenant, b := b, t := t, left := left }] }
  else s

/-- The operator raises `MINSVN`, never above the SVN of the `CURRENT` slot (21 R383). -/
def State.raiseMinsvn (s : State) (v : Nat) : State :=
  match s.slots.find? (fun (x : BootSlot) => x.st == .current) with
  | some x => if s.minsvn ≤ v && v ≤ x.field 0x008 4 then { s with minsvn := v } else s
  | none => s

/-- Whether a range lies in one tenant's queue memory, the ring or the data region of a queue of its, or in an output ring of
one of its sessions (21 R382; which memory is a tenant's queue memory is DEDUCED, assumption log 115). -/
def State.regionOk (s : State) (r : Region) : Bool :=
  let within := fun (base len : Nat) => base ≤ r.base && r.base + r.len ≤ base + len
  s.queues.any (fun (q : HostQueue) => q.tenant == r.tenant &&
    (within q.ring (64 * 2 ^ q.log2) || (capIs q.qdata 0 && within q.qdata.base q.qdata.len))) ||
  s.sessions.any (fun (x : Session) => x.tenant == r.tenant && within x.ring x.bytes)

/-- A capability whose bytes an ordinary write has reached: its tag is clear (21 R367). -/
def untag (c : Capability) : Capability := { c with tag := false }

/-- An ordinary write to a capability's bytes in firmware memory (21 R367). -/
def State.plainWrite (s : State) (p : CapPlace) : State :=
  match p with
  | .ring n => s.modQueue n (fun q => { q with ringCap := untag q.ringCap })
  | .queueState n => s.modQueue n (fun q => { q with stateCap := untag q.stateCap })
  | .data n => s.modQueue n (fun q => { q with qdata := untag q.qdata })
  | .image n => s.modAnyGroup n (fun g => { g with imgCap := untag g.imgCap })
  | .errorLog => { s with errCap := untag s.errCap }
  | .key n => s.modEhp n (fun x => { x with key := untag x.key })

/-- Firmware grants a camera, by its number, or an encode session, by 256 and its number. -/
def State.grantMedia (s : State) (k : Nat) (tenant : Option Nat) : State :=
  { s with grants := Sparse.put 0 s.grants k ((tenant.map (· + 1)).getD 0) }

/-! ### All of them -/

/-- What a happening does. -/
def State.happen (s : State) (x : Happening) : State :=
  match x with
  | .corrected kind loc => s.raiseError { sev := 0, src := testSource kind } kind loc
  | .poisoned kind key => { s with poison := if s.poison.contains (kind, key) then s.poison else s.poison ++ [(kind, key)] }
  | .streamEntry gid lane fwd n => s.modLane gid lane (fun l =>
      if fwd then { l with fwdBad := if n < l.fwd.length && !l.fwdBad.contains n then l.fwdBad ++ [n] else l.fwdBad }
      else { l with retBad := if n < l.ret.length && !l.retBad.contains n then l.retBad ++ [n] else l.retBad })
  | .register gid key => s.modGroup gid (fun g => { g with bad := if g.bad.contains key then g.bad else g.bad ++ [key] })
  | .l1Sector core line sec => s.l1Error core line sec
  | .copyEntries cluster => s.copyError cluster
  | .clearLine die line => { s with poison := s.poison.filter (· != (2, die * 2 ^ 22 + line)) }
  | .block num tenant => s.moveBlock num ((tenant.map (· + 1)).getD 0)
  | .mapPage p => if s.mappable p then { s with pages := s.pages ++ [p] } else s
  | .demandMap r => { s with demand := s.demand ++ [r] }
  | .rcmap stack v => if stack < 8 && s.rcmapFree stack v then { s with rcmap := setAt s.rcmap stack v } else s
  | .budget die tenant b t => s.setBudget die tenant b t
  | .minsvn v => s.raiseMinsvn v
  | .service n => if 0x80 ≤ n && n < 0x100 then { s with services := s.services ++ [n] } else s
  | .regionAdd r => if s.regionOk r then { s with regions := s.regions ++ [r] } else s
  | .hostPair n => if s.hostQps.length < 4096 && !s.hostQps.contains n then { s with hostQps := s.hostQps ++ [n] } else s
  | .hostOther => { s with outbox := s.outbox ++ [.nak] }
  | .plainWrite p => s.plainWrite p
  | .cameraGrant n t => if n < 256 then s.grantMedia n t else s
  | .sessionGrant n t => if n < 64 then s.grantMedia (256 + n) t else s
  | .exportAdd e => { s with exports := s.exports ++ [e] }
  | .scaleOutPort n up => { s with outPorts := setAt s.outPorts n up }
  | .queuePair q =>
    if 4 ≤ q.log2 && q.log2 ≤ 16 && !s.qps.any (fun (x : QueuePair) => x.num == q.num) then
      { s with qps := s.qps ++ [{ num := q.num, tenant := q.tenant, ring := q.ring, log2 := q.log2, door := q.door }] }
    else s
  | .keepMemory tenant on => { s with keep := s.keep.filter (· != tenant) ++ (if on then [tenant] else []) }
  | .moduleNumber n => if n < 320 then { s with module := n } else s
  | .object x => { s with tables := s.tables ++ [x] }

end Sys2Proof.Machine
end

