-- ==== Sys2Proof/Machine/Cycle.lean ====
section
/-! DEFINITION. One core cycle (08 R152, 00 R9): the time passes, what has fallen due comes first, and each partition
picks what it issues. What happens at an instant that the spec leaves open happens as soon as it can. -/

namespace Sys2Proof.Machine

open Sys2Proof

/-! ### What passes with the time -/

/-- One cycle of a tenant's budget (15 R280): each resident group takes 5/8 ns; a budget that this would use up is
exhausted by an event, and a multiple of the period refills it. -/
def State.spend (s : State) (old : Nat) (b : Budget) : State :=
  let n := (s.groups.filter (fun (g : Group) => dieOfCore g.core == b.die && g.tenant == b.tenant)).length
  let s := if 5 * n < b.left then s.modBudget b.die b.tenant (fun b => { b with left := b.left - 5 * n })
    else if n != 0 && b.left != 0 then s.push [evWork .budgetExhausted b.die b.tenant] else s
  if b.t != 0 && old / b.t != s.time / b.t then s.push [evWork .budgetRefill b.die b.tenant] else s

/-- Whether a group's stall is over (07 R140, 18 R345). A fence waits for every load and atomic to return; a
narrow one then for the vault writes that pins hold back, a wide one for every write and engine and for the device time.
A narrow one, too, waits for the device time of a row command's completion that has reached `WCTIME` (17 R317). -/
def State.waitOver (s : State) (g : Group) : Bool :=
  match g.wait with
  | .fence wide slack => g.lanes.all (fun l => l.back ≤ s.ticks) &&
    if wide then
      let extra := if !slack then 0 else if s.synced then 50 else 1000
      !s.unperformed g.id && !s.engineOwes g.id && g.wctime + extra ≤ s.time
    else !s.unreturned g.id && g.rowtime ≤ s.time
  | .rows n => s.rowsLive g.team ≤ n
  | _ => false

/-- The groups whose stall is over go on. -/
def State.settleWaits (s : State) : State :=
  let free := (s.groups.filter s.waitOver).map (fun (g : Group) => g.id)
  free.foldl (fun s id => s.modGroup id (fun g => { g with wait := .none })) s

/-- Loads of other modules that a row command held are performed when its lines are free (18 R334). -/
def State.settleInbox (s : State) : State :=
  s.inbox.foldl (fun (s : State) r => s.performRemote r) { s with inbox := [] }

/-- Every core's matrix array takes its next `MMA` (10 R197). -/
def State.feedArrays (s : State) : State :=
  let cores := ((s.teams.filter (fun (t : Team) => t.seq.isSome)).map (fun (t : Team) => t.core)).eraseDups
  cores.foldl State.feedArray s

/-- The groups held on a synchronisation refusal whose modules are synced again replay (21 R376). -/
def State.settleHeld (s : State) : State :=
  let ok := s.held.filter (fun x => (s.anyGroup? x.1).any s.resynced)
  let s := { s with held := s.held.filter (fun x => !ok.contains x) }
  s.push (ok.map (fun x => evWork .laneReplay x.1))

/-- The writes of system registers of team scope in the last cycle hold for what issues from now on (01 R21, 09 R188). -/
def State.retireSr (s : State) : State :=
  { s with teams := s.teams.map (fun (t : Team) => { t.srNext.foldl (fun t x => t.writeSr x.1 x.2) t with srNext := [] }) }

/-- What firmware and the ports read in a cycle: the packets at the queues' read indexes, and the doorbell words and work
requests of the scale-out ports. They are loads of engines (07 R142). -/
def State.polls (s : State) : State :=
  if s.groups.all (fun g => g.tx.isNone) then s
  else
    let s := (s.queues.filter (fun (q : HostQueue) => q.live && q.now.isNone)).foldl (fun s q =>
      s.homeLoads q.tenant (q.ring + 64 * (q.ri % 2 ^ q.log2)) 64) s
    (s.qps.filter (fun (q : QueuePair) => !q.error)).foldl (fun s q =>
      let bell := ((s.homeRead q.tenant q.door 8).map leVal).getD 0
      (List.range (min (bell - q.prod) (2 ^ q.log2))).foldl (fun s i =>
        s.homeLoads q.tenant (q.ring + 64 * ((q.prod + i) % 2 ^ q.log2)) 64) (s.homeLoads q.tenant q.door 8)) s

/-- What passes with a cycle before its events. -/
def State.pass (s : State) : State :=
  let old := s.time
  let s := s.tick
  let s := s.budgets.foldl (fun s b => s.spend old b) s
  s.retireSr.postpone.settleJoins.reap.settleOver.settleVaults.settleBlocks.settleWaits.settleInbox.feedArrays.settleHeld.settleRings.settleLinks.applyHints.polls.sendOut

/-! ### What has fallen due -/

/-- Work when a condition holds. -/
def when_ (b : Bool) (w : Work) : List Work := if b then [w] else []

/-- Events of lanes (09 R175, R176, 02 R35). -/
def Group.laneEvents (g : Group) (now : Nat) : List Work :=
  g.live.flatMap (fun i =>
    let l := g.lane i
    when_ (l.park == 4 && l.napEnd ≤ now) (evWork .napWake g.id i) ++
    when_ (l.yield == 1) (evWork .yieldExpire g.id i) ++
    when_ (l.pend.any (fun p => p.due.isSome)) (evWork .longLatencyRetire g.id i))

/-- Events of groups: a transaction to resume (07 R143), a call to answer (21 R378), a hint that is over (15 R289). -/
def State.groupEvents (s : State) : List Work :=
  s.groups.flatMap (fun (g : Group) =>
    g.laneEvents s.time ++
    when_ (g.tx.any (fun t => t.dead.isSome)) (evWork .txAbortResume g.id) ++
    when_ (match g.wait with
      | .fwcall _ _ _ _ _ _ => true
      | _ => false) (evWork .fwcallAnswer g.id) ++
    when_ (g.hint != 0 && g.hint ≤ s.time) (evWork .stallHintEnd g.id))

/-- Teams that are being pre-empted, each by its first group (08 R163). -/
def State.preemptEvents (s : State) : List Work :=
  s.teams.flatMap (fun (t : Team) => match s.groups.find? (fun (g : Group) => g.team == t.id) with
    | some g => when_ (s.preempting t.id) (evWork .groupPreempt g.id)
    | none => [])

/-- Events of lines (11 R225, 17 R309, R319) and of mappings that firmware removes (15 R287). -/
def State.lineEvents (s : State) : List Work :=
  let due := s.homes.filter (fun h => !(!h.queue.isEmpty && s.homeHeld h.line) && match h.queue with
    | w :: _ => w.row == 0 && w.due ≤ s.time
    | [] => h.pt.any (fun t => t ≤ s.time))
  let txs := (due.flatMap (fun h => h.queue.filterMap (fun w => if w.tx && w.due ≤ s.time then w.gid else none))).eraseDups
  s.l1.flatMap (fun l => match l.since with
    | some t => when_ (t + 1280 ≤ s.ticks) (evWork .dirtyWritebackTimer l.core l.line)
    | none => []) ++
  txs.map (fun g => evWork .txCommitPerform g) ++
  (due.filter (fun h => !h.queue.any (fun w => w.tx && w.due ≤ s.time))).map (fun h => evWork .holdRelease h.line) ++
  s.invals.map (fun x => .event .tlbInvalidate { obj := x.1, val := w64 x.2 })

/-- Events of a team's sequencer, queues and slices (10 R204 to R208, 11 R232, 13 R254, 18 R330, 20 R361). -/
def State.teamEvents (s : State) (t : Team) : List Work :=
  let held := fun (port : Nat) => match t.bound? port with
    | some q => !(t.queue q).entries.isEmpty
    | none => false
  let array := (s.cores.getD t.core {}).array
  (match t.seq with
    | none => []
    | some q =>
      when_ (array.any (fun a => a.1 == t.id && a.2 ≤ s.ticks)) (evWork .mmaRetire t.id) ++
      ((List.range 8).filter (fun n => (q.slotAt n).loading.isSome)).map (fun n => evWork .blockLoadPerformed t.id n)) ++
  when_ (s.canForm t) (evWork .copyForm t.id) ++
  when_ (held 7) (evWork .rowCmdPortTake t.id) ++
  when_ (held 8) (evWork .splatPortEntry t.id) ++
  when_ (held 5 || s.tex.any (fun (x : TexReq) => x.team == t.id && !x.wait)) (evWork .textureRequestServe t.id)

/-- Events of the copy engines (13 R257 to R259), the barrier trees (13 R262) and the arrays (13 R248). -/
def State.clusterEvents (s : State) (gated : Nat → Bool) : List Work :=
  let engines := ((s.copies.filter (fun (c : Copy) => c.movable || !c.active)).map (fun (c : Copy) => c.cluster)).eraseDups
  (engines.filter (fun c => !gated (c / 8))).map (fun c => evWork .copyTurn c) ++
  (s.copies.filter (fun (c : Copy) => c.spilled)).map (fun (c : Copy) => evWork .copyEnd c.id) ++
  (s.tags.filter (fun (x : RouteTag) => x.due.any (fun t => t ≤ s.ticks))).map (fun x => evWork .treePhaseComplete x.die x.tag) ++
  (List.range 704).flatMap (fun a => match s.retention a with
    | .active t => when_ (t + s.idle ≤ s.time && !s.arrayBusy a) (evWork .retentionIdleExpire a)
    | .entering t _ => when_ (t ≤ s.ticks) (evWork .reencodeDone a)
    | .leaving t => when_ (t ≤ s.ticks) (evWork .reencodeDone a)
    | .retained => [])

/-- Events of row commands (18 R329 to R344). -/
def State.rowEvents (s : State) : List Work :=
  s.rows.flatMap (fun (c : RowCmd) =>
    let late : Bool := c.endAt ≤ s.time
    match c.st with
    | .reading => when_ (s.canEnter c) (evWork .rowCmdEnter c.id)
    | .entered => when_ (s.canStart c) (evWork .rowCmdEnter c.id)
    | .faulted => []
    | .run => when_ late (evWork .rowStep c.id)
    | .yield _ => when_ late (evWork .rowSlotEnd c.id)
    | .refresh => when_ late (evWork .rowRefreshDone c.id)
    | .writing | .stat => [])

/-- The events that can add to barrier objects, by ascending hardware cluster of what they serve (13 R251): row commands that
end, `MST`s that are performed, and copies that end. -/
def State.additions (s : State) : List Work :=
  let cluster := fun (team : Nat) => match s.team? team with
    | some t => t.die * 8 + clusterOfCore t.core
    | none => 0
  let rows := (s.rows.filter (fun (c : RowCmd) => c.endAt ≤ s.time && (c.st == .writing || c.st == .stat))).map
    (fun (c : RowCmd) => (cluster c.team, evWork .rowCommandEnd c.id))
  let msts := (s.msts.filter (fun (m : MstCount) => !s.mstHeldBy m.num)).map
    (fun (m : MstCount) => (cluster m.team, evWork .mstPerformed m.team))
  let copies := (s.copies.filter (fun (c : Copy) => !c.spilled && s.copyOver c)).map (fun (c : Copy) => (c.cluster, evWork .copyEnd c.id))
  (sortBy (fun (a b : Nat × Work) => a.1 < b.1) (rows ++ msts ++ copies)).map (·.2)

/-- Refreshes that fall due on banks that running commands hold; when they do is a free value. -/
def State.refreshes (s : State) : State :=
  let one := fun (s : State) (c : RowCmd) =>
    let (due, s) := s.drawBool
    let (k, s) := s.drawNat
    let banks := c.held
    let b := banks.getD (k % max 1 banks.length) 0
    if due && !banks.isEmpty then s.push [evWork .refreshDue (b / 1024) (b / 16 % 64) (b % 16)] else s
  (s.rows.filter (fun (c : RowCmd) => c.st == .run && c.worked)).foldl one s

/-- How long a targeted test takes, in ticks (21 Table 21-8). -/
def testTicks (kind : Nat) : Nat :=
  match kind with
  | 1 => 1600000
  | 5 => 400000
  | 6 => 160000
  | 7 => 40000
  | _ => 16000

/-- Tests whose time is over (21 R388); whether one passes is a free value (assumption log 97). -/
def State.testsOver (s : State) : State :=
  let one := fun (s : State) (t : PendingTest) =>
    let (ok, s) := s.drawBool
    s.push [.event .targetedTestDone { obj := t.num, flag := ok }]
  (s.tests.filter (fun (t : PendingTest) => t.since + testTicks t.kind ≤ s.ticks)).foldl one s

/-- Events of a front end (15 R272 to R288, 16 R294). -/
def State.dieEvents (s : State) (die : Nat) : List Work :=
  let ls := s.launches.filter (fun (l : Launch) => l.die == die)
  let age := s.poolAge die
  (ls.filter (fun l => !l.ring.isEmpty)).map (fun l => evWork .poolRecordBin die l.num) ++
  ((List.range 64).filter (fun k => match (s.bins.getD die []).getD k .free with
    | .bound false _ _ _ rs => aged s.time age rs
    | _ => false)).map (fun k => evWork .poolBinAgeDue die k) ++
  when_ (s.ticks % 2000 < 5 && (ls.any s.atRisk || s.reserves.any (fun r => r.die == die))) (evWork .atRiskTest die) ++
  (ls.filter (fun l => l.after.isSome && !l.spliced && !s.awaitsProducer l)).map (fun l => evWork .consumerDeferredTake die l.num) ++
  (ls.filter (fun l => l.stage == 0 || l.stage == 1 || l.stage == 3)).map (fun l => evWork .launchComplete die l.num) ++
  when_ (!(s.faultq.getD die []).isEmpty) (evWork .faultResolve die) ++
  when_ (s.splats.any (fun (x : Splat) => x.die == die)) (evWork .splatApply die)

/-- Events of cameras and encode sessions (20 R362 to R365). -/
def State.mediaEvents (s : State) : List Work :=
  s.cameras.flatMap (fun (c : Camera) =>
    when_ (c.cen && c.desc.lastClose c.frame ≤ s.time) (evWork .frameClose c.num) ++
    when_ (match c.folds with
      | x :: _ => x.at_ ≤ s.time
      | [] => false) (evWork .foldEnd c.num)) ++
  (s.sessions.filter (fun (x : Session) => (s.encSource x.num).isSome || x.buffered != 0 || x.publish.any (fun p => !s.originQueued p.2))).map
    (fun (x : Session) => evWork .encLineTake x.num)

/-- The packet event of an opcode (21 Table 21-3); an unassigned one halts its queue whichever event meets it. -/
def packetEvent (op : Nat) : Instr :=
  match op with
  | 2 => .pktPair
  | 3 => .pktSignal
  | 4 => .pktWait
  | 5 => .pktKill
  | 6 => .pktCamera
  | 7 => .pktSession
  | _ => .pktLaunch

/-- Events of firmware, the host queues and the host link (21). -/
def State.firmwareEvents (s : State) : List Work :=
  s.queues.flatMap (fun (q : HostQueue) =>
    let here := evWork (packetEvent (fieldAt (q.now.getD (s.packet q)) 0 1)) q.num
    match q.busy, q.st with
    | some line, _ => when_ (!(s.home line).queue.any (fun w => w.origin == q.mark)) here
    | none, .wait t => if s.qwdog != 0 && t + 8 * s.qwdog ≤ s.ticks then [evWork .queueWatchdog q.num] else when_ q.live here
    | none, _ => when_ q.live here) ++
  (s.held.filter (fun x => x.2 + 80000000000 ≤ s.ticks)).map (fun x => evWork .syncHoldTimeout x.1) ++
  (s.events.filter (fun (e : Event) => e.last + 8000000 ≤ s.ticks)).map (fun (e : Event) => evWork .eventRetransmit e.seq e.session) ++
  when_ (s.trialAt.any (fun t => t + 4800000000000 ≤ s.ticks)) (evWork .trialConfirmTimeout 0) ++
  (if s.tstat == .unsynced && s.source && -lockBound ≤ s.off && s.off ≤ lockBound then
    [.event .unsyncedConverge { val := w64 (s.time + (s.off + s.sub + 20000) / 40000).toNat }] else []) ++
  when_ (s.tstat == .holdover && s.since + 800000000 ≤ s.ticks) (evWork .holdoverTimeout 0)

/-- Events of the fabric (22 R401, R403 to R405): failed key updates, hints, doorbell words, and reads whose bytes are
performed. -/
def State.fabricEvents (s : State) : List Work :=
  s.ports.flatMap (fun (p : Port) => [true, false].filterMap (fun tx =>
    if (p.dir tx).retry.any (fun t => t ≤ s.ticks) then some (.event .rekeyRetry { obj := p.num, flag := tx })
    else if p.up && (p.dir tx).keyOld s.ticks then some (.event .rekeyDue { obj := p.num, flag := tx }) else none)) ++
  (s.backlogs.filter (fun b => b.due s.ticks)).map (fun b => evWork .backlogHint b.port b.target) ++
  s.qps.flatMap (fun (q : QueuePair) =>
    let bell := (s.homeRead q.tenant q.door 8).map leVal
    when_ (!q.error && bell.any (fun v => q.prod < v && v ≤ q.prod + 2 ^ q.log2))
      (.event .scaleoutDoorbell { obj := q.num, val := w64 (bell.getD 0) }) ++
    when_ (q.wrote.any (fun m => !s.originQueued m)) (evWork .workRequestComplete q.num))

/-- Everything that has fallen due. -/
def State.dueEvents (s : State) (gated : Nat → Bool) : List Work :=
  s.lineEvents ++ s.groupEvents ++ s.rowEvents ++ s.teams.flatMap s.teamEvents ++ s.clusterEvents gated ++
    s.additions ++ s.mediaEvents ++ [0, 1].flatMap s.dieEvents ++ s.preemptEvents ++ s.firmwareEvents ++ s.fabricEvents

/-! ### The cycle -/

/-- Whether a die idles in this cycle (21 R389): gating at step g takes g cycles of every 16. -/
def State.gated (s : State) (die : Nat) : Bool := s.ticks / 5 % 16 < s.gate.getD die 0

/-- The partitions that hold groups, in ascending order. -/
def State.partitions (s : State) : List Nat :=
  sortBy (fun a b => a < b) ((s.groups.map (fun (g : Group) => g.core * 4 + g.part)).eraseDups)

/-- The sequencers that issue in a cycle (10 R203), before the partitions: an arrival of a sequencer is counted first
(10 R211). -/
def State.seqIssues (s : State) (gated : Nat → Bool) : List Work :=
  (s.teams.filter (fun (t : Team) => !gated t.die && t.seq.any (fun q => q.st == .running || q.st == .blocked))).map
    (fun (t : Team) => evWork .sequencerIssue t.id)

/-- The picks of every partition (08 R152). -/
def State.issueAll (s : State) (gated : Nat → Bool) : State :=
  (s.partitions.filter (fun p => !gated (dieOfCore (p / 4)))).foldl (fun s p => s.issuePartition (p / 4) (p % 4)) s

/-- The further picks of the partitions whose picks could not issue: an address that cannot issue was not ready. -/
def State.issueAgain (s : State) (gated : Nat → Bool) : State :=
  (s.partitions.filter (fun p => !gated (dieOfCore (p / 4)) && s.missed (p / 4) (p % 4))).foldl
    (fun s p => s.issuePartition (p / 4) (p % 4)) s

/-- What the front ends place in a cycle, after what its events and issues have released (15 R272, R278, R282): on each
die the unit or the pool group whose turn is first, then the other kind. -/
def State.placings (s : State) : List Work :=
  [0, 1].flatMap (fun die =>
    let ls := s.launches.filter (fun (l : Launch) => l.die == die)
    let units := when_ (ls.any s.hasUnit) (evWork .teamPlace die)
    let bins := when_ (!(s.dueBins die).isEmpty) (evWork .poolGroupForm die)
    if s.poolFirst die then bins ++ units else units ++ bins)

/-- ISSUE_CYCLE (08 R152) in its three parts: a cycle passes and what has fallen due is done; each partition issues from
the group that it picks, and picks again where a pick could not issue; and the front ends place. During a start, and in `RECOVERY`, nothing but the start itself goes on
(21 R385, R386). -/
def execIssueCycle (s : State) : Result :=
  match s.ev.sub with
  | 0 =>
    if s.step != .ready then
      let s := s.tick
      .next (match s.step with
        | .starting _ _ => if 1440000000000 ≤ s.ticks then s.push [evWork .startTimeout 0] else s
        | _ => s)
    else
      let s := s.pass
      .next ((s.push (s.dueEvents s.gated)).refreshes.testsOver.push [evWork .issueCycle 0 1])
  | 1 => .next (((s.push (s.seqIssues s.gated)).issueAll s.gated).push [evWork .issueCycle 0 2])
  | _ =>
    let again := s.issueAgain s.gated
    if again.agenda.length == s.agenda.length then
      let s := s.endIssues
      .next (s.push s.placings)
    else .next (again.push [evWork .issueCycle 0 2])

end Sys2Proof.Machine
end

