-- ==== Sys2Proof/Machine/Pair.lean ====
section
/-! DEFINITION. P64 pairs (02 R38 to R41): two compact instructions of the pairable class that issue together. -/

namespace Sys2Proof.Machine

open Sys2Proof

/-- What a compact instruction computes, by its expansion (02 R37, R38). -/
def compFn (s : State) (c : COp) (f : Full) : LaneFn :=
  match c with
  | .iadd => intFn f (fun a b => a + b)
  | .isub => intFn f (fun a b => a - b)
  | .imul => intFn f (fun a b => a * b)
  | .imin => intFn f (fun a b => if b < a then b else a)
  | .imax => intFn f (fun a b => if a < b then b else a)
  | .shl => shiftFn f shlVal
  | .shr => shiftFn f shrVal
  | .sar => shiftFn f sarVal
  | .rol => shiftFn f rolVal
  | .and => logicFn f (fun a b => a &&& b)
  | .or => logicFn f (fun a b => a ||| b)
  | .xor => logicFn f (fun a b => a ^^^ b)
  | .andn => logicFn f (fun a b => a &&& ~~~b)
  | .fadd => f32Fn (fpAdd .f32 (s.envFor f))
  | .fsub => f32Fn (fpSub .f32 (s.envFor f))
  | .fmul => f32Fn (fpMul .f32 (s.envFor f))
  | .fmin => f32Fn (minMax32 (s.envFor f) false)
  | .fmax => f32Fn (minMax32 (s.envFor f) true)
  | .hadd2 => packedFn .f16 (fun a b _ => fpAdd .f16 (s.envFor f) a b)
  | .badd2 => packedFn .b16 (fun a b _ => fpAdd .b16 (s.envFor f) a b)
  | .qadd4 => packedFn .e4m3 (fun a b _ => fpAdd .e4m3 (s.envFor f) a b)
  | .qmul4 => packedFn .e4m3 (fun a b _ => fpMul .e4m3 (s.envFor f) a b)
  | .pand => predFn (fun a b => a != 0 && b != 0)
  | .por => predFn (fun a b => a != 0 || b != 0)
  | .pxor => predFn (fun a b => (a != 0) != (b != 0))
  | .wadd => wide2 f (fpAdd .f32 (s.envFor f))
  | .wsub => wide2 f (fpSub .f32 (s.envFor f))
  | .wmul => wide2 f (fpMul .f32 (s.envFor f))
  | .wmin => wide2 f (minMax32 (s.envFor f) false)
  | .wmax => wide2 f (minMax32 (s.envFor f) true)

/-- One half on one lane: its destination's cells with their values, and its flags; nothing where its guard is
false. The sources are those of the group before the pair. -/
def halfOn (s : State) (as : Bool) (h : Half) (g : Group) (i : Nat) : List (RCell × W64) × FlagSet :=
  let f := h.expand as
  let op := h.op.op
  if g.readP i f.gp.toNat != f.gn then
    let (vals, fl) := compFn s h.op f g i (srcA op f g i 0) (srcB op f g i) (srcC op f g i)
    (destVals (dest op f) vals, fl)
  else ([], 0)

/-- Both halves on one lane of the group: all sources first, then all destinations, and the union of the
flags (02 R40). -/
def pairLane (s : State) (as : Bool) (h0 h1 : Half) (g0 g : Group) (i : Nat) : Group :=
  let (c0, f0) := halfOn s as h0 g0 i
  let (c1, f1) := halfOn s as h1 g0 i
  let cs := c0 ++ c1
  let g := g.modLane i (fun l => (l.dropCells (cs.map (·.1))).raise (f0 ||| f1))
  cs.foldl (fun g c => g.writeCell i c.1 c.2) g

/-- P64_PAIR (02 R40): the pair executes on every lane of the issue and counts as one instruction. -/
def execP64Pair (as : Bool) (h0 h1 : Half) (s : State) : Result :=
  let ls := lanesOf s.cur.lanes
  .next (s.modGroup s.cur.gid (fun g0 => (ls.foldl (fun g i => pairLane s as h0 h1 g0 g i) g0).advanceAll ls s.cur.size))

end Sys2Proof.Machine
end

