-- ==== Sys2Proof/Machine/Dispatch.lean ====
section
/-! DEFINITION. The dispatch: one arm for each constructor of `Instr`, each one call of its meaning. -/

namespace Sys2Proof.Machine

open Sys2Proof

/-- The effect of an instruction or event on the module. -/
def exec (i : Instr) (s : State) : Host.Outcome State Fault Refusal :=
  match i with
  | .p64Pair as h0 h1 => Sys2Proof.Machine.execP64Pair as h0 h1 s
  | .iadd f => Sys2Proof.Machine.execIadd f s
  | .isub f => Sys2Proof.Machine.execIsub f s
  | .imul f => Sys2Proof.Machine.execImul f s
  | .imulh f => Sys2Proof.Machine.execImulh f s
  | .imad f => Sys2Proof.Machine.execImad f s
  | .imadw f => Sys2Proof.Machine.execImadw f s
  | .idiv f => Sys2Proof.Machine.execIdiv f s
  | .irem f => Sys2Proof.Machine.execIrem f s
  | .imin f => Sys2Proof.Machine.execImin f s
  | .imax f => Sys2Proof.Machine.execImax f s
  | .iabs f => Sys2Proof.Machine.execIabs f s
  | .ineg f => Sys2Proof.Machine.execIneg f s
  | .shl f => Sys2Proof.Machine.execShl f s
  | .shr f => Sys2Proof.Machine.execShr f s
  | .sar f => Sys2Proof.Machine.execSar f s
  | .rol f => Sys2Proof.Machine.execRol f s
  | .and f => Sys2Proof.Machine.execAnd f s
  | .or f => Sys2Proof.Machine.execOr f s
  | .xor f => Sys2Proof.Machine.execXor f s
  | .andn f => Sys2Proof.Machine.execAndn f s
  | .not f => Sys2Proof.Machine.execNot f s
  | .lea f => Sys2Proof.Machine.execLea f s
  | .sel f => Sys2Proof.Machine.execSel f s
  | .mov f => Sys2Proof.Machine.execMov f s
  | .movi f => Sys2Proof.Machine.execMovi f s
  | .clz f => Sys2Proof.Machine.execClz f s
  | .popc f => Sys2Proof.Machine.execPopc f s
  | .brev f => Sys2Proof.Machine.execBrev f s
  | .icmp f => Sys2Proof.Machine.execIcmp f s
  | .pset f => Sys2Proof.Machine.execPset f s
  | .pand f => Sys2Proof.Machine.execPand f s
  | .por f => Sys2Proof.Machine.execPor f s
  | .pxor f => Sys2Proof.Machine.execPxor f s
  | .pnot f => Sys2Proof.Machine.execPnot f s
  | .pmov f => Sys2Proof.Machine.execPmov f s
  | .cvt f => Sys2Proof.Machine.execCvt f s
  | .fadd f => Sys2Proof.Machine.execFadd f s
  | .fsub f => Sys2Proof.Machine.execFsub f s
  | .fmul f => Sys2Proof.Machine.execFmul f s
  | .ffma f => Sys2Proof.Machine.execFfma f s
  | .fmin f => Sys2Proof.Machine.execFmin f s
  | .fmax f => Sys2Proof.Machine.execFmax f s
  | .fcmp f => Sys2Proof.Machine.execFcmp f s
  | .frcp f => Sys2Proof.Machine.execFrcp f s
  | .frsq f => Sys2Proof.Machine.execFrsq f s
  | .fsqrt f => Sys2Proof.Machine.execFsqrt f s
  | .fexp2 f => Sys2Proof.Machine.execFexp2 f s
  | .flog2 f => Sys2Proof.Machine.execFlog2 f s
  | .fsin f => Sys2Proof.Machine.execFsin f s
  | .fcos f => Sys2Proof.Machine.execFcos f s
  | .fclass f => Sys2Proof.Machine.execFclass f s
  | .frnd f => Sys2Proof.Machine.execFrnd f s
  | .hadd2 f => Sys2Proof.Machine.execHadd2 f s
  | .hfma2 f => Sys2Proof.Machine.execHfma2 f s
  | .badd2 f => Sys2Proof.Machine.execBadd2 f s
  | .bfma2 f => Sys2Proof.Machine.execBfma2 f s
  | .qadd4 f => Sys2Proof.Machine.execQadd4 f s
  | .qmul4 f => Sys2Proof.Machine.execQmul4 f s
  | .qcvt f => Sys2Proof.Machine.execQcvt f s
  | .bmm8 f => Sys2Proof.Machine.execBmm8 f s
  | .bmo8 f => Sys2Proof.Machine.execBmo8 f s
  | .bscat f => Sys2Proof.Machine.execBscat f s
  | .bgath f => Sys2Proof.Machine.execBgath f s
  | .bperm f => Sys2Proof.Machine.execBperm f s
  | .bfx f => Sys2Proof.Machine.execBfx f s
  | .bfi f => Sys2Proof.Machine.execBfi f s
  | .fshl f => Sys2Proof.Machine.execFshl f s
  | .fshr f => Sys2Proof.Machine.execFshr f s
  | .matchLanes f => Sys2Proof.Machine.execMatchLanes f s
  | .vote f => Sys2Proof.Machine.execVote f s
  | .voteMask f => Sys2Proof.Machine.execVoteMask f s
  | .voteCnt f => Sys2Proof.Machine.execVoteCnt f s
  | .shfl f => Sys2Proof.Machine.execShfl f s
  | .redux f => Sys2Proof.Machine.execRedux f s
  | .wadd f => Sys2Proof.Machine.execWadd f s
  | .wsub f => Sys2Proof.Machine.execWsub f s
  | .wmul f => Sys2Proof.Machine.execWmul f s
  | .wfma f => Sys2Proof.Machine.execWfma f s
  | .wmin f => Sys2Proof.Machine.execWmin f s
  | .wmax f => Sys2Proof.Machine.execWmax f s
  | .wexp f => Sys2Proof.Machine.execWexp f s
  | .wscl f => Sys2Proof.Machine.execWscl f s
  | .wbcst f => Sys2Proof.Machine.execWbcst f s
  | .wset f => Sys2Proof.Machine.execWset f s
  | .wget f => Sys2Proof.Machine.execWget f s
  | .wsum f => Sys2Proof.Machine.execWsum f s
  | .wcmp f => Sys2Proof.Machine.execWcmp f s
  | .wsel f => Sys2Proof.Machine.execWsel f s
  | .wcvt f => Sys2Proof.Machine.execWcvt f s
  | .wfres f => Sys2Proof.Machine.execWfres f s
  | .wpack f => Sys2Proof.Machine.execWpack f s
  | .wlen f => Sys2Proof.Machine.execWlen f s
  | .muelF f => Sys2Proof.Machine.execMuelF f s
  | .muelG f => Sys2Proof.Machine.execMuelG f s
  | .muelRot f => Sys2Proof.Machine.execMuelRot f s
  | .fsplatW f => Sys2Proof.Machine.execFsplatW f s
  | .ldG f => Sys2Proof.Machine.execLdG f s
  | .ldL f => Sys2Proof.Machine.execLdL f s
  | .ldV f => Sys2Proof.Machine.execLdV f s
  | .stG f => Sys2Proof.Machine.execStG f s
  | .stL f => Sys2Proof.Machine.execStL f s
  | .stV f => Sys2Proof.Machine.execStV f s
  | .ldv f => Sys2Proof.Machine.execLdv f s
  | .stv f => Sys2Proof.Machine.execStv f s
  | .ldw f => Sys2Proof.Machine.execLdw f s
  | .stw f => Sys2Proof.Machine.execStw f s
  | .tld f => Sys2Proof.Machine.execTld f s
  | .tst f => Sys2Proof.Machine.execTst f s
  | .atom f => Sys2Proof.Machine.execAtom f s
  | .atomCas f => Sys2Proof.Machine.execAtomCas f s
  | .cwb f => Sys2Proof.Machine.execCwb f s
  | .cinv f => Sys2Proof.Machine.execCinv f s
  | .pref f => Sys2Proof.Machine.execPref f s
  | .fence f => Sys2Proof.Machine.execFence f s
  | .txbegin f => Sys2Proof.Machine.execTxbegin f s
  | .txcommit f => Sys2Proof.Machine.execTxcommit f s
  | .txabort f => Sys2Proof.Machine.execTxabort f s
  | .txstat f => Sys2Proof.Machine.execTxstat f s
  | .bra f => Sys2Proof.Machine.execBra f s
  | .brx f => Sys2Proof.Machine.execBrx f s
  | .call f => Sys2Proof.Machine.execCall f s
  | .ret f => Sys2Proof.Machine.execRet f s
  | .jenr f => Sys2Proof.Machine.execJenr f s
  | .jarr f => Sys2Proof.Machine.execJarr f s
  | .jstr f => Sys2Proof.Machine.execJstr f s
  | .jclr f => Sys2Proof.Machine.execJclr f s
  | .yield f => Sys2Proof.Machine.execYield f s
  | .nap f => Sys2Proof.Machine.execNap f s
  | .exit f => Sys2Proof.Machine.execExit f s
  | .spawn f => Sys2Proof.Machine.execSpawn f s
  | .cont f => Sys2Proof.Machine.execCont f s
  | .join f => Sys2Proof.Machine.execJoin f s
  | .barTeam f => Sys2Proof.Machine.execBarTeam f s
  | .barNumMeet f => Sys2Proof.Machine.execBarNumMeet f s
  | .barNumPost f => Sys2Proof.Machine.execBarNumPost f s
  | .barNumWait f => Sys2Proof.Machine.execBarNumWait f s
  | .barTree f => Sys2Proof.Machine.execBarTree f s
  | .trap f => Sys2Proof.Machine.execTrap f s
  | .fwcall f => Sys2Proof.Machine.execFwcall f s
  | .rdsr f => Sys2Proof.Machine.execRdsr f s
  | .wrsr f => Sys2Proof.Machine.execWrsr f s
  | .wrsrMseqpc f => Sys2Proof.Machine.execWrsrMseqpc f s
  | .wrsrTexbase f => Sys2Proof.Machine.execWrsrTexbase f s
  | .clockTime f => Sys2Proof.Machine.execClockTime f s
  | .clockCyc f => Sys2Proof.Machine.execClockCyc f s
  | .bkpt f => Sys2Proof.Machine.execBkpt f s
  | .nop f => Sys2Proof.Machine.execNop f s
  | .qbind f => Sys2Proof.Machine.execQbind f s
  | .qstat f => Sys2Proof.Machine.execQstat f s
  | .qflush f => Sys2Proof.Machine.execQflush f s
  | .mbar f => Sys2Proof.Machine.execMbar f s
  | .tsmpW f => Sys2Proof.Machine.execTsmpW f s
  | .tups f => Sys2Proof.Machine.execTups f s
  | .tsmpF f => Sys2Proof.Machine.execTsmpF f s
  | .tfet f => Sys2Proof.Machine.execTfet f s
  | .tqry f => Sys2Proof.Machine.execTqry f s
  | .lspres f => Sys2Proof.Machine.execLspres f s
  | .tcopy f => Sys2Proof.Machine.execTcopy f s
  | .tcopy2d f => Sys2Proof.Machine.execTcopy2d f s
  | .tcstat f => Sys2Proof.Machine.execTcstat f s
  | .bobjInit f => Sys2Proof.Machine.execBobjInit f s
  | .bobjExpect f => Sys2Proof.Machine.execBobjExpect f s
  | .bobjWait f => Sys2Proof.Machine.execBobjWait f s
  | .rowCopy f => Sys2Proof.Machine.execRowCopy f s
  | .rowFill f => Sys2Proof.Machine.execRowFill f s
  | .rowAnd f => Sys2Proof.Machine.execRowAnd f s
  | .rowOr f => Sys2Proof.Machine.execRowOr f s
  | .rowXor f => Sys2Proof.Machine.execRowXor f s
  | .rowNot f => Sys2Proof.Machine.execRowNot f s
  | .rowMaj f => Sys2Proof.Machine.execRowMaj f s
  | .rowAllb f => Sys2Proof.Machine.execRowAllb f s
  | .rowBcst f => Sys2Proof.Machine.execRowBcst f s
  | .rowMac f => Sys2Proof.Machine.execRowMac f s
  | .rowSadd f => Sys2Proof.Machine.execRowSadd f s
  | .rowRdacc f => Sys2Proof.Machine.execRowRdacc f s
  | .rowProg f => Sys2Proof.Machine.execRowProg f s
  | .rowWait f => Sys2Proof.Machine.execRowWait f s
  | .iaddC32 c => Sys2Proof.Machine.execIaddC32 c s
  | .isubC32 c => Sys2Proof.Machine.execIsubC32 c s
  | .imulC32 c => Sys2Proof.Machine.execImulC32 c s
  | .iminC32 c => Sys2Proof.Machine.execIminC32 c s
  | .imaxC32 c => Sys2Proof.Machine.execImaxC32 c s
  | .shlC32 c => Sys2Proof.Machine.execShlC32 c s
  | .shrC32 c => Sys2Proof.Machine.execShrC32 c s
  | .sarC32 c => Sys2Proof.Machine.execSarC32 c s
  | .andC32 c => Sys2Proof.Machine.execAndC32 c s
  | .orC32 c => Sys2Proof.Machine.execOrC32 c s
  | .xorC32 c => Sys2Proof.Machine.execXorC32 c s
  | .andnC32 c => Sys2Proof.Machine.execAndnC32 c s
  | .rolC32 c => Sys2Proof.Machine.execRolC32 c s
  | .faddC32 c => Sys2Proof.Machine.execFaddC32 c s
  | .fsubC32 c => Sys2Proof.Machine.execFsubC32 c s
  | .fmulC32 c => Sys2Proof.Machine.execFmulC32 c s
  | .fminC32 c => Sys2Proof.Machine.execFminC32 c s
  | .fmaxC32 c => Sys2Proof.Machine.execFmaxC32 c s
  | .hadd2C32 c => Sys2Proof.Machine.execHadd2C32 c s
  | .badd2C32 c => Sys2Proof.Machine.execBadd2C32 c s
  | .qadd4C32 c => Sys2Proof.Machine.execQadd4C32 c s
  | .qmul4C32 c => Sys2Proof.Machine.execQmul4C32 c s
  | .pandC32 c => Sys2Proof.Machine.execPandC32 c s
  | .porC32 c => Sys2Proof.Machine.execPorC32 c s
  | .pxorC32 c => Sys2Proof.Machine.execPxorC32 c s
  | .waddC32 c => Sys2Proof.Machine.execWaddC32 c s
  | .wsubC32 c => Sys2Proof.Machine.execWsubC32 c s
  | .wmulC32 c => Sys2Proof.Machine.execWmulC32 c s
  | .wminC32 c => Sys2Proof.Machine.execWminC32 c s
  | .wmaxC32 c => Sys2Proof.Machine.execWmaxC32 c s
  | .mma t a b ka kb => Sys2Proof.Machine.execMma t a b ka kb s
  | .mzero t => Sys2Proof.Machine.execMzero t s
  | .mlda slot a b => Sys2Proof.Machine.execMlda slot a b s
  | .mldb slot a b => Sys2Proof.Machine.execMldb slot a b s
  | .munpin slot => Sys2Proof.Machine.execMunpin slot s
  | .mstF32 t a b c => Sys2Proof.Machine.execMstF32 t a b c s
  | .mstB16 t a b c => Sys2Proof.Machine.execMstB16 t a b c s
  | .mstQ t => Sys2Proof.Machine.execMstQ t s
  | .msparse d => Sys2Proof.Machine.execMsparse d s
  | .mloop n o => Sys2Proof.Machine.execMloop n o s
  | .mbraAl o => Sys2Proof.Machine.execMbraAl o s
  | .mbraZ a o => Sys2Proof.Machine.execMbraZ a o s
  | .mbraNz a o => Sys2Proof.Machine.execMbraNz a o s
  | .msetI d sh imm => Sys2Proof.Machine.execMsetI d sh imm s
  | .msetQ d => Sys2Proof.Machine.execMsetQ d s
  | .msetR a => Sys2Proof.Machine.execMsetR a s
  | .maddx d a b imm => Sys2Proof.Machine.execMaddx d a b imm s
  | .mwait b c => Sys2Proof.Machine.execMwait b c s
  | .msig b c => Sys2Proof.Machine.execMsig b c s
  | .macb v c0 n => Sys2Proof.Machine.execMacb v c0 n s
  | .mace v c0 n => Sys2Proof.Machine.execMace v c0 n s
  | .stepLoop t => Sys2Proof.Machine.execStepLoop t s
  | .issueCycle => Sys2Proof.Machine.execIssueCycle s
  | .yieldExpire => Sys2Proof.Machine.execYieldExpire s
  | .longLatencyRetire => Sys2Proof.Machine.execLongLatencyRetire s
  | .faultResolve => Sys2Proof.Machine.execFaultResolve s
  | .laneReplay => Sys2Proof.Machine.execLaneReplay s
  | .groupPreempt => Sys2Proof.Machine.execGroupPreempt s
  | .groupRestore => Sys2Proof.Machine.execGroupRestore s
  | .coreStructureUncorrectable => Sys2Proof.Machine.execCoreStructureUncorrectable s
  | .napWake => Sys2Proof.Machine.execNapWake s
  | .timebaseFirstLock => Sys2Proof.Machine.execTimebaseFirstLock s
  | .timebaseSourceLost => Sys2Proof.Machine.execTimebaseSourceLost s
  | .timebaseSourceRegained => Sys2Proof.Machine.execTimebaseSourceRegained s
  | .holdoverTimeout => Sys2Proof.Machine.execHoldoverTimeout s
  | .unsyncedConverge => Sys2Proof.Machine.execUnsyncedConverge s
  | .peerStateUpdate => Sys2Proof.Machine.execPeerStateUpdate s
  | .l1LeaseExpire => Sys2Proof.Machine.execL1LeaseExpire s
  | .dirtyWritebackTimer => Sys2Proof.Machine.execDirtyWritebackTimer s
  | .fetchAtHome => Sys2Proof.Machine.execFetchAtHome s
  | .writeAtHome => Sys2Proof.Machine.execWriteAtHome s
  | .holdRelease => Sys2Proof.Machine.execHoldRelease s
  | .txAbortResume => Sys2Proof.Machine.execTxAbortResume s
  | .txCommitPerform => Sys2Proof.Machine.execTxCommitPerform s
  | .pageWalk => Sys2Proof.Machine.execPageWalk s
  | .tlbInvalidate => Sys2Proof.Machine.execTlbInvalidate s
  | .sequencerIssue => Sys2Proof.Machine.execSequencerIssue s
  | .mmaRetire => Sys2Proof.Machine.execMmaRetire s
  | .mstPerformed => Sys2Proof.Machine.execMstPerformed s
  | .treePhaseComplete => Sys2Proof.Machine.execTreePhaseComplete s
  | .copyForm => Sys2Proof.Machine.execCopyForm s
  | .copyTurn => Sys2Proof.Machine.execCopyTurn s
  | .copyEnd => Sys2Proof.Machine.execCopyEnd s
  | .retentionIdleExpire => Sys2Proof.Machine.execRetentionIdleExpire s
  | .reencodeDone => Sys2Proof.Machine.execReencodeDone s
  | .linkMeshFail => Sys2Proof.Machine.execLinkMeshFail s
  | .treeTagWithdraw => Sys2Proof.Machine.execTreeTagWithdraw s
  | .launchTake => Sys2Proof.Machine.execLaunchTake s
  | .teamPlace => Sys2Proof.Machine.execTeamPlace s
  | .poolRecordBin => Sys2Proof.Machine.execPoolRecordBin s
  | .poolBinAgeDue => Sys2Proof.Machine.execPoolBinAgeDue s
  | .poolGroupForm => Sys2Proof.Machine.execPoolGroupForm s
  | .budgetRefill => Sys2Proof.Machine.execBudgetRefill s
  | .atRiskTest => Sys2Proof.Machine.execAtRiskTest s
  | .launchComplete => Sys2Proof.Machine.execLaunchComplete s
  | .stallHint => Sys2Proof.Machine.execStallHint s
  | .stallHintEnd => Sys2Proof.Machine.execStallHintEnd s
  | .pairTake => Sys2Proof.Machine.execPairTake s
  | .consumerDeferredTake => Sys2Proof.Machine.execConsumerDeferredTake s
  | .rowCmdEnter => Sys2Proof.Machine.execRowCmdEnter s
  | .rowStep => Sys2Proof.Machine.execRowStep s
  | .rowSlotEnd => Sys2Proof.Machine.execRowSlotEnd s
  | .rowRefreshDone => Sys2Proof.Machine.execRowRefreshDone s
  | .rowCommandEnd => Sys2Proof.Machine.execRowCommandEnd s
  | .rowCmdPortTake => Sys2Proof.Machine.execRowCmdPortTake s
  | .textureRequestServe => Sys2Proof.Machine.execTextureRequestServe s
  | .splatApply => Sys2Proof.Machine.execSplatApply s
  | .splatPortEntry => Sys2Proof.Machine.execSplatPortEntry s
  | .frameClose => Sys2Proof.Machine.execFrameClose s
  | .foldEnd => Sys2Proof.Machine.execFoldEnd s
  | .encLineTake => Sys2Proof.Machine.execEncLineTake s
  | .pktLaunch => Sys2Proof.Machine.execPktLaunch s
  | .pktPair => Sys2Proof.Machine.execPktPair s
  | .pktSignal => Sys2Proof.Machine.execPktSignal s
  | .pktWait => Sys2Proof.Machine.execPktWait s
  | .pktKill => Sys2Proof.Machine.execPktKill s
  | .pktCamera => Sys2Proof.Machine.execPktCamera s
  | .pktSession => Sys2Proof.Machine.execPktSession s
  | .queueWatchdog => Sys2Proof.Machine.execQueueWatchdog s
  | .ehpSpdm => Sys2Proof.Machine.execEhpSpdm s
  | .getVersion => Sys2Proof.Machine.execGetVersion s
  | .getCapabilities => Sys2Proof.Machine.execGetCapabilities s
  | .negotiateAlgorithms => Sys2Proof.Machine.execNegotiateAlgorithms s
  | .getDigests => Sys2Proof.Machine.execGetDigests s
  | .getCertificate => Sys2Proof.Machine.execGetCertificate s
  | .challenge => Sys2Proof.Machine.execChallenge s
  | .getMeasurements => Sys2Proof.Machine.execGetMeasurements s
  | .keyExchange => Sys2Proof.Machine.execKeyExchange s
  | .finish => Sys2Proof.Machine.execFinish s
  | .keyUpdate => Sys2Proof.Machine.execKeyUpdate s
  | .endSession => Sys2Proof.Machine.execEndSession s
  | .qctlCreate => Sys2Proof.Machine.execQctlCreate s
  | .qctlResume => Sys2Proof.Machine.execQctlResume s
  | .qctlDestroy => Sys2Proof.Machine.execQctlDestroy s
  | .doorbell => Sys2Proof.Machine.execDoorbell s
  | .mread => Sys2Proof.Machine.execMread s
  | .mwrite => Sys2Proof.Machine.execMwrite s
  | .mwriteWarmStart => Sys2Proof.Machine.execMwriteWarmStart s
  | .mwriteBootConfirm => Sys2Proof.Machine.execMwriteBootConfirm s
  | .debugAttach => Sys2Proof.Machine.execDebugAttach s
  | .debugResume => Sys2Proof.Machine.execDebugResume s
  | .debugEndGrid => Sys2Proof.Machine.execDebugEndGrid s
  | .debugDetach => Sys2Proof.Machine.execDebugDetach s
  | .image => Sys2Proof.Machine.execImage s
  | .ack => Sys2Proof.Machine.execAck s
  | .eventRetransmit => Sys2Proof.Machine.execEventRetransmit s
  | .rdmaWrite => Sys2Proof.Machine.execRdmaWrite s
  | .rdmaRead => Sys2Proof.Machine.execRdmaRead s
  | .scaleoutDoorbell => Sys2Proof.Machine.execScaleoutDoorbell s
  | .workRequestComplete => Sys2Proof.Machine.execWorkRequestComplete s
  | .coldStart => Sys2Proof.Machine.execColdStart s
  | .warmStart => Sys2Proof.Machine.execWarmStart s
  | .startTimeout => Sys2Proof.Machine.execStartTimeout s
  | .trialConfirmTimeout => Sys2Proof.Machine.execTrialConfirmTimeout s
  | .targetedTestDone => Sys2Proof.Machine.execTargetedTestDone s
  | .powerSample => Sys2Proof.Machine.execPowerSample s
  | .overtempStop => Sys2Proof.Machine.execOvertempStop s
  | .linkDown => Sys2Proof.Machine.execLinkDown s
  | .linkUp => Sys2Proof.Machine.execLinkUp s
  | .remoteRequest => Sys2Proof.Machine.execRemoteRequest s
  | .flitReceive => Sys2Proof.Machine.execFlitReceive s
  | .rekeyDue => Sys2Proof.Machine.execRekeyDue s
  | .rekeyInstallAck => Sys2Proof.Machine.execRekeyInstallAck s
  | .rekeyOldAcked => Sys2Proof.Machine.execRekeyOldAcked s
  | .rekeyRetry => Sys2Proof.Machine.execRekeyRetry s
  | .backlogHint => Sys2Proof.Machine.execBacklogHint s
  | .fwcallAnswer => Sys2Proof.Machine.execFwcallAnswer s
  | .mbraStop => Sys2Proof.Machine.execMbraStop s
  | .stepEnd => Sys2Proof.Machine.execStepEnd s
  | .stepOpen => Sys2Proof.Machine.execStepOpen s
  | .stepClr => Sys2Proof.Machine.execStepClr s
  | .budgetExhausted => Sys2Proof.Machine.execBudgetExhausted s
  | .syncHoldTimeout => Sys2Proof.Machine.execSyncHoldTimeout s
  | .refreshDue => Sys2Proof.Machine.execRefreshDue s
  | .blockLoadPerformed => Sys2Proof.Machine.execBlockLoadPerformed s
  | .stackFailure => Sys2Proof.Machine.execStackFailure s
  | .remoteErrorNak => Sys2Proof.Machine.execRemoteErrorNak s
  | .droppedFrame => Sys2Proof.Machine.execDroppedFrame s

end Sys2Proof.Machine
end

