-- ==== Sys2Proof/Machine/Place.lean ====
section
/-! DEFINITION. Placing one instruction where the machine fetches next: what stands for a program that is
loaded from outside (assumption log 4). -/

namespace Sys2Proof.Machine

open Sys2Proof

/-- A tenant number, a group number and a team number that nothing in the state uses. -/
def State.freeId (s : State) : Nat :=
  1 + maxOf (s.pages.map (·.tenant) ++ s.groups.map (·.id) ++ s.teams.map (·.id) ++ s.rows.map (·.id))

/-- The virtual address of placed text, and its physical address on this module. -/
def placeVa : Nat := 0x10000

/-- An executable page with the bytes of an instruction at its start. -/
def State.placeText (s : State) (id : Nat) (bs : List Byte) : State :=
  { s with
    pages := s.pages ++ [{ tenant := id, va := placeVa, pa := s.module * 2 ^ 51 + placeVa, x := true }],
    mem := Memory.setBytes s.mem (s.module * 2 ^ 51 + placeVa) bs }

/-- A team with one group of 32 lanes that stand at the placed text. -/
def State.placeGroup (s : State) (id : Nat) : State :=
  { s with
    teams := s.teams ++ [{ id := id, tenant := id, lsBytes := 0x10000 }],
    groups := s.groups ++ [{ id := id, team := id, tenant := id, n := 64, m := 32,
                             lanes := List.replicate 32 { pc := w64 placeVa } }] }

/-- A team whose sequencer runs at the placed text. -/
def State.placeSeq (s : State) (id : Nat) : State :=
  { s with
    teams := s.teams ++ [{ id := id, tenant := id, lsBytes := 0x10000,
                           seq := some { pc := w64 placeVa, st := .running } }] }

/-- A near-bank program whose next step is a word. -/
def State.placeStep (s : State) (id : Nat) (w : W32) : State :=
  { s with rows := s.rows ++ [{ id := id, team := id, op := 12, rows := 1, steps := [w], st := .run }] }

/-- The state in which the very next step runs the instruction that the decoder reads from bits; an event of
the module and bits that decode to nothing stand in no stream, and change nothing. -/
def State.placeWord (s : State) (nbits w : Nat) : State :=
  let bs := leBytes 12 (w % 2 ^ nbits)
  let id := s.freeId
  match (decodeTableWord nbits w).map Instr.stream with
  | some .lane => { (s.placeText id bs).placeGroup id with agenda := [.lane id (w64 placeVa) 0xFFFFFFFF#32] }
  | some .sequencer => { (s.placeText id bs).placeSeq id with agenda := [.seq id] }
  | some .rowProgram => { s.placeStep id (BitVec.ofNat 32 w) with agenda := [.row id] }
  | _ => s

end Sys2Proof.Machine
end

