-- ==== Sys2Proof/Machine/Step.lean ====
section
/-! DEFINITION. One step of the module: the next piece of work on its agenda, or, with nothing to do, the next
issue cycle. -/

namespace Sys2Proof.Machine

open Sys2Proof

/-- What comes of an attempt to issue, as an outcome. -/
def Issued.finish : Issued → Host.Outcome State Fault Refusal
  | .run i s => exec i s
  | .idle s => .next s

/-- One step. A stopped module does nothing but start (21 R389). -/
def step (s : State) : Host.Outcome State Fault Refusal :=
  match s.agenda with
  | [] => if s.stopped then .fault .moduleStopped else exec .issueCycle { s with ev := {}, cur := {} }
  | w :: r =>
    let s := { s with agenda := r }
    match w with
    | .event i x => if s.stopped && i != .coldStart then .fault .moduleStopped else exec i { s with ev := x, cur := {} }
    | .lane gid pc ls => if s.stopped then .fault .moduleStopped else (s.issueLane gid pc ls).finish
    | .seq team => if s.stopped then .fault .moduleStopped else (s.issueSeq team).finish
    | .outside x => if s.stopped then .fault .moduleStopped else .next (({ s with ev := {}, cur := {} } : State).happen x)
    | .row cmd => if s.stopped then .fault .moduleStopped else (s.issueRow cmd).finish

/-- The state with an instruction where the next step fetches (assumption log 4). -/
def State.withFetchWord (s : State) (nbits w : Nat) : State := s.placeWord nbits w

end Sys2Proof.Machine
end

