-- ==== Sys2Proof/Safety.lean ====
section
/-! DEFINITION. What counts as a safe run, and the words that the statements are made of: that an instruction
completes, when a lane instruction is ready to, and what it may change. -/

namespace Sys2Proof.Machine

open Sys2Proof

/-! ### Runs -/

/-- The global memory and the vaults are in their one canonical form. -/
def State.canonical (s : State) : Prop := Memory.wf s.mem = true ∧ Memory.wf s.vault = true

/-- The states that steps lead to from a state. -/
inductive Reaches : State → State → Prop where
  | here (s : State) : Reaches s s
  | step {s t u : State} : Reaches s t → step t = .next u → Reaches s u

/-- A safe run: no step of it is refused, and one that stops has met the over-temperature stop (21 R389). -/
def SafeFrom (s : State) : Prop :=
  ∀ t, Reaches s t → (∃ u, step t = .next u) ∨ (t.stopped = true ∧ step t = .fault .moduleStopped)

/-- An answer is a next state of which `p` holds. -/
def Completes (r : Result) (p : State → Prop) : Prop := ∃ t, r = .next t ∧ p t

/-! ### Register cells -/

/-- The cells that a lane has (01 R12): `g0` to `g255`, eight elements of `w0` to `w31`, and the `p` and `k` registers. -/
def RCell.isReg : RCell → Bool
  | .g r => r < 256
  | .w r e => r < 32 && e < 8
  | .p r => r < 64
  | .k r => r < 64
  | .q _ => false

/-- What a cell keeps of a 64-bit value: 32 bits in a general register or an element, a truth value in a predicate. -/
def RCell.fit : RCell → W64 → W64
  | .g _, v => (v.setWidth 32).setWidth 64
  | .w _ _, v => (v.setWidth 32).setWidth 64
  | .p _, v => if v != 0 then 1 else 0
  | .k _, v => v
  | .q _, _ => 0

/-- The value that an issue writes to a cell of lane `i`, given what it writes for each of the lanes `en` on which it
takes effect, in ascending order. A `k` register belongs to the whole group, and keeps what the highest lane writes; a
write to `p0` has no effect (00 Table 0-5). -/
def written (en : List Nat) (out : Nat → List (RCell × W64)) (i : Nat) (c : RCell) : Option W64 :=
  match c with
  | .p 0 => none
  | .k _ => en.reverse.findSome? (fun j => (out j).lookup c)
  | _ => if en.contains i then (out i).lookup c else none

/-! ### Frames -/

/-- Every byte of the module's memories reads in `t` as in `s`: HBM4E and LPDDR6, the vaults, and the local stores. -/
structure SameMemory (s t : State) : Prop where
  mem : ∀ a, Memory.byte t.mem a = Memory.byte s.mem a
  vault : ∀ a, Memory.byte t.vault a = Memory.byte s.vault a
  stores : t.teams.map (fun (x : Team) => (x.id, x.ls)) = s.teams.map (fun (x : Team) => (x.id, x.ls))

/-- Nothing but the group that issues differs from `s` in `t`. -/
structure OnlyGroup (s t : State) : Prop where
  rest : { t with groups := s.groups } = s
  others : ∀ id, id ≠ s.cur.gid → t.group? id = s.group? id
  memory : SameMemory s t

/-- What an issue of a lane instruction leaves: on each lane of the issue on which its guard is true, the values `out`
in its destination and the flags `fl` raised; each lane `i` of the issue at `at_ i`; no register that held no uncorrectable
error holds one; and nothing else changed but `kser`, the model's own order of the writes to `k` registers. -/
structure LaneMoves (s t : State) (f : Full) (out : Nat → List (RCell × W64)) (fl : Nat → FlagSet) (at_ : Nat → W64) : Prop where
  cells : ∀ i, i < 32 → ∀ c, c.isReg = true → (t.group s.cur.gid).readCell i c =
    ((written (s.enabledFor f) out i c).map c.fit).getD ((s.group s.cur.gid).readCell i c)
  lanes : ∀ i, i < 32 → (t.group s.cur.gid).lane i =
    let l := (s.group s.cur.gid).lane i
    if inMask s.cur.lanes i then
      { l with pc := at_ i, replay := false,
               fflags := if (s.enabledFor f).contains i then l.fflags ||| fl i else l.fflags }
    else l
  group : (t.group? s.cur.gid).isSome = true ∧
    { t.group s.cur.gid with
      g := (s.group s.cur.gid).g
      w := (s.group s.cur.gid).w
      p := (s.group s.cur.gid).p
      k := (s.group s.cur.gid).k
      bad := (s.group s.cur.gid).bad
      kser := (s.group s.cur.gid).kser
      lanes := (s.group s.cur.gid).lanes } = s.group s.cur.gid
  errors : ∀ x ∈ (t.group s.cur.gid).bad, x ∈ (s.group s.cur.gid).bad
  only : OnlyGroup s t

/-- The address of a lane past the instruction of the current issue. -/
def State.pastPc (s : State) (i : Nat) : W64 := ((s.group s.cur.gid).lane i).pc + w64 s.cur.size

/-- What an issue leaves that goes on to the next instruction. -/
abbrev LaneEffect (s t : State) (f : Full) (out : Nat → List (RCell × W64)) (fl : Nat → FlagSet) : Prop :=
  LaneMoves s t f out fl s.pastPc

/-! ### When a lane instruction is ready -/

/-- The current issue of a lane instruction is in order: its group is resident; no lane of the issue has ended or is
owed a result; the group's transaction, if it has one, is not aborted and permits the instruction (07 R142); the
fields are legal (02 Table 2-8) and name registers within the group's budgets (01 R13). -/
structure Ready (s : State) (op : Op) (f : Full) : Prop where
  here : (s.group? s.cur.gid).isSome = true
  alive : ∀ i, inMask s.cur.lanes i = true →
    ((s.group s.cur.gid).lane i).ended = false ∧ ((s.group s.cur.gid).lane i).pend = []
  tx : ∀ x, (s.group s.cur.gid).tx = some x → x.dead = none
  safe : s.unsafeIssue op f = false
  legal : f.illegal op = none
  range : ∀ r ∈ f.named op, r.outside (s.group s.cur.gid).n (s.group s.cur.gid).m = false
  budget : (s.group s.cur.gid).n ≤ 256 ∧ (s.group s.cur.gid).m ≤ 32

/-- The lanes of the current issue on which the instruction's guard is false. -/
def State.disabledFor (s : State) (f : Full) : List Nat :=
  (lanesOf s.cur.lanes).filter (fun i => !(s.enabledFor f).contains i)

/-- Lanes of the current issue go on past their instruction. -/
def State.goOn (s : State) (ls : List Nat) : State := s.modGroup s.cur.gid (fun g => g.advanceAll ls s.cur.size)

/-- No operand field names a queue register. -/
def noQueue (op : Op) (f : Full) : Prop := popQueueOf op f = none ∧ destQueue op f = none

/-- The instruction completes as one that computes on the lanes of its issue: `val` gives the destination's values on
a lane from its sources A, B and C, and the flags raised. It holds with no queue operand and with no lookahead
window; those two forms have statements of their own. -/
def Computes (run : State → Result) (op : Op) (f : Full) (val : State → Nat → W64 → W64 → W64 → List W64 × FlagSet) : Prop :=
  ∀ s, Ready s op f → noQueue op f → f.la = 0 →
    let r := fun i => val s i (srcA op f (s.group s.cur.gid) i 0) (srcB op f (s.group s.cur.gid) i)
      (srcC op f (s.group s.cur.gid) i)
    Completes (run s) (fun t => LaneEffect s t f (fun i => destVals (dest op f) (r i).1) (fun i => (r i).2))

/-- The current issue takes effect on one lane alone. -/
def OneLane (s : State) (f : Full) (i : Nat) : Prop := s.enabledFor f = [i]

/-- The state after an access differs from the one before it in no register, flag or program counter of the group that
issues: only its completion time (01 Table 1-3) may have moved. -/
def AccessKeeps (s s1 : State) : Prop :=
  s1.cur = s.cur ∧ ∃ w, s1.group? s.cur.gid = some { s.group s.cur.gid with wctime := w }

/-! ### What the integer instructions compute (05 R75, R76, R79) -/

/-- An operand as the type code in `FAM` [2:0] reads it: its low `w` bits, signed for the even codes (05 Table 5-1). -/
def asInt (f : Full) (v : W64) : Int :=
  let x := v.setWidth (tyWidth (f.fam % 8))
  if f.fam % 2 == 0 then x.toInt else (x.toNat : Int)

/-- The addend of `IMADW`: 64 bits, signed for `.I32` (05 R78). -/
def asWide (f : Full) (v : W64) : Int := if f.fam % 2 == 0 then v.toInt else (v.toNat : Int)

/-- An exact integer fitted to the type: clamped to its range under `SAT`, else its residue in the range (05 R76). -/
def fitted (f : Full) (x : Int) : Int :=
  let w := tyWidth (f.fam % 8)
  if f.fam % 2 == 0 then
    (if 8 ≤ f.fam then max (-(2 ^ (w - 1) : Int)) (min (2 ^ (w - 1) - 1 : Int) x) else x.bmod (2 ^ w))
  else if 8 ≤ f.fam then max 0 (min (2 ^ w - 1 : Int) x) else x % (2 ^ w : Int)

/-- A value of the type in its register, sign-extended or zero-extended to 32 bits, or in its pair (04 R59). -/
def intBits (f : Full) (x : Int) : W64 :=
  if tyWidth (f.fam % 8) == 64 then BitVec.ofInt 64 x else (BitVec.ofInt 32 x).setWidth 64

/-- One integer result and no flag. -/
def intResult (f : Full) (x : Int) : List W64 × FlagSet := ([intBits f (fitted f x)], 0)

/-- A result of the low `w` bits of the sources and no flag. -/
def bitResult (f : Full) (v : (w : Nat) → BitVec w → BitVec w → BitVec w) (a b : W64) : List W64 × FlagSet :=
  let w := tyWidth (f.fam % 8)
  ([(v w (a.setWidth w) (b.setWidth w)).setWidth 64], 0)

/-- A predicate result and no flag. -/
def truth (b : Bool) : List W64 × FlagSet := ([if b then 1 else 0], 0)

/-- A 32-bit result with its flags. -/
def one32 (x : Nat × FlagSet) : List W64 × FlagSet := ([w64 x.1], x.2)

/-- The low 32 bits of a source. -/
def low32 (v : W64) : Nat := (v.setWidth 32).toNat

/-! ### Lanes, sequencers and row programs outside an issue -/

/-- Lane `i` of a group holds `l` in `t`, and nothing else differs from `s`. -/
structure LaneBecomes (s t : State) (gid i : Nat) (l : Lane) : Prop where
  this : (t.group gid).lane i = l
  lanes : ∀ j, j ≠ i → (t.group gid).lane j = (s.group gid).lane j
  group : { t.group gid with lanes := (s.group gid).lanes } = s.group gid
  others : ∀ id, id ≠ gid → t.group? id = s.group? id
  rest : { t with groups := s.groups } = s

/-- The current instruction of a sequencer is that of a placed team's sequencer. -/
structure SeqHere (s : State) (t : Team) (q : Sequencer) : Prop where
  team : s.team? s.cur.team = some t
  seq : t.seq = some q

/-- The sequencer of a team goes by an offset, and one that was blocked runs again (10 R203, R211). -/
def State.seqMoveOf (s : State) (team : Nat) (off : W64) : State :=
  s.modSeq team (fun x => { x with pc := x.pc + off, st := if x.st == .blocked then SeqState.running else x.st })

/-- The sequencer of a team goes on to its next instruction. -/
def State.seqNextOf (s : State) (team : Nat) : State := s.seqMoveOf team 4

/-- The sequencer of the current team goes by an offset. -/
def State.seqMove (s : State) (off : W64) : State := s.seqMoveOf s.cur.team off

/-- The sequencer of the current team goes on to its next instruction. -/
def State.seqNext (s : State) : State := s.seqMove 4

/-! ### Messages and packets (21 R370, R371, R380, R381) -/

/-- The current message is one that a session's record and tag let through, the first of its number. -/
structure Accepted (s : State) (x : Ehps) : Prop where
  here : s.session? s.ev.ehp.session = some x
  valid : x.admits s.ev.ehp s.ev.bytes = true
  new : ∀ y ∈ x.seqs, y.1 ≠ s.ev.ehp.seq
  recent : x.top < s.ev.ehp.seq + 1024

/-- A message's number and reply go on record, and the reply is sent. -/
def State.acked (s : State) (x : Ehps) (seq : Nat) (reply : List Byte) : State :=
  let t := s.modEhp x.num (fun y => y.note seq reply)
  { t with outbox := t.outbox ++ [.ack x.num seq reply] }

/-- A packet of an opcode stands at the read index of the queue of the current event, its reserved bits zero. -/
structure PacketHere (s : State) (q : HostQueue) (op : Nat) (uses : List (Nat × Nat)) : Prop where
  queue : s.queue? s.ev.obj = some q
  live : q.live = true ∧ q.now = none ∧ q.busy = none
  code : fieldAt (s.packet q) 0 1 = op ∧ packetUses op = some uses
  clean : packetReservedOk op uses (s.packet q) = true

end Sys2Proof.Machine
end

