-- ==== Sys2Proof/Certificates/Slice0/Obligations.lean ====
section
/-! DEFINITION. The statements for the provers. Each says which rules of the spec it formalises. `Computes` gives a
statement of a lane instruction its hypotheses (an issue in order, legal fields) and its frame. -/

open Sys2Proof Sys2Proof.Machine

/-! ### Lane arithmetic (05) -/

/-- 05 R76, Table 5-3: the value is computed on exact integers and fitted to the type. -/
def Obligations.IntegerArithmeticWritesFittedValue : Prop :=
  ∀ (f : Full) (x : Comp),
    Computes (exec (.iadd f)) .iadd f (fun _ _ a b _ => intResult f (asInt f a + asInt f b)) ∧
    Computes (exec (.isub f)) .isub f (fun _ _ a b _ => intResult f (asInt f a - asInt f b)) ∧
    Computes (exec (.imul f)) .imul f (fun _ _ a b _ => intResult f (asInt f a * asInt f b)) ∧
    Computes (exec (.imulh f)) .imulh f
      (fun _ _ a b _ => intResult f ((asInt f a * asInt f b).fdiv (2 ^ tyWidth (f.fam % 8) : Nat))) ∧
    Computes (exec (.imin f)) .imin f (fun _ _ a b _ => intResult f (min (asInt f a) (asInt f b))) ∧
    Computes (exec (.imax f)) .imax f (fun _ _ a b _ => intResult f (max (asInt f a) (asInt f b))) ∧
    Computes (exec (.iabs f)) .iabs f (fun _ _ a _ _ => intResult f ((asInt f a).natAbs : Int)) ∧
    Computes (exec (.ineg f)) .ineg f (fun _ _ a _ _ => intResult f (-asInt f a)) ∧
    Computes (exec (.iaddC32 x)) .iadd x.expand
      (fun _ _ a b _ => intResult x.expand (asInt x.expand a + asInt x.expand b)) ∧
    Computes (exec (.isubC32 x)) .isub x.expand
      (fun _ _ a b _ => intResult x.expand (asInt x.expand a - asInt x.expand b)) ∧
    Computes (exec (.imulC32 x)) .imul x.expand
      (fun _ _ a b _ => intResult x.expand (asInt x.expand a * asInt x.expand b)) ∧
    Computes (exec (.iminC32 x)) .imin x.expand
      (fun _ _ a b _ => intResult x.expand (min (asInt x.expand a) (asInt x.expand b))) ∧
    Computes (exec (.imaxC32 x)) .imax x.expand
      (fun _ _ a b _ => intResult x.expand (max (asInt x.expand a) (asInt x.expand b)))

/-- 05 R77, R78: division truncates toward zero and never traps; a zero divisor gives all ones, and the dividend as the
remainder; the multiply-adds. -/
def Obligations.DivisionAndMultiplyAddValues : Prop :=
  ∀ f : Full,
    Computes (exec (.idiv f)) .idiv f
      (fun _ _ a b _ => intResult f (if asInt f b = 0 then -1 else (asInt f a).tdiv (asInt f b))) ∧
    Computes (exec (.irem f)) .irem f
      (fun _ _ a b _ => intResult f (if asInt f b = 0 then asInt f a else (asInt f a).tmod (asInt f b))) ∧
    Computes (exec (.imad f)) .imad f (fun _ _ a b c => intResult f (asInt f a * asInt f b + asInt f c)) ∧
    Computes (exec (.imadw f)) .imadw f
      (fun _ _ a b c => ([BitVec.ofInt 64 (asInt f a * asInt f b + asWide f c)], 0)) ∧
    (f.lit.isSome = true → f.illegal .imadw = some 0x03)

/-- 05 R79, Table 5-4: shifts, rotates and bitwise logic at width `w`. -/
def Obligations.ShiftAndLogicResults : Prop :=
  ∀ (f : Full) (x : Comp),
    Computes (exec (.shl f)) .shl f (fun _ _ a b _ => bitResult f (fun _ u _ => u <<< low32 b) a b) ∧
    Computes (exec (.shr f)) .shr f (fun _ _ a b _ => bitResult f (fun _ u _ => u >>> low32 b) a b) ∧
    Computes (exec (.sar f)) .sar f (fun _ _ a b _ => bitResult f (fun _ u _ => u.sshiftRight (low32 b)) a b) ∧
    Computes (exec (.rol f)) .rol f (fun _ _ a b _ => bitResult f (fun _ u _ => u.rotateLeft (low32 b)) a b) ∧
    Computes (exec (.and f)) .and f (fun _ _ a b _ => bitResult f (fun _ u v => u &&& v) a b) ∧
    Computes (exec (.or f)) .or f (fun _ _ a b _ => bitResult f (fun _ u v => u ||| v) a b) ∧
    Computes (exec (.xor f)) .xor f (fun _ _ a b _ => bitResult f (fun _ u v => u ^^^ v) a b) ∧
    Computes (exec (.andn f)) .andn f (fun _ _ a b _ => bitResult f (fun _ u v => u &&& ~~~v) a b) ∧
    Computes (exec (.not f)) .not f (fun _ _ a b _ => bitResult f (fun _ u _ => ~~~u) a b) ∧
    Computes (exec (.shlC32 x)) .shl x.expand (fun _ _ a b _ => bitResult x.expand (fun _ u _ => u <<< low32 b) a b) ∧
    Computes (exec (.shrC32 x)) .shr x.expand (fun _ _ a b _ => bitResult x.expand (fun _ u _ => u >>> low32 b) a b) ∧
    Computes (exec (.sarC32 x)) .sar x.expand
      (fun _ _ a b _ => bitResult x.expand (fun _ u _ => u.sshiftRight (low32 b)) a b) ∧
    Computes (exec (.rolC32 x)) .rol x.expand
      (fun _ _ a b _ => bitResult x.expand (fun _ u _ => u.rotateLeft (low32 b)) a b) ∧
    Computes (exec (.andC32 x)) .and x.expand (fun _ _ a b _ => bitResult x.expand (fun _ u v => u &&& v) a b) ∧
    Computes (exec (.orC32 x)) .or x.expand (fun _ _ a b _ => bitResult x.expand (fun _ u v => u ||| v) a b) ∧
    Computes (exec (.xorC32 x)) .xor x.expand (fun _ _ a b _ => bitResult x.expand (fun _ u v => u ^^^ v) a b) ∧
    Computes (exec (.andnC32 x)) .andn x.expand (fun _ _ a b _ => bitResult x.expand (fun _ u v => u &&& ~~~v) a b)

/-- 05 R79 to R81: bit counts, moves, selection and the address of a memory operand. -/
def Obligations.MovesBitCountsAndAddresses : Prop :=
  ∀ f : Full,
    Computes (exec (.clz f)) .clz f (fun _ _ a b _ => bitResult f (fun _ u _ => u.clz) a b) ∧
    Computes (exec (.popc f)) .popc f (fun _ _ a b _ => bitResult f (fun _ u _ => u.cpop) a b) ∧
    Computes (exec (.brev f)) .brev f (fun _ _ a b _ => bitResult f (fun _ u _ => u.reverse) a b) ∧
    Computes (exec (.mov f)) .mov f (fun _ _ a b _ => bitResult f (fun _ u _ => u) a b) ∧
    Computes (exec (.movi f)) .movi f (fun _ _ a b _ => bitResult f (fun w _ _ =>
      match f.lit with
      | some l => l.signExtend w
      | none => f.sb.signExtend w) a b) ∧
    Computes (exec (.sel f)) .sel f (fun s i a b _ => bitResult f (fun _ u v =>
      if (s.group s.cur.gid).readP i f.sc.toNat then u else v) a b) ∧
    Computes (exec (.lea f)) .lea f (fun s i _ _ _ => ([w64 (effAddr f (s.group s.cur.gid) i)], 0))

/-- 05 R82, R83: compares on integers of the type and the predicate operations. -/
def Obligations.ComparesAndPredicateLogic : Prop :=
  ∀ (f : Full) (x : Comp),
    Computes (exec (.icmp f)) .icmp f (fun _ _ a b _ =>
      let g : Full := { f with mod := BitVec.ofNat 6 (f.fam % 4) }
      truth (match f.fam / 4 with
        | 0 => asInt g a = asInt g b
        | 1 => asInt g a ≠ asInt g b
        | 2 => asInt g a < asInt g b
        | _ => asInt g b ≤ asInt g a)) ∧
    Computes (exec (.pset f)) .pset f (fun _ _ _ _ _ => truth (f.sb == 1)) ∧
    Computes (exec (.pand f)) .pand f (fun s i _ _ _ =>
      truth ((s.group s.cur.gid).readP i f.sa.toNat && (s.group s.cur.gid).readP i f.sb.toNat)) ∧
    Computes (exec (.por f)) .por f (fun s i _ _ _ =>
      truth ((s.group s.cur.gid).readP i f.sa.toNat || (s.group s.cur.gid).readP i f.sb.toNat)) ∧
    Computes (exec (.pxor f)) .pxor f (fun s i _ _ _ =>
      truth ((s.group s.cur.gid).readP i f.sa.toNat ^^ (s.group s.cur.gid).readP i f.sb.toNat)) ∧
    Computes (exec (.pnot f)) .pnot f (fun s i _ _ _ => truth (!(s.group s.cur.gid).readP i f.sa.toNat)) ∧
    Computes (exec (.pmov f)) .pmov f (fun s i _ _ _ => truth ((s.group s.cur.gid).readP i f.sa.toNat)) ∧
    Computes (exec (.pandC32 x)) .pand x.expand (fun s i _ _ _ =>
      truth ((s.group s.cur.gid).readP i x.dst.toNat && (s.group s.cur.gid).readP i x.src.toNat)) ∧
    Computes (exec (.porC32 x)) .por x.expand (fun s i _ _ _ =>
      truth ((s.group s.cur.gid).readP i x.dst.toNat || (s.group s.cur.gid).readP i x.src.toNat)) ∧
    Computes (exec (.pxorC32 x)) .pxor x.expand (fun s i _ _ _ =>
      truth ((s.group s.cur.gid).readP i x.dst.toNat ^^ (s.group s.cur.gid).readP i x.src.toNat)) ∧
    (∀ op ∈ ([.pset, .pand, .por, .pxor, .pnot, .pmov] : List Op), f.mod ≠ 0 ∨ f.dst = 0 → (f.illegal op).isSome = true) ∧
    (2 ≤ f.sb.toNat → (f.illegal .pset).isSome = true) ∧
    (∀ c ∈ ([.pand, .por, .pxor] : List COp), x.mod ≠ 0 ∨ x.dst = 0 ∨ 64 ≤ x.dst.toNat ∨ 64 ≤ x.src.toNat →
      (x.illegal c).isSome = true) ∧
    (∀ (g : Group) (i : Nat), g.readP i 0 = true)

/-- 05 R84 to R89: scalar floating point. Arithmetic is the exact value passed through `RoundTo` (04 R63) with the
rounding that the instruction names, and its flags are raised on the lane (01 R22). -/
def Obligations.ScalarFloatResults : Prop :=
  ∀ (f : Full) (x : Comp),
    Computes (exec (.fadd f)) .fadd f (fun s _ a b _ => one32 (fpAdd .f32 (s.envFor f) (low32 a) (low32 b))) ∧
    Computes (exec (.fsub f)) .fsub f (fun s _ a b _ => one32 (fpSub .f32 (s.envFor f) (low32 a) (low32 b))) ∧
    Computes (exec (.fmul f)) .fmul f (fun s _ a b _ => one32 (fpMul .f32 (s.envFor f) (low32 a) (low32 b))) ∧
    Computes (exec (.ffma f)) .ffma f
      (fun s _ a b c => one32 (fpFma .f32 (s.envFor f) (low32 a) (low32 b) (low32 c))) ∧
    Computes (exec (.fmin f)) .fmin f (fun s _ a b _ => one32 (minMax32 (s.envFor f) false (low32 a) (low32 b))) ∧
    Computes (exec (.fmax f)) .fmax f (fun s _ a b _ => one32 (minMax32 (s.envFor f) true (low32 a) (low32 b))) ∧
    Computes (exec (.fcmp f)) .fcmp f (fun s _ a b _ =>
      let r := fcmpVal (s.fpEnv (s.group s.cur.gid)) (f.fam % 8) (low32 a) (low32 b)
      ([if r.1 then 1 else 0], r.2)) ∧
    Computes (exec (.fclass f)) .fclass f (fun _ _ a _ _ => ([w64 (fclassVal (low32 a))], 0)) ∧
    Computes (exec (.frnd f)) .frnd f (fun s _ a _ _ => one32 (frndVal (s.envFor f) (low32 a))) ∧
    Computes (exec (.cvt f)) .cvt f (fun s _ a _ _ =>
      let r := cvtVal (s.envFor f) (f.sc.toNat / 16) (f.sc.toNat % 16) a
      ([r.1], r.2)) ∧
    Computes (exec (.faddC32 x)) .fadd x.expand
      (fun s _ a b _ => one32 (fpAdd .f32 (s.envFor x.expand) (low32 a) (low32 b))) ∧
    Computes (exec (.fsubC32 x)) .fsub x.expand
      (fun s _ a b _ => one32 (fpSub .f32 (s.envFor x.expand) (low32 a) (low32 b))) ∧
    Computes (exec (.fmulC32 x)) .fmul x.expand
      (fun s _ a b _ => one32 (fpMul .f32 (s.envFor x.expand) (low32 a) (low32 b))) ∧
    Computes (exec (.fminC32 x)) .fmin x.expand
      (fun s _ a b _ => one32 (minMax32 (s.envFor x.expand) false (low32 a) (low32 b))) ∧
    Computes (exec (.fmaxC32 x)) .fmax x.expand
      (fun s _ a b _ => one32 (minMax32 (s.envFor x.expand) true (low32 a) (low32 b)))

/-- 05 R90: the seven transcendental instructions write their function of one F32 source. -/
def Obligations.TranscendentalResults : Prop :=
  ∀ f : Full,
    Computes (exec (.frcp f)) .frcp f (fun s _ a _ _ => one32 (frcpVal (s.envFor f) (low32 a))) ∧
    Computes (exec (.frsq f)) .frsq f (fun s _ a _ _ => one32 (frsqVal (s.envFor f) (low32 a))) ∧
    Computes (exec (.fsqrt f)) .fsqrt f (fun s _ a _ _ => one32 (fsqrtVal (s.envFor f) (low32 a))) ∧
    Computes (exec (.fexp2 f)) .fexp2 f (fun s _ a _ _ => one32 (fexp2Val (s.envFor f) (low32 a))) ∧
    Computes (exec (.flog2 f)) .flog2 f (fun s _ a _ _ => one32 (flog2Val (s.envFor f) (low32 a))) ∧
    Computes (exec (.fsin f)) .fsin f (fun s _ a _ _ => one32 (fsinVal (s.envFor f) (low32 a))) ∧
    Computes (exec (.fcos f)) .fcos f (fun s _ a _ _ => one32 (fcosVal (s.envFor f) (low32 a)))

/-- 05 R92, R93: packed floating point, element by element. -/
def Obligations.PackedFloatResults : Prop :=
  ∀ (f : Full) (x : Comp),
    Computes (exec (.hadd2 f)) .hadd2 f (fun s i a b c =>
      packedFn .f16 (fun u v _ => fpAdd .f16 (s.envFor f) u v) (s.group s.cur.gid) i a b c) ∧
    Computes (exec (.hfma2 f)) .hfma2 f (fun s i a b c =>
      packedFn .f16 (fpFma .f16 (s.envFor f)) (s.group s.cur.gid) i a b c) ∧
    Computes (exec (.badd2 f)) .badd2 f (fun s i a b c =>
      packedFn .b16 (fun u v _ => fpAdd .b16 (s.envFor f) u v) (s.group s.cur.gid) i a b c) ∧
    Computes (exec (.bfma2 f)) .bfma2 f (fun s i a b c =>
      packedFn .b16 (fpFma .b16 (s.envFor f)) (s.group s.cur.gid) i a b c) ∧
    Computes (exec (.qadd4 f)) .qadd4 f (fun s i a b c =>
      packedFn (quarterFmt f) (fun u v _ => fpAdd (quarterFmt f) (s.envFor f) u v) (s.group s.cur.gid) i a b c) ∧
    Computes (exec (.qmul4 f)) .qmul4 f (fun s i a b c =>
      packedFn (quarterFmt f) (fun u v _ => fpMul (quarterFmt f) (s.envFor f) u v) (s.group s.cur.gid) i a b c) ∧
    Computes (exec (.qcvt f)) .qcvt f (fun s i a b c =>
      qcvtFn (s.envFor f) (quarterFmt f) (s.group s.cur.gid) i a b c) ∧
    Computes (exec (.hadd2C32 x)) .hadd2 x.expand (fun s i a b c =>
      packedFn .f16 (fun u v _ => fpAdd .f16 (s.envFor x.expand) u v) (s.group s.cur.gid) i a b c) ∧
    Computes (exec (.badd2C32 x)) .badd2 x.expand (fun s i a b c =>
      packedFn .b16 (fun u v _ => fpAdd .b16 (s.envFor x.expand) u v) (s.group s.cur.gid) i a b c) ∧
    Computes (exec (.qadd4C32 x)) .qadd4 x.expand (fun s i a b c =>
      packedFn .e4m3 (fun u v _ => fpAdd .e4m3 (s.envFor x.expand) u v) (s.group s.cur.gid) i a b c) ∧
    Computes (exec (.qmul4C32 x)) .qmul4 x.expand (fun s i a b c =>
      packedFn .e4m3 (fun u v _ => fpMul .e4m3 (s.envFor x.expand) u v) (s.group s.cur.gid) i a b c)

/-! ### Bits, lanes and spectra (06) -/

/-- 06 R98 to R103: bit matrices, scatter and gather, permutation, bit fields and funnel shifts. -/
def Obligations.BitFieldResults : Prop :=
  ∀ f : Full,
    Computes (exec (.bmm8 f)) .bmm8 f (fun _ _ a b _ => ([BitVec.ofNat 64 (ofTest 64 (fun p =>
      (List.range 8).foldl (fun r k => r ^^ (a.getLsbD (8 * (p / 8) + k) && b.getLsbD (8 * k + p % 8))) false))], 0)) ∧
    Computes (exec (.bmo8 f)) .bmo8 f (fun _ _ a b _ => ([BitVec.ofNat 64 (ofTest 64 (fun p =>
      (List.range 8).any (fun k => a.getLsbD (8 * (p / 8) + k) && b.getLsbD (8 * k + p % 8))))], 0)) ∧
    Computes (exec (.bscat f)) .bscat f (fun _ _ a b _ => ([w64 (bscatVal a.toNat b.toNat)], 0)) ∧
    Computes (exec (.bgath f)) .bgath f (fun _ _ a b _ => ([w64 (bgathVal a.toNat b.toNat)], 0)) ∧
    Computes (exec (.bperm f)) .bperm f
      (fun s i a _ _ => ([w64 (bpermVal (s.group s.cur.gid) i f.sb.toNat a.toNat)], 0)) ∧
    Computes (exec (.bfx f)) .bfx f
      (fun _ _ a b c => ([w64 (bfxVal (f.fam == 1) (low32 a) (low32 b) (low32 c))], 0)) ∧
    Computes (exec (.bfi f)) .bfi f (fun _ _ a b c => ([w64 (bfiVal (low32 a) (low32 b) (low32 c))], 0)) ∧
    Computes (exec (.fshl f)) .fshl f (fun _ _ a b c =>
      ([((a.setWidth 32 ++ b.setWidth 32) <<< min (low32 c) 32 : BitVec 64) >>> 32], 0)) ∧
    Computes (exec (.fshr f)) .fshr f (fun _ _ a b c =>
      ([(((a.setWidth 32 ++ b.setWidth 32) >>> min (low32 c) 32 : BitVec 64).setWidth 32).setWidth 64], 0)) ∧
    (f.fam ≠ 0 → (f.illegal .fshl).isSome = true ∧ (f.illegal .fshr).isSome = true)

/-- 06 R96, R104 to R107: the participants of a cross-lane instruction are the lanes on which it takes effect, and every
source is read before any destination is written. -/
def Obligations.CrossLaneResults : Prop :=
  ∀ f : Full,
    let val := fun (op : Op) (s : State) (j : Nat) => srcA op f (s.group s.cur.gid) j 0
    Computes (exec (.matchLanes f)) .matchLanes f (fun s i _ _ _ =>
      ([(maskOf (fun j => (s.enabledFor f).contains j &&
        matchKey (f.fam % 4) (val .matchLanes s j) == matchKey (f.fam % 4) (val .matchLanes s i))).setWidth 64], 0)) ∧
    Computes (exec (.vote f)) .vote f (fun s _ _ _ _ =>
      let t := ((s.enabledFor f).filter (fun j => (s.group s.cur.gid).readP j f.sa.toNat)).length
      let n := (s.enabledFor f).length
      truth (if f.sb.toNat = 33 then t = n else if f.sb.toNat = 34 then t = 0 ∨ t = n else f.sb.toNat ≤ t)) ∧
    Computes (exec (.voteMask f)) .voteMc f (fun s _ _ _ _ =>
      ([(maskOf (fun j => (s.enabledFor f).contains j && (s.group s.cur.gid).readP j f.sa.toNat)).setWidth 64], 0)) ∧
    Computes (exec (.voteCnt f)) .voteMc f (fun s _ _ _ _ =>
      ([w64 ((s.enabledFor f).filter (fun j => (s.group s.cur.gid).readP j f.sa.toNat)).length], 0)) ∧
    Computes (exec (.shfl f)) .shfl f (fun s i a b _ =>
      ([match shflSource f.fam i (low32 b) with
        | some j => if (s.enabledFor f).contains j then val .shfl s j else a
        | none => a], 0)) ∧
    Computes (exec (.redux f)) .redux f (fun s i _ _ _ =>
      let ls := if 8 ≤ f.fam then (s.enabledFor f).filter (fun j => j < i) else s.enabledFor f
      ([w64 (ls.foldl (fun r j => reduxOp (f.fam % 8) r (low32 (val .redux s j))) (reduxId (f.fam % 8)))], 0)) ∧
    (35 ≤ f.sb.toNat → ({ f with sb := 0 } : Full).illegal .vote = none → f.illegal .vote = some 0x06) ∧
    (f.fam ≠ 0 → (f.illegal .vote).isSome = true) ∧ (2 ≤ f.fam → (f.illegal .voteMc).isSome = true)

/-- 06 R108 to R111: element-wise spectral arithmetic on the P active elements, +0.0 above them. The precision with which
`WEXP` encloses its value is the model's (assumption log 10). -/
def Obligations.SpectralElementwiseResults : Prop :=
  ∀ (f : Full) (x : Comp),
    let wide := fun (f : Full) (op : FpEnv → Nat → Nat → Nat × FlagSet) (s : State) (i : Nat) =>
      let g := s.group s.cur.gid
      let rs := (List.range 8).map (fun e =>
        if e < g.width then op (s.envFor f) (g.readW i f.sa.toNat e).toNat (g.readW i f.sb.toNat e).toNat else (0, 0))
      (rs.map (fun r => w64 r.1), (rs.map (·.2)).foldl (· ||| ·) 0)
    let lanewise := fun (op : State → Group → Nat → W64 → Nat → Nat × FlagSet) (s : State) (i : Nat) (b : W64) =>
      let g := s.group s.cur.gid
      let rs := (List.range 8).map (fun e => if e < g.width then op s g i b e else (0, 0))
      (rs.map (fun r => w64 r.1), (rs.map (·.2)).foldl (· ||| ·) (0 : FlagSet))
    Computes (exec (.wadd f)) .wadd f (fun s i _ _ _ => wide f (fpAdd .f32) s i) ∧
    Computes (exec (.wsub f)) .wsub f (fun s i _ _ _ => wide f (fpSub .f32) s i) ∧
    Computes (exec (.wmul f)) .wmul f (fun s i _ _ _ => wide f (fpMul .f32) s i) ∧
    Computes (exec (.wmin f)) .wmin f (fun s i _ _ _ => wide f (fun e => minMax32 e false) s i) ∧
    Computes (exec (.wmax f)) .wmax f (fun s i _ _ _ => wide f (fun e => minMax32 e true) s i) ∧
    Computes (exec (.wfma f)) .wfma f (fun s i _ b _ => lanewise (fun s g i _ e =>
      fpFma .f32 (s.envFor f) (elem g i f.sa 0 e) (elem g i f.sb 0 e) (elem g i f.sc 0 e)) s i b) ∧
    Computes (exec (.wexp f)) .wexp f (fun s i _ b _ => lanewise (fun s g i _ e =>
      expVal (s.envFor f) (elem g i f.sa 0 e)) s i b) ∧
    Computes (exec (.wscl f)) .wscl f (fun s i _ b _ => lanewise (fun s g i b e =>
      fpMul .f32 (s.envFor f) (elem g i f.sa 0 e) (low32 b)) s i b) ∧
    Computes (exec (.wbcst f)) .wbcst f (fun s i a _ _ => lanewise (fun _ _ _ a _ => (low32 a, 0)) s i a) ∧
    Computes (exec (.wset f)) .wset f (fun s i _ b _ => lanewise (fun _ g i b e =>
      (if e = f.sc.toNat then low32 b else elem g i f.sa 0 e, 0)) s i b) ∧
    Computes (exec (.wsel f)) .wsel f (fun s i _ _ c => lanewise (fun _ g i c e =>
      (if c.getLsbD e then elem g i f.sa 0 e else elem g i f.sb 0 e, 0)) s i c) ∧
    Computes (exec (.wcvt f)) .wcvt f (fun s i _ b _ => lanewise (fun s g i _ e =>
      wcvtVal (s.envFor f) (f.fam < 8) (elem g i f.sa 0 e)) s i b) ∧
    Computes (exec (.waddC32 x)) .wadd x.expand (fun s i _ _ _ => wide x.expand (fpAdd .f32) s i) ∧
    Computes (exec (.wsubC32 x)) .wsub x.expand (fun s i _ _ _ => wide x.expand (fpSub .f32) s i) ∧
    Computes (exec (.wmulC32 x)) .wmul x.expand (fun s i _ _ _ => wide x.expand (fpMul .f32) s i) ∧
    Computes (exec (.wminC32 x)) .wmin x.expand (fun s i _ _ _ => wide x.expand (fun e => minMax32 e false) s i) ∧
    Computes (exec (.wmaxC32 x)) .wmax x.expand (fun s i _ _ _ => wide x.expand (fun e => minMax32 e true) s i)

/-- 06 R111 to R118: element access, reductions, packing, the Fresnel block and the Mueller products. The precision of
`MUEL.ROT`'s rotation is the model's (assumption log 10), and so is the sign of its zeros (assumption log 31). -/
def Obligations.SpectralReductionAndMuellerResults : Prop :=
  ∀ f : Full,
    Computes (exec (.wget f)) .wget f (fun s i _ _ _ =>
      let g := s.group s.cur.gid
      ([if f.sb.toNat < g.width then (g.readW i f.sa.toNat f.sb.toNat).setWidth 64 else 0], 0)) ∧
    Computes (exec (.wlen f)) .wlen f (fun s _ _ _ _ => ([if (s.group s.cur.gid).pkt8 then 8 else 4], 0)) ∧
    Computes (exec (.wsum f)) .wsum f (fun s i _ _ _ =>
      let g := s.group s.cur.gid
      one32 (wsumVal (s.envFor f) ((List.range g.width).map (elem g i f.sa 0)))) ∧
    Computes (exec (.wcmp f)) .wcmp f (fun s i a b c =>
      wcmpFn (s.fpEnv (s.group s.cur.gid)) f (s.group s.cur.gid) i a b c) ∧
    Computes (exec (.wpack f)) .wpack f (fun s i a b c => wpackFn (s.envFor f) f (s.group s.cur.gid) i a b c) ∧
    Computes (exec (.wfres f)) .wfres f (fun s i a b c => blockFn 4 (fun g i e =>
      wfresVal (s.envFor f) (elem g i f.sa 0 e) (elem g i f.sb 0 e)) (s.group s.cur.gid) i a b c) ∧
    Computes (exec (.muelF f)) .muelF f (fun s i a b c => blockFn 4 (fun g i e =>
      let m := fun k => wval (s.envFor f) g i f.sa k e
      let x := fun k => wval (s.envFor f) g i f.sb k e
      [dotVal (s.envFor f) [(m 0, x 0), (m 1, x 1)], dotVal (s.envFor f) [(m 1, x 0), (m 0, x 1)],
       dotVal (s.envFor f) [(m 2, x 2), (m 3, x 3)], dotVal (s.envFor f) [((m 3).negate, x 2), (m 2, x 3)]])
      (s.group s.cur.gid) i a b c) ∧
    Computes (exec (.muelG f)) .muelG f (fun s i a b c => blockFn 4 (fun g i e =>
      (List.range 4).map (fun r => dotVal (s.envFor f) ((List.range 4).map (fun k =>
        (wval (s.envFor f) g i f.sa (4 * r + k) e, wval (s.envFor f) g i f.sb k e)))))
      (s.group s.cur.gid) i a b c) ∧
    Computes (exec (.muelRot f)) .muelRot f (fun s i a b c => blockFn 4 (fun g i e =>
      [passVal (s.envFor f) (elem g i f.sa 0 e)] ++
      rotVal (s.envFor f) (elem g i f.sa 1 e) (elem g i f.sa 2 e) (elem g i f.sb 0 e) ++
      [passVal (s.envFor f) (elem g i f.sa 3 e)]) (s.group s.cur.gid) i a b c)

/-! ### Control and synchronisation (09) -/

/-- 09 R168, R169: the lanes on which a transfer takes effect stand at its target, and those whose guard is false past
it; `CALL` also writes the address past itself to its pair. -/
def Obligations.BranchesAndCallsTransfer : Prop :=
  ∀ (s : State) (f : Full),
    (Ready s .bra f → (branchTarget f s.cur.pc).toNat % 4 = 0 →
      Completes (exec (.bra f) s) (fun t => LaneMoves s t f (fun _ => []) (fun _ => 0)
        (fun i => if (s.enabledFor f).contains i then branchTarget f s.cur.pc else s.pastPc i))) ∧
    (Ready s .call f → noQueue .call f → (branchTarget f s.cur.pc).toNat % 4 = 0 →
      Completes (exec (.call f) s) (fun t =>
        LaneMoves s t f (fun _ => destVals (dest .call f) [s.cur.pc + w64 s.cur.size]) (fun _ => 0)
          (fun i => if (s.enabledFor f).contains i then branchTarget f s.cur.pc else s.pastPc i))) ∧
    (Ready s .brx f → noQueue .brx f →
      (∀ i ∈ s.enabledFor f, (srcA .brx f (s.group s.cur.gid) i 0).toNat % 4 = 0) →
      Completes (exec (.brx f) s) (fun t => LaneMoves s t f (fun _ => []) (fun _ => 0)
        (fun i => if (s.enabledFor f).contains i then srcA .brx f (s.group s.cur.gid) i 0 else s.pastPc i))) ∧
    (Ready s .ret f → noQueue .ret f →
      (∀ i ∈ s.enabledFor f, (srcA .ret f (s.group s.cur.gid) i 0).toNat % 4 = 0) →
      Completes (exec (.ret f) s) (fun t => LaneMoves s t f (fun _ => []) (fun _ => 0)
        (fun i => if (s.enabledFor f).contains i then srcA .ret f (s.group s.cur.gid) i 0 else s.pastPc i)))

/-- 09 R170 to R172: the rejoin masks. `JENR` enrols the enabled lanes; `JSTR` strikes them and `JCLR` clears the mask,
each releasing the lanes parked at it when it becomes zero; `JARR` parks the enrolled arrivals unless they are the last. -/
def Obligations.RejoinMaskInstructions : Prop :=
  ∀ (s : State) (f : Full), s.enabledFor f ≠ [] →
    let en := s.enabledFor f
    let go := en ++ s.disabledFor f
    let g := s.group s.cur.gid
    (Ready s .jenr f → exec (.jenr f) s = .next ((s.modGroup s.cur.gid (fun g =>
      g.writeJ f.dst.toNat (g.readJ f.dst.toNat ||| maskOf en.contains))).goOn go)) ∧
    (Ready s .jstr f → exec (.jstr f) s = .next ((s.modGroup s.cur.gid (fun g =>
      g.setMask f.dst.toNat (g.readJ f.dst.toNat &&& ~~~maskOf en.contains))).goOn go)) ∧
    (Ready s .jclr f → exec (.jclr f) s = .next ((s.modGroup s.cur.gid (fun g => g.setMask f.dst.toNat 0)).goOn go)) ∧
    (Ready s .jarr f → g.jenf = true → g.readJ f.sa.toNat &&& ~~~maskOf en.contains ≠ 0 →
      exec (.jarr f) s = .next ((s.modGroup s.cur.gid (fun g' =>
        (g'.writeJ f.sa.toNat (g.readJ f.sa.toNat &&& ~~~maskOf en.contains)).modLanes
          (en.filter (inMask (g.readJ f.sa.toNat))) (fun l => { l with park := 1, aux := f.sa.toNat }))).goOn
        (en.filter (fun i => !(en.filter (inMask (g.readJ f.sa.toNat))).contains i) ++ s.disabledFor f))) ∧
    (Ready s .jarr f → (g.jenf = false ∨ g.readJ f.sa.toNat &&& ~~~maskOf en.contains = 0) →
      exec (.jarr f) s = .next ((s.modGroup s.cur.gid (fun g' =>
        g'.setMask f.sa.toNat (g.readJ f.sa.toNat &&& ~~~maskOf en.contains))).goOn go))

/-- 09 R175 to R177, R189: `NOP` only goes on; `YIELD` holds its lanes back while another address is ready; `NAP` parks
its lanes past it until the time; `EXIT` ends its lanes. When the other addresses are counted is the model's choice
(assumption log 92), and so is that a lane which naps stands past the instruction (assumption log 29). -/
def Obligations.NopYieldNapExit : Prop :=
  ∀ f : Full,
    Computes (exec (.nop f)) .nop f (fun _ _ _ _ _ => ([], 0)) ∧
    ∀ s : State,
      let en := s.enabledFor f
      let other := (s.readySets (s.group s.cur.gid)).any (fun x => x.1 != s.cur.pc && x.1 != s.cur.pc + w64 s.cur.size &&
        x.2.any (fun i => !((s.group s.cur.gid).lane i).stuck))
      (Ready s .yield f → en ≠ [] → exec (.yield f) s = .next ((if other then
          s.modGroup s.cur.gid (fun g => g.modLanes en (fun l => { l with yield := 9 })) else s).goOn
          (en ++ s.disabledFor f))) ∧
      (Ready s .nap f → noQueue .nap f → exec (.nap f) s = .next ((en.foldl (fun t i =>
          let n := low32 (srcA .nap f (s.group s.cur.gid) i 0)
          if n = 0 then t else t.modLane s.cur.gid i (fun l => { l with park := 4, napEnd := s.time + n })) s).goOn
          (lanesOf s.cur.lanes))) ∧
      (Ready s .exit f → exec (.exit f) s = .next
        ((en.foldl (fun t i => t.modGroup s.cur.gid (fun g => g.endLanes [i])) s).goOn (s.disabledFor f)).reap)

/-- 09 R178 to R180: on one lane of a pool group, outside a transaction, whose earlier writes are performed, `SPAWN` and
`CONT` put the lane's continuation record at the end of the launch's ring, `CONT` ending the lane; `JOIN` sends its decrement
to the counter's home and waits there. That these instructions change nothing until the earlier writes are performed is the
model's choice (assumption log 30). -/
def Obligations.ContinuationsEnterTheRing : Prop :=
  (∀ (s : State) (die num : Nat) (r : Record) (l : Launch), s.launch? die num = some l →
    Completes (.next (s.pushRecord die num r)) (fun t => ∃ l', t.launch? die num = some l' ∧ l'.ring = l.ring ++ [r])) ∧
  ∀ (s : State) (f : Full) (i : Nat), OneLane s f i → s.drained s.cur.gid = true → (s.group s.cur.gid).tx = none →
    let g := s.group s.cur.gid
    let t := s.team g.team
    let record := recordOf g i f.sa.toNat s.time
    (∀ l, spawnTrap g record = none → s.launch? t.die t.launch = some l → l.ring.length < 2 ^ l.desc.ringLog2 →
      (Ready s .spawn f → exec (.spawn f) s = .next
        ((s.pushRecord t.die t.launch record).goOn (lanesOf s.cur.lanes))) ∧
      (Ready s .cont f → exec (.cont f) s = .next
        (((s.pushRecord t.die t.launch record).modGroup s.cur.gid
          (fun g => g.endLanes [i])).goOn (s.disabledFor f)).reap)) ∧
    (∀ p, Ready s .join f → noQueue .join f →
      s.place g .global (srcA .join f g i 0).toNat 8 .write = .ok p →
      s.remoteAnswer p (srcA .join f g i 0).toNat false = none → s.routeHeld p = false → s.released s.cur.gid p = true →
      exec (.join f) s = .next
        ((((((s.coreConflict g.core (p / 128) s.cur.gid i).writeBack g.core (p / 128)).dropL1 g.core (p / 128)).modLane
          s.cur.gid i (fun l => { l with wait := .join })).writeAtHome (p / 128)
            { core := some g.core, gid := some s.cur.gid, lane := i, op := .dec p }).goOn (s.disabledFor f)))

/-- 09 R181 to R184, 10 R201: an arrival at a barrier. The enabled lanes wait at it, the group joins the barrier's set,
and the barrier is tested; `BAR.NUM.POST` arrives without waiting, `BAR.NUM.WAIT` waits without arriving. -/
def Obligations.BarrierArrivals : Prop :=
  ∀ (s : State) (f : Full), s.enabledFor f ≠ [] →
    let en := s.enabledFor f
    let g := s.group s.cur.gid
    let dis := s.disabledFor f
    let b := f.sb.toNat
    let wait := fun (w : LaneWait) => s.modGroup s.cur.gid (fun g => g.modLanes en (fun l => { l with wait := w }))
    (Ready s .barTeam f → exec (.barTeam f) s = .next ((((wait .team).modTeam g.team (fun t =>
      { t with barSet := t.barSet ||| (1#32 <<< g.num) })).testTeamBar g.team).goOn dis)) ∧
    (Ready s .barNum f → exec (.barNumMeet f) s = .next
      (((wait (.num b ((s.team g.team).bar b).phase false)).arriveNum g.team b (some g.num) f.sc.toNat).goOn dis)) ∧
    (Ready s .barNum f → exec (.barNumPost f) s = .next ((s.arriveNum g.team b (some g.num) f.sc.toNat).goOn (en ++ dis))) ∧
    (Ready s .barNum f → exec (.barNumWait f) s = .next ((wait (.num b ((s.team g.team).bar b).phase false)).goOn dis)) ∧
    (∀ x, Ready s .barTree f → g.pool = false → (s.team g.team).tag = some b → s.tag? (s.team g.team).die b = some x →
      exec (.barTree f) s = .next ((((wait (.tree b x.phase)).modTeam g.team (fun t =>
        { t with treeSet := t.treeSet ||| (1#32 <<< g.num) })).testTree g.team).goOn dis)) ∧
    (∀ q w, Ready s .mbar f → noQueue .mbar f → (s.team g.team).seq = some q → q.st ≠ .halted → w ≤ 4 →
      (∀ i ∈ en, low32 (srcA .mbar f g i 0) = w) → s.drained s.cur.gid = true →
      (∀ y, ((s.team g.team).bar b).latch = some y → y = w) →
      exec (.mbar f) s = .next (((((s.modTeam g.team (fun t =>
        { t with bars := modAt (fun nb => { nb with latch := some w }) t.bars b })).modGroup s.cur.gid (fun g =>
          g.modLanes en (fun l => { l with wait := .num b ((s.team g.team).bar b).phase true }))).arriveNum g.team b
            (some g.num) ((s.team g.team).size + 1))).goOn dis))

/-- 09 R182: the last arrival at `BAR.TEAM` releases every lane of the team that waits at it. -/
def Obligations.LastTeamArrivalReleases : Prop :=
  ∀ (s : State) (team : Team), s.team? team.id = some team → team.barSet ≠ 0 →
    (∀ n ∈ team.liveNums, inMask team.barSet n = true) →
    ((s.testTeamBar team.id).team team.id).barSet = 0 ∧
    ∀ g i, s.group? g.id = some g → g.team = team.id → i < 32 → (g.lane i).wait = .team → (g.lane i).ended = false →
      (g.lane i).pend = [] →
      (((s.testTeamBar team.id).group g.id).lane i).wait = .none ∧
      (((s.testTeamBar team.id).group g.id).lane i).pc = (g.lane i).pc + 8

/-- 01 R23, Table 1-5, 15 R288: taking a trap loads the group's trap registers, stops the group, leaves the registers and the
program counters of its lanes, and puts the group into its die's fault queue: at the end, before the groups that have
trapped in the same cycle on a higher core, or a higher partition of its core. -/
def Obligations.TakingATrapLoadsTheTrapRegisters : Prop :=
  ∀ (s : State) (g : Group) (pc : W64) (ws : List W32) (traps : List (Nat × Trap)) (r : Trap),
    s.group? g.id = some g → reportTrap traps = some r → (∀ x ∈ traps, x.1 < 32) →
    (s.faultq.getD (dieOfCore g.core) []).length < 1024 → dieOfCore g.core < s.faultq.length →
    s.faultWait.getD (dieOfCore g.core) [] = [] →
    let later := fun (x : FaultEntry) => ∃ a : Group, x = .group a.id ∧ s.group? a.id = some a ∧ a.trapAt = s.ticks ∧
      g.core * 4 + g.part < a.core * 4 + a.part
    let t := s.takeTrap g.id pc ws traps
    let g' := t.group g.id
    g'.stopped = true ∧ g'.trapCause = BitVec.ofNat 16 (r.cause + 256 * r.detail) ∧ g'.trapPc = pc ∧
    g'.trapAddr = BitVec.ofNat 64 r.addr ∧ g'.trapW0 = ws.getD 1 0 ++ ws.getD 0 0 ∧ g'.trapW1 = ws.getD 2 0 ∧
    (∀ i, i < 32 → inMask g'.trapMask i = traps.any (fun x => x.1 == i)) ∧
    (∀ i c, g'.readCell i c = g.readCell i c) ∧ (∀ i, (g'.lane i).pc = (g.lane i).pc) ∧
    (∃ u v, s.faultq.getD (dieOfCore g.core) [] = u ++ v ∧ t.faultq.getD (dieOfCore g.core) [] = u ++ [.group g.id] ++ v ∧
      (∀ x ∈ u, ¬ later x) ∧ ∀ x, v.head? = some x → later x) ∧ SameMemory s t

/-- 09 R186, R187: `TRAP` takes `SOFTWARE` with its number; `BKPT` takes `BREAKPOINT` while a debug session is attached to
its group's tenant, and goes on with none; `FWCALL` stalls the group past it with the requests of its enabled lanes. A trap
leaves the registers, the memories and the program counters of its lanes; an issue with no enabled lane only goes on. That
a lane which waits for the answer of a call stands past it is the model's (assumption log 29). -/
def Obligations.SoftwareTrapsAndFirmwareCalls : Prop :=
  (∀ (s : State) (f : Full),
    let en := s.enabledFor f
    let g := s.group s.cur.gid
    let trapped := fun (c : Nat) (t : State) =>
      let g' := t.group s.cur.gid
      g'.stopped = true ∧ g'.trapCause = BitVec.ofNat 16 (c + 256 * f.sb.toNat) ∧ g'.trapPc = s.cur.pc ∧ g'.trapAddr = 0 ∧
      g'.trapW0 = s.cur.words.getD 1 0 ++ s.cur.words.getD 0 0 ∧ g'.trapW1 = s.cur.words.getD 2 0 ∧
      (∀ i, i < 32 → inMask g'.trapMask i = en.contains i)
    let moves := fun (enter : Prop) (t : State) =>
      SameMemory s t ∧ (∀ i c, (t.group s.cur.gid).readCell i c = g.readCell i c) ∧
      ∀ i, i < 32 → (enter → i ∈ en → ((t.group s.cur.gid).lane i).pc = (g.lane i).pc) ∧
        ((¬ enter ∨ i ∉ en) → inMask s.cur.lanes i = true → ((t.group s.cur.gid).lane i).pc = s.pastPc i)
    (Ready s .trap f → Completes (exec (.trap f) s) (fun t =>
      (en ≠ [] → trapped 0x0C t) ∧ (en = [] → (t.group s.cur.gid).stopped = g.stopped) ∧ moves True t)) ∧
    (Ready s .bkpt f → Completes (exec (.bkpt f) s) (fun t =>
      let debugged := s.debugs.any (fun x => x.2 == g.tenant) = true
      (debugged → en ≠ [] → trapped 0x0D t) ∧ (¬ debugged ∨ en = [] → (t.group s.cur.gid).stopped = g.stopped) ∧
      moves debugged t)) ∧
    (Ready s .fwcall f → noQueue .fwcall f → g.tx = none → g.wait = .none → Completes (exec (.fwcall f) s) (fun t =>
      (t.group s.cur.gid).wait = (if en = [] then .none else
        .fwcall (maskOf en.contains) f.sb.toNat f.dst.toNat f.xd (if f.isLong .fwcall then f.la.toNat else 0)
          (en.map (fun i => srcA .fwcall f g i 0))) ∧
      (∀ i c, (t.group s.cur.gid).readCell i c = g.readCell i c) ∧
      ∀ i, inMask s.cur.lanes i = true → ((t.group s.cur.gid).lane i).pc = s.pastPc i))) ∧
  ∀ (s : State) (f : Full), s.enabledFor f ≠ [] →
    let en := s.enabledFor f
    let g := s.group s.cur.gid
    let soft := fun (c : Nat) => (s.goOn (s.disabledFor f)).takeTrap s.cur.gid s.cur.pc s.cur.words
      (en.map (fun i => (i, { cause := c, detail := f.sb.toNat })))
    (Ready s .trap f → s.launch? (s.team g.team).die (s.team g.team).launch = none →
      exec (.trap f) s = .next (soft 0x0C)) ∧
    (Ready s .bkpt f → s.debugs.any (fun x => x.2 == g.tenant) = true → exec (.bkpt f) s = .next (soft 0x0D)) ∧
    (Ready s .bkpt f → s.debugs.any (fun x => x.2 == g.tenant) = false →
      Completes (exec (.bkpt f) s) (fun t => LaneEffect s t f (fun _ => []) (fun _ => 0))) ∧
    (∀ i, OneLane s f i → Ready s .fwcall f → noQueue .fwcall f → s.writeBackGroup s.cur.gid = s → g.wait = .none →
      let held := fun (g : Group) =>
        { g.advance i s.cur.size with
          wait := .fwcall (1#32 <<< i) f.sb.toNat f.dst.toNat f.xd (if f.isLong .fwcall then f.la.toNat else 0)
            [srcA .fwcall f (s.group s.cur.gid) i 0] }
      exec (.fwcall f) s = .next ((s.modGroup s.cur.gid held).goOn (s.disabledFor f)))

/-- 09 R188, R189, 07 R145, 09 R193: the instructions that read the machine's registers and clocks. -/
def Obligations.SystemRegisterReads : Prop :=
  ∀ f : Full,
    Computes (exec (.clockTime f)) .clock f (fun s _ _ _ _ => ([w64 s.time], 0)) ∧
    Computes (exec (.clockCyc f)) .clock f (fun s _ _ _ _ =>
      ([w64 ((s.ticks - (s.cores.getD (s.group s.cur.gid).core {}).reset) / 5)], 0)) ∧
    Computes (exec (.txstat f)) .txstat f (fun s _ _ _ _ => ([(s.group s.cur.gid).txstat.setWidth 64], 0)) ∧
    Computes (exec (.qstat f)) .qstat f (fun s i _ _ _ =>
      let g := s.group s.cur.gid
      let q := (s.team g.team).queue f.sb.toNat
      let n := s.queueCounts g.team f.sb.toNat s.cur.gid i
      ([if q.port = 0 then 0 else w64 (2 ^ 31 + q.port * 2 ^ 16 + n.2 * 2 ^ 8 + n.1)], 0)) ∧
    ∀ s, Ready s .rdsr f → noQueue .rdsr f →
      (∀ i ∈ s.enabledFor f, (s.readSr (s.group s.cur.gid) i f.sr).isSome = true) →
      Completes (exec (.rdsr f) s) (fun t => LaneEffect s t f
        (fun i => destVals (dest .rdsr f) [(s.readSr (s.group s.cur.gid) i f.sr).getD 0]) (fun _ => 0))

/-- 01 R20 to R25, 09 R188, 10 R199, 11 R228: what a write of each system register does. One of team scope holds from the
next cycle on, for the instructions that issue after the `WRSR` has retired. A write of a register that is
read-only has no effect; a reserved bit, an unassigned number or a misaligned `MSEQPC` traps with `ILLEGAL` and `DETAIL` 9,
and a register of a sequencer that the team lacks, or an `MSEQPC` while it runs, with `DETAIL` 0x10. That the trap registers
0x011 to 0x015 have no reserved bits is the model's reading (assumption log 33), and so is that a start which another group
has issued in the same cycle counts as made (assumption log 119). -/
def Obligations.SystemRegisterWrites : Prop :=
  (∀ (s : State) (id : Nat) (x : Team) (v : W64), s.team? id = some x →
    ∃ x', s.retireSr.team? id = some x' ∧ x'.srNext = [] ∧ (x.srNext = [] → x' = x) ∧
      (x.srNext = [(0x002, v)] → x'.fmode = v) ∧ (x.srNext = [(0x058, v)] → x'.texbase = v) ∧
      (x.srNext = [(0x054, v)] → x'.seq = x.seq.map (fun q => { q with flg := q.flg &&& ~~~(v.setWidth 5) })) ∧
      (x.srNext = [(0x050, v)] → x'.seq = x.seq.map (fun q => { q with err := 0, epc := 0, pc := v, st := .running }))) ∧
  ∀ (s : State) (f : Full) (i : Nat), OneLane s f i → Ready s .wrsr f → noQueue .wrsr f →
    let g := s.group s.cur.gid
    let v := srcA .wrsr f g i 0
    let all := lanesOf s.cur.lanes
    let later := fun (s : State) (n : Nat) => s.modTeam g.team (fun t => { t with srNext := t.srNext ++ [(n, v)] })
    let refused := fun (d : Nat) =>
      Host.Outcome.next ((s.goOn (s.disabledFor f)).takeTrap s.cur.gid s.cur.pc s.cur.words [(i, .illegal d)])
    let started := (s.team g.team).srNext.any (fun x => x.1 == 0x050)
    (f.sr = 0x001 → v &&& ~~~0x1F = 0 → exec (.wrsr f) s = .next
      ((s.modLane s.cur.gid i (fun l => { l with fflags := l.fflags &&& ~~~(v.setWidth 5) })).goOn all)) ∧
    (f.sr = 0x002 → v &&& ~~~0xF = 0 → exec (.wrsr f) s = .next ((later s 0x002).goOn all)) ∧
    (∀ q, f.sr = 0x054 → v &&& ~~~0x1F = 0 → (s.team? g.team).bind (·.seq) = some q → exec (.wrsr f) s = .next
      ((later s 0x054).goOn all)) ∧
    (f.sr = 0x058 → v &&& 0x3F = 0 → exec (.wrsrTexbase f) s = .next ((later s 0x058).goOn all)) ∧
    (∀ q, f.sr = 0x050 → v.toNat % 4 = 0 → (s.team g.team).seq = some q → q.st = .idle ∨ q.st = .halted → started = false →
      exec (.wrsrMseqpc f) s = .next ((later s 0x050).goOn all)) ∧
    (f.sr = 0x050 → (s.team g.team).seq = none → exec (.wrsrMseqpc f) s = refused 0x10) ∧
    (f.sr = 0x050 → (s.team g.team).seq.isSome = true → v.toNat % 4 ≠ 0 → exec (.wrsrMseqpc f) s = refused 9) ∧
    (∀ q, f.sr = 0x050 → v.toNat % 4 = 0 → (s.team g.team).seq = some q → (q.st ≠ .idle ∧ q.st ≠ .halted) ∨ started = true →
      exec (.wrsrMseqpc f) s = refused 0x10) ∧
    ([0x000, 0x010, 0x011, 0x012, 0x013, 0x014, 0x015, 0x020, 0x021, 0x030, 0x040, 0x048, 0x051, 0x052, 0x053, 0x059, 0x060,
        0x061, 0x062, 0x063, 0x064, 0x070, 0x0A0, 0x0C0, 0x0C1, 0x0C2, 0x0C3, 0x0C4, 0x0C5, 0x0C6, 0x0C7].contains f.sr = true →
      v &&& srReserved f.sr = 0 → exec (.wrsr f) s = .next (s.goOn all)) ∧
    (s.readSr g i f.sr = none → exec (.wrsr f) s = refused 9) ∧
    ((s.readSr g i f.sr).isSome = true → f.sr ≠ 0x054 → v &&& srReserved f.sr ≠ 0 → exec (.wrsr f) s = refused 9) ∧
    (f.sr = 0x058 → v &&& 0x3F ≠ 0 → exec (.wrsrTexbase f) s = refused 9) ∧
    (f.sr = 0x054 → ((s.team? g.team).bind (·.seq)).isSome = true → v &&& ~~~0x1F ≠ 0 → exec (.wrsr f) s = refused 9) ∧
    (f.sr = 0x054 → (s.team g.team).seq = none → exec (.wrsr f) s = refused 0x10)

/-- 09 R191, R194: `QBIND` gives a queue register its port; `QFLUSH` discards the queue's entries. What becomes of lanes
blocked at a queue that is bound anew is the model's choice (assumption log 94). -/
def Obligations.QueueBindingAndFlushing : Prop :=
  ∀ (s : State) (f : Full), s.enabledFor f ≠ [] →
    let en := s.enabledFor f
    let g := s.group s.cur.gid
    let q := f.sb.toNat
    let go := en ++ s.disabledFor f
    (∀ s', Ready s .qflush f → s.flushQueue s.cur.gid en q = some s' → exec (.qflush f) s = .next (s'.goOn go)) ∧
    (Ready s .qbind f → noQueue .qbind f →
      let d := srcA .qbind f g (en.getLastD 0) 0
      s.bindOk g q d = true →
      (((s.team g.team).queue q).port = field d 7 0 → ((s.team g.team).queue q).inst = field d 15 8 →
        exec (.qbind f) s = .next (s.goOn go)) ∧
      (∀ s', (((s.team g.team).queue q).port ≠ field d 7 0 ∨ ((s.team g.team).queue q).inst ≠ field d 15 8) →
        s.flushQueue s.cur.gid en q = some s' →
        exec (.qbind f) s = .next (((s'.wakeAll g.team q).modTeam g.team (fun t =>
          t.modQueue q (fun _ => { port := field d 7 0, inst := field d 15 8 }))).goOn go)))

/-- 02 R32, 09 R192: an operand field that names a queue. A `MOV` into a queue that has room and no waiter pushes its
source; a `MOV` from a queue that holds an entry pops the oldest. -/
def Obligations.QueueOperandsPushAndPop : Prop :=
  ∀ (s : State) (f : Full) (i q : Nat), OneLane s f i → Ready s .mov f →
    let g := s.group s.cur.gid
    let tq := (s.team g.team).queue q
    (popQueueOf .mov f = none → destQueue .mov f = some q → [3, 8, 9].contains tq.port = true → tq.waiters = [] →
      tq.entries.length < portDepth tq.port →
      exec (.mov f) s = .next ((s.pushQueue g.team q s.cur.gid i (srcA .mov f g i 0)).goOn (lanesOf s.cur.lanes))) ∧
    (∀ e r, popQueueOf .mov f = some q → destQueue .mov f = none → f.la = 0 → [4, 6].contains tq.port = true →
      tq.waiters = [] → tq.entries = e :: r →
      Completes (exec (.mov f) s) (fun t =>
        ((t.team g.team).queue q).entries = r ∧
        ∀ c, c.isReg = true → (t.group s.cur.gid).readCell i c =
          ((written [i] (fun _ => destVals (dest .mov f) [srcA .mov f g i e.val]) i c).map c.fit).getD (g.readCell i c)))

/-- 02 R35: a long-latency result with a lookahead of n is not written at once: the registers keep their values, and the
lane is owed the result for n more instructions. -/
def Obligations.LookaheadKeepsTheOldValue : Prop :=
  ∀ (s : State) (f : Full) (i : Nat), OneLane s f i → Ready s .frcp f → noQueue .frcp f → f.la ≠ 0 →
    let cells := destVals (dest .frcp f) [w64 (frcpVal (s.envFor f) (low32 (srcA .frcp f (s.group s.cur.gid) i 0))).1]
    let owed : Pend := { serial := s.serial, window := f.la.toNat, cells := cells.map (fun c => (c.1, some c.2)), tick := s.ticks,
                         pc := s.cur.pc }
    Completes (exec (.frcp f) s) (fun t =>
      (∀ j, j < 32 → ∀ c, (t.group s.cur.gid).readCell j c = (s.group s.cur.gid).readCell j c) ∧
      ((t.group s.cur.gid).lane i).pend = [owed] ∧
      ((t.group s.cur.gid).lane i).pc = s.pastPc i)

/-- 02 R38 to R40: both halves of a pair read before either writes; each lane of the issue goes on past the pair. -/
def Obligations.PairHalvesReadBeforeEitherWrites : Prop :=
  ∀ (s : State) (as : Bool) (h0 h1 : Half), (s.group? s.cur.gid).isSome = true →
    (Instr.p64Pair as h0 h1).wellFormed = true →
    rangeTrap (.p64Pair as h0 h1) (s.group s.cur.gid).n (s.group s.cur.gid).m = none →
    (s.group s.cur.gid).n ≤ 256 → (s.group s.cur.gid).m ≤ 32 →
    (∀ i, inMask s.cur.lanes i = true → ((s.group s.cur.gid).lane i).ended = false ∧ ((s.group s.cur.gid).lane i).pend = []) →
    Completes (exec (.p64Pair as h0 h1) s) (fun t =>
      OnlyGroup s t ∧
      ∀ i, i < 32 → inMask s.cur.lanes i = true →
        let a := halfOn s as h0 (s.group s.cur.gid) i
        let b := halfOn s as h1 (s.group s.cur.gid) i
        (∀ c, c.isReg = true → (t.group s.cur.gid).readCell i c =
          ((written [i] (fun _ => a.1 ++ b.1) i c).map c.fit).getD ((s.group s.cur.gid).readCell i c)) ∧
        ((t.group s.cur.gid).lane i).pc = s.pastPc i ∧
        ((t.group s.cur.gid).lane i).fflags = ((s.group s.cur.gid).lane i).fflags ||| (a.2 ||| b.2))

/-! ### Memory (07, 11, 13, 17) -/

/-- 07 R125 to R129: on one lane outside a transaction, a load that its space grants writes the bytes it read: one
extended value, a run of registers, or the elements of a spectral register. -/
def Obligations.LoadsWriteTheBytesRead : Prop :=
  ∀ (s s1 : State) (f : Full) (i : Nat) (bs : List Byte), OneLane s f i → (s.group s.cur.gid).tx = none → f.la = 0 →
    AccessKeeps s s1 →
    let g := s.group s.cur.gid
    let reads := fun (op : Op) (n : Nat) => Ready s op f ∧ noQueue op f ∧
      s.load g i (spaceOf op f) (effAddr f g i) n (hintOf (spaceOf op f) f) = .bytes bs s1
    let done := fun (op : Op) (r : Result) (vals : List W64) =>
      Completes r (fun t => LaneEffect s1 t f (fun _ => destVals (dest op f) vals) (fun _ => 0))
    (reads .ldG (sizeBytes (f.fam % 8)) → done .ldG (exec (.ldG f) s) [extendLoad (f.fam % 8) bs]) ∧
    (reads .ldL (sizeBytes (f.fam % 8)) → done .ldL (exec (.ldL f) s) [extendLoad (f.fam % 8) bs]) ∧
    (reads .ldV (sizeBytes (f.fam % 8)) → done .ldV (exec (.ldV f) s) [extendLoad (f.fam % 8) bs]) ∧
    (reads .ldv (4 * runLen f) → done .ldv (exec (.ldv f) s) (wordList (runLen f) bs)) ∧
    (reads .tld (4 * runLen f) → done .tld (exec (.tld f) s) (wordList (runLen f) bs)) ∧
    (reads .ldw (4 * g.width) → done .ldw (exec (.ldw f) s) ((List.range 8).map (fun e =>
      if 4 * e < bs.length then w64 (leVal ((bs.drop (4 * e)).take 4)) else 0)))

/-- 07 R125 to R129: on one lane outside a transaction, a store that its space takes writes the data field's bytes at the
effective address, and no register. -/
def Obligations.StoresGiveTheirDataToTheSpace : Prop :=
  ∀ (s s1 : State) (f : Full) (i : Nat), OneLane s f i → (s.group s.cur.gid).tx = none → AccessKeeps s s1 →
    let g := s.group s.cur.gid
    let stores := fun (op : Op) (n : Nat) => Ready s op f ∧ noQueue op f ∧
      s.store g i (spaceOf op f) (effAddr f g i) (storeData op f g i 0 n) (hintOf (spaceOf op f) f) = .done s1
    let done := fun (r : Result) => Completes r (fun t => LaneEffect s1 t f (fun _ => []) (fun _ => 0))
    (stores .stG (sizeBytes (f.fam % 8)) → done (exec (.stG f) s)) ∧
    (stores .stL (sizeBytes (f.fam % 8)) → done (exec (.stL f) s)) ∧
    (stores .stV (sizeBytes (f.fam % 8)) → done (exec (.stV f) s)) ∧
    (stores .stv (4 * runLen f) → done (exec (.stv f) s)) ∧
    (stores .tst (4 * runLen f) → done (exec (.tst f) s)) ∧
    (stores .stw (4 * g.width) → done (exec (.stw f) s))

/-- 07 R123, 11 R219, R220, 13 R245: what a granted access to the local store or the vaults reads and writes, with
every other byte of memory as before. That the vault performs the access in the step that issues it is the model's choice
(assumption log 27). -/
def Obligations.LocalAndVaultAccessesAreExact : Prop :=
  ∀ (s : State) (g : Group) (i a n : Nat) (bs : List Byte) (x : Nat),
    (∀ t : Team, 0 < n → s.team? g.team = some t → a % n = 0 → a + n ≤ t.lsBytes → t.present a = true →
      s.retention (localArray g.core) = .active x → s.poison = [] → s.tests = [] →
      s.load g i .loc a n 0 = .bytes (Memory.bytes t.ls a n) (s.setRetention (localArray g.core) (.active s.time)) ∧
      (bs.length = n → ∃ s1, s.store g i .loc a bs 0 = .done s1 ∧ SameMemory { s with teams := [] } { s1 with teams := [] } ∧
        (∀ id, id ≠ g.team → s1.team? id = s.team? id) ∧ (s1.team g.team).lsBytes = t.lsBytes ∧
        ∀ j, Memory.byte (s1.team g.team).ls j = if a ≤ j ∧ j < a + n then bs.getD (j - a) 0 else Memory.byte t.ls j)) ∧
    (0 < n → a % n = 0 → vaultRange g.vwin a n true = true → s.retention (arrayOf (dieOfCore g.core) a) = .active x →
      s.poison = [] → s.tests = [] → s.vheld = [] → s.arrivals = [] →
      let base := dieOfCore g.core * 2 ^ 29 + a
      s.load g i .vault a n 0 = .bytes (Memory.bytes s.vault base n)
        (s.setRetention (arrayOf (dieOfCore g.core) a) (.active s.time)) ∧
      (bs.length = n → s.pinned (dieOfCore g.core) (a / 128) none = false →
        ∃ s1, s.store g i .vault a bs 0 = .done s1 ∧
          (∀ j, Memory.byte s1.mem j = Memory.byte s.mem j) ∧
          s1.teams.map (fun (x : Team) => (x.id, x.ls)) = s.teams.map (fun (x : Team) => (x.id, x.ls)) ∧
          ∀ j, Memory.byte s1.vault j = if base ≤ j ∧ j < base + n then bs.getD (j - base) 0 else Memory.byte s.vault j))

/-- 07 R123, 11 R223, R225, 17 R309: a global load of a line that the core does not hold and to which nothing is queued
reads the bytes at the line's home; a store to such a line, with no lease alive, writes its bytes there and changes no
other byte of memory. That they are performed at the home in the step that issues them is the model's choice (assumption
log 27; 17 R308 fixes no point). -/
def Obligations.GlobalAccessesMeetTheirHome : Prop :=
  ∀ (s : State) (g : Group) (i a n p : Nat) (bs : List Byte),
    s.group? g.id = some g → 0 < n → n ≤ 64 → s.isRemote p = false → p % 64 + n ≤ 64 → s.poison = [] →
    s.tests = [] → g.tx = none → s.l1 = [] → s.homes = [] → s.msc = [] → s.mscB = [] → s.rows = [] → (s.cores.getD g.core {}).l1ways = [] →
    (s.place g .global a n .read = .ok p →
      ∃ s1, s.load g i .global a n 0 = .bytes (Memory.bytes s.mem p n) s1 ∧ SameMemory s s1 ∧
        s1.group? g.id = some g) ∧
    (s.place g .global a n .write = .ok p → bs.length = n →
      ∃ s1, s.store g i .global a bs 0 = .done s1 ∧ (∀ j, Memory.byte s1.vault j = Memory.byte s.vault j) ∧
        s1.teams = s.teams ∧ s1.group? g.id = some { g with wctime := max g.wctime s.time } ∧
        ∀ j, Memory.byte s1.mem j = if p ≤ j ∧ j < p + n then bs.getD (j - p) 0 else Memory.byte s.mem j)

/-- 02 R28, 07 R124, R136: outside a transaction, a transfer to an address that is not a multiple of 4 traps with `MISALIGNED`
and that address, and the lanes keep their program counters; an access whose address is not a multiple of its size traps with `MISALIGNED`
in every space, and performs nothing. -/
def Obligations.MisalignedAddressesTrap : Prop :=
  (∀ (s : State) (f : Full) (i : Nat), OneLane s f i → (s.group s.cur.gid).tx = none →
    (Ready s .ret f → noQueue .ret f → (srcA .ret f (s.group s.cur.gid) i 0).toNat % 4 ≠ 0 →
      Completes (exec (.ret f) s) (fun t =>
        (t.group s.cur.gid).stopped = true ∧ (t.group s.cur.gid).trapCause = 0x0005 ∧
        (t.group s.cur.gid).trapAddr = srcA .ret f (s.group s.cur.gid) i 0 ∧
        (t.group s.cur.gid).trapPc = s.cur.pc ∧ (t.group s.cur.gid).trapMask = 1#32 <<< i ∧
        ((t.group s.cur.gid).lane i).pc = ((s.group s.cur.gid).lane i).pc)) ∧
    (Ready s .brx f → noQueue .brx f → (srcA .brx f (s.group s.cur.gid) i 0).toNat % 4 ≠ 0 →
      Completes (exec (.brx f) s) (fun t =>
        (t.group s.cur.gid).stopped = true ∧ (t.group s.cur.gid).trapCause = 0x0005 ∧
        (t.group s.cur.gid).trapAddr = srcA .brx f (s.group s.cur.gid) i 0 ∧
        ((t.group s.cur.gid).lane i).pc = ((s.group s.cur.gid).lane i).pc))) ∧
  ∀ (s : State) (g : Group) (i a n hint : Nat) (sp : Space) (bs : List Byte), a % n ≠ 0 →
    s.load g i sp a n hint = .trap { cause := 0x05, addr := a } s ∧
    (bs.length = n → s.store g i sp a bs hint = .trap { cause := 0x05, addr := a } s) ∧
    ∀ nt mk, s.atomic g i sp a n nt mk = .trap { cause := 0x05, addr := a } s

/-- 07 R132 to R135: an atomic that is performed at once writes the old value to its destination; one that a lease or a
pin holds back leaves its destination owed. Table 7-3: it leaves in its word the sum, minimum, maximum, bitwise result or
exchanged value, and for a compare-and-swap the new value only where the old one equals the compare value. -/
def Obligations.AtomicsReturnTheOldValueAndWriteTheirs : Prop :=
  (∀ (s s1 : State) (f : Full) (i : Nat) (v : W64) (n : Nat), OneLane s f i → (s.group s.cur.gid).tx = none → f.la = 0 →
    AccessKeeps s s1 →
    let g := s.group s.cur.gid
    let atom := fun (o : W64) => s.atomic g i (spaceOf .atom f) (effAddr f g i) (atomBytes (f.fam % 8) f.hint)
      (8 ≤ f.fam) (fun p => .atom p (f.fam % 8) f.hint o)
    let cas := fun (c o : W64) => s.atomic g i (spaceOf .atomCas f) (effAddr f g i) (if f.fam % 2 == 1 then 8 else 4)
      (8 ≤ f.fam) (fun p => .cas p (f.fam % 2 == 1) c o)
    (Ready s .atom f → noQueue .atom f →
      let o := (atomOperand f s g i).1
      (atom o = .old v s1 → Completes (exec (.atom f) s) (fun t =>
        LaneEffect s1 t f (fun _ => destVals (dest .atom f) [v]) (fun _ => 0))) ∧
      (atom o = .owed n s1 → Completes (exec (.atom f) s) (fun t =>
        (∃ p, ((t.group s.cur.gid).lane i).pend = [p] ∧ p.serial = n ∧ p.window = 0 ∧
          p.cells = (dest .atom f).map (fun c => (c, none))) ∧
        ((t.group s.cur.gid).lane i).pc = s.pastPc i))) ∧
    (Ready s .atomCas f → noQueue .atomCas f → f.xd = false →
      let o := (casOperands f s g i).1
      cas o.1 o.2 = .old v s1 → Completes (exec (.atomCas f) s) (fun t =>
        LaneEffect s1 t f (fun _ => destVals (dest .atomCas f) [v]) (fun _ => 0)))) ∧
  ∀ (m : List Host.Cell) (a : Nat) (v c : W64),
    let old32 := BitVec.ofNat 32 (leVal (Memory.bytes m a 4))
    let old64 := BitVec.ofNat 64 (leVal (Memory.bytes m a 8))
    let new32 := fun (op ty : Nat) => BitVec.ofNat 32 (leVal (Memory.bytes (Memory.setCells m (WriteOp.apply (.atom a op ty v) m).1) a 4))
    let new64 := fun (op ty : Nat) => BitVec.ofNat 64 (leVal (Memory.bytes (Memory.setCells m (WriteOp.apply (.atom a op ty v) m).1) a 8))
    let u := v.setWidth 32
    (WriteOp.apply (.atom a 0 0 v) m).2 = old32.setWidth 64 ∧
    new32 0 0 = old32 + u ∧ new64 0 2 = old64 + v ∧
    new32 1 0 = (if old32.slt u then old32 else u) ∧ new32 1 1 = (if old32 < u then old32 else u) ∧
    new32 2 0 = (if old32.slt u then u else old32) ∧ new32 2 1 = (if old32 < u then u else old32) ∧
    new64 3 2 = old64 &&& v ∧ new64 4 2 = old64 ||| v ∧ new64 5 2 = old64 ^^^ v ∧ new64 6 2 = v ∧
    (old64 = c → leVal (Memory.bytes (Memory.setCells m (WriteOp.apply (.cas a true c v) m).1) a 8) = v.toNat) ∧
    (old64 ≠ c → Memory.setCells m (WriteOp.apply (.cas a true c v) m).1 = m)

/-- 07 R131, 11 R222: the cache operations act on the line of each enabled lane's address and never trap; one that its
tenant may not read, and every one outside global space, has no effect; `LSPRES` says whether a local line is present. -/
def Obligations.CacheOperations : Prop :=
  ∀ (s : State) (f : Full) (i : Nat), OneLane s f i → (s.group s.cur.gid).tx = none →
    let g := s.group s.cur.gid
    let asks : Sparse Nat := [(g.id * 32 + i, s.ticks + 1)]
    (∀ p, spaceOf .cwb f = .global → s.translate g.tenant (effAddr f g i) .read = .ok p →
      (Ready s .cwb f → AccessKeeps s (s.writeBack g.core (p / 128) asks) → Completes (exec (.cwb f) s) (fun t =>
        LaneEffect (s.writeBack g.core (p / 128) asks) t f (fun _ => []) (fun _ => 0))) ∧
      (Ready s .cinv f → AccessKeeps s ((s.writeBack g.core (p / 128) asks).dropL1 g.core (p / 128)) →
        Completes (exec (.cinv f) s) (fun t =>
          LaneEffect ((s.writeBack g.core (p / 128) asks).dropL1 g.core (p / 128)) t f (fun _ => []) (fun _ => 0))) ∧
      (Ready s .pref f → s.remoteRefusal p 0 = none → s.fetchHeld p = false → s.bankHeld p = false →
        let s1 := (s.l1Fetch g.core (p / 128) 0 f.hint).l1Fetch g.core (p / 128) 1 f.hint
        AccessKeeps s s1 → Completes (exec (.pref f) s) (fun t => LaneEffect s1 t f (fun _ => []) (fun _ => 0)))) ∧
    ((spaceOf .cwb f ≠ .global ∨ ∃ e, s.translate g.tenant (effAddr f g i) .read = .error e) →
      (Ready s .cwb f → Completes (exec (.cwb f) s) (fun t => LaneEffect s t f (fun _ => []) (fun _ => 0))) ∧
      (Ready s .cinv f → Completes (exec (.cinv f) s) (fun t => LaneEffect s t f (fun _ => []) (fun _ => 0))) ∧
      (Ready s .pref f → Completes (exec (.pref f) s) (fun t => LaneEffect s t f (fun _ => []) (fun _ => 0)))) ∧
    (Ready s .lspres f → effAddr f g i < (s.team g.team).lsBytes → Completes (exec (.lspres f) s) (fun t =>
      LaneEffect s t f (fun _ => destVals (dest .lspres f) [if (s.team g.team).present (effAddr f g i) then 1 else 0])
        (fun _ => 0)))

/-- 07 R140, 17 R322, Table 17-4: `FENCE` writes the group's dirty lines back and stalls the group past it. The stall ends
when the group's loads and atomics have returned and, at a wide scope (3 and up), its writes are performed, its engines owe
it nothing and the device time has reached `WCTIME`, `.DOMAIN` (6) 50 ns later, or 1 µs where the module is not synchronised; at
a narrow scope, when no atomic or vault write of it is outstanding and the completion times of its row commands have come.
Where its lanes stand while the group waits is the model's choice (assumption log 72). -/
def Obligations.FenceStallsTheGroup : Prop :=
  (∀ (s : State) (f : Full), Ready s .fence f → s.enabledFor f ≠ [] → s.unsafeIssue .fence f = false →
    exec (.fence f) s = .next (((s.writeBackGroup s.cur.gid).modGroup (s.writeBackGroup s.cur.gid).cur.gid (fun g =>
      g.advanceAll (lanesOf (s.writeBackGroup s.cur.gid).cur.lanes) (s.writeBackGroup s.cur.gid).cur.size)).modGroup
        (s.writeBackGroup s.cur.gid).cur.gid (fun g => { g with wait := .fence (3 ≤ f.fam % 8) (f.fam % 8 == 6) }))) ∧
  ∀ (s : State) (g : Group) (wide slack : Bool), s.group? g.id = some g → (s.groups.map (fun (x : Group) => x.id)).Nodup →
    g.wait = .fence wide slack →
    let extra := if slack = false then 0 else if s.tstat = .locked ∨ s.tstat = .holdover then 50 else 1000
    let ended := (∀ l ∈ g.lanes, l.back ≤ s.ticks) ∧
      (if wide = true then s.unperformed g.id = false ∧ s.engineOwes g.id = false ∧ g.wctime + extra ≤ s.time
        else s.unreturned g.id = false ∧ g.rowtime ≤ s.time)
    (ended → s.settleWaits.group? g.id = some { g with wait := .none }) ∧ (¬ended → s.settleWaits.group? g.id = some g)

/-- 07 R141 to R145, 17 R319: `TXBEGIN` opens a transaction on the enabled lanes, writes true to its predicate and
clears `TXSTAT`; an abort drops the buffered bytes, records cause and code, and resumes every lane of the set past its
`TXBEGIN` with the predicate false; a commit with an empty set closes it. -/
def Obligations.TransactionsBeginCommitAndAbort : Prop :=
  ∀ (s : State) (f : Full), s.enabledFor f ≠ [] →
    let en := s.enabledFor f
    let g := s.group s.cur.gid
    (Ready s .txbegin f → g.tx = none → Completes (exec (.txbegin f) s) (fun t =>
      (t.group s.cur.gid).tx = some { lanes := maskOf en.contains, pd := f.dst.toNat, resume := s.cur.pc + w64 s.cur.size } ∧
      (t.group s.cur.gid).txstat = 0 ∧ SameMemory s t ∧
      (∀ i ∈ en, (t.group s.cur.gid).readP i f.dst.toNat = true) ∧
      ∀ i, inMask s.cur.lanes i = true → ((t.group s.cur.gid).lane i).pc = s.pastPc i)) ∧
    (∀ x, Ready s .txcommit f → g.tx = some x → maskOf en.contains = x.lanes → x.reads = [] → x.writes = [] →
      s.writeBackGroup s.cur.gid = s → Completes (exec (.txcommit f) s) (fun t =>
        (t.group s.cur.gid).tx = none ∧ (t.group s.cur.gid).txstat = 0 ∧
        (∀ i ∈ en, (t.group s.cur.gid).readP i f.dst.toNat = true) ∧
        ∀ i, inMask s.cur.lanes i = true → ((t.group s.cur.gid).lane i).pc = s.pastPc i)) ∧
    (∀ x i, Ready s .txabort f → noQueue .txabort f → g.tx = some x → OneLane s f i → inMask x.lanes i = true →
      (∀ j, j < 32 → inMask x.lanes j = true → (g.lane j).ended = false ∧ (g.lane j).pend = []) →
      Completes (exec (.txabort f) s) (fun t =>
        (t.group s.cur.gid).tx = none ∧ SameMemory s t ∧
        (t.group s.cur.gid).txstat = BitVec.ofNat 32 (x.lines * 65536 + low32 (srcA .txabort f g i 0) % 256 * 256 + 5) ∧
        ∀ j, j < 32 → inMask x.lanes j = true → ((t.group s.cur.gid).lane j).pc = x.resume ∧
          (x.pd ≠ 0 → (t.group s.cur.gid).readP j x.pd = false)))

/-! ### Engines: textures, splats, copies, barrier objects, rows (11, 13, 18, 20) -/

/-- 11 R228 to R230: on one lane, a texture instruction whose descriptor and texels can be read writes the results of
its plan, every element of a spectral destination or one value, and raises the plan's flags. 20 R358: `FSPLAT.W` sends
the splat of its coordinates and elements to its die's back end when the camera is its tenant's, enabled and on the die and
no splat that the lane pushed before waits at the port; a camera number above 255 is `ILLEGAL` with `DETAIL` 0x15. -/
def Obligations.TextureAndSplatInstructions : Prop :=
  (∀ (s s1 s2 : State) (f : Full) (i : Nat) (d : TexDesc) (l : List (Nat × Nat)), OneLane s f i →
    (s.group s.cur.gid).tx = none → f.la = 0 → AccessKeeps s s2 →
    let g := s.group s.cur.gid
    let plan := fun (op : Op) (o : TexOp) (lams : List W32) =>
      let x := srcA op f g i 0
      texPlan o d (s.envFor f) (x.setWidth 32) (x.extractLsb' 32 32) (lams.take g.width)
    let reads := fun (op : Op) (o : TexOp) (n : Nat) (lams : List W32) => Ready s op f ∧ noQueue op f ∧
      s.descriptor g i n o.allows = .ok d s1 ∧ s1.loadTexels g i d.size (plan op o lams).addrs = .bits l s2
    let result := fun (op : Op) (o : TexOp) (lams : List W32) =>
      (plan op o lams).results o d (s.envFor f) (fun a => ((l.find? (fun x => x.1 == a)).map (·.2)).getD 0)
    let writes := fun (op : Op) (r : Result) (vals : List W64) (fl : FlagSet) =>
      Completes r (fun t => LaneEffect s2 t f (fun _ => destVals (dest op f) vals) (fun _ => fl))
    let eight := fun (vs : List Nat) => (List.range 8).map (fun e => (vs.map w64).getD e 0)
    (reads .tsmpW .w f.sc.toNat (spectralWords f.sb g i) → let r := result .tsmpW .w (spectralWords f.sb g i)
      writes .tsmpW (exec (.tsmpW f) s) (eight r.1) r.2) ∧
    (reads .tups .ups f.sb.toNat (spectralWords f.dst g i) → let r := result .tups .ups (spectralWords f.dst g i)
      writes .tups (exec (.tups f) s) (eight r.1) r.2) ∧
    (reads .tsmpF .f f.sb.toNat [] → let r := result .tsmpF .f []
      writes .tsmpF (exec (.tsmpF f) s) (r.1.map w64) r.2) ∧
    (reads .tfet .fet f.sb.toNat [] → let r := result .tfet .fet []
      writes .tfet (exec (.tfet f) s) (r.1.map w64) r.2) ∧
    (Ready s .tqry f → noQueue .tqry f → s.descriptor g i f.sb.toNat (fun _ => true) = .ok d s2 →
      writes .tqry (exec (.tqry f) s) [w64 (match f.fam with
        | 0 => d.flags
        | 1 => d.w
        | 2 => d.h
        | 3 => d.s
        | 4 => d.lam0
        | _ => d.invd)] 0)) ∧
  ∀ (s : State) (f : Full) (i : Nat), OneLane s f i → (s.group s.cur.gid).tx = none → Ready s .fsplatW f →
    noQueue .fsplatW f → f.la = 0 →
    let g := s.group s.cur.gid
    let camera := (g.readG i f.sb.toNat).toNat
    let xy := (g.readG i f.sc.toNat).toNat
    let splat : Splat :=
      { die := dieOfCore g.core, gid := some g.id, camera := camera, x := xy % 65536, y := xy / 65536,
        elems := (List.range g.width).map (fun e => (g.readW i f.sa.toNat e, g.readW i (f.sa.toNat + 1) e)) }
    (camera < 256 → s.cameraOk camera g.tenant (dieOfCore g.core) = true → s.splatQueued g.team s.cur.gid i = false →
      Completes (exec (.fsplatW f) s) (fun t =>
        LaneEffect { s with splats := s.splats ++ [splat] } t f (fun _ => []) (fun _ => 0))) ∧
    (256 ≤ camera → Completes (exec (.fsplatW f) s) (fun t =>
      (t.group s.cur.gid).stopped = true ∧ (t.group s.cur.gid).trapCause = 0x1501 ∧ t.splats = s.splats))

/-- 13 R250 to R254, R260: `BOBJ.INIT` writes a new object of a count from 1 to 65,535, `BOBJ.EXPECT` is an arrival,
`BOBJ.WAIT` goes on where the phase differs from `P` and else stalls the group; `TCOPY` supplies the group's slice and
stays until the copy is formed; `TCSTAT` reads the copies of the team. -/
def Obligations.CopiesAndBarrierObjects : Prop :=
  ∀ (s : State) (f : Full), s.enabledFor f ≠ [] →
    let en := s.enabledFor f
    let go := en ++ s.disabledFor f
    let g := s.group s.cur.gid
    let die := dieOfCore g.core
    let a := fun (op : Op) => (srcA op f g (en.headD 0) 0).toNat
    let b := fun (op : Op) => srcB op f g (en.headD 0)
    let object := fun (op : Op) (write : Bool) => Ready s op f ∧ noQueue op f ∧ a op % 64 = 0 ∧
      vaultRange g.vwin (a op) 64 write = true ∧ s.vheld = [] ∧ s.arrivals = [] ∧
      (write = true → s.pinned die (a op / 128) none = false) ∧ ∃ x, s.retention (arrayOf die (a op)) = .active x
    let s1 := fun (op : Op) => s.setRetention (arrayOf die (a op)) (.active s.time)
    (∀ n, object .bobjInit true → s.drained g.id = true → n = (b .bobjInit).toNat % 2 ^ 32 → 1 ≤ n → n ≤ 65535 →
      exec (.bobjInit f) s = .next ((((s1 .bobjInit).setVault die ((List.range 64).map (fun i =>
        (a .bobjInit + i, (objInit n).getD i 0))))).goOn go)) ∧
    (∀ s', object .bobjExpect true → s.drained g.id = true →
      (s1 .bobjExpect).objOp die (a .bobjExpect) .arrive ((b .bobjExpect).toNat % 2 ^ 32) = some s' →
      exec (.bobjExpect f) s = .next (s'.goOn go)) ∧
    (object .bobjWait false → (s.phaseBit die (a .bobjWait) = (f.fam % 2 == 1)) →
      exec (.bobjWait f) s = .next ((s1 .bobjWait).modGroup g.id (fun g =>
        { g with wait := .object (a .bobjWait) (f.fam % 2 == 1) s.cur.lanes none }))) ∧
    (object .bobjWait false → s.phaseBit die (a .bobjWait) ≠ (f.fam % 2 == 1) →
      exec (.bobjWait f) s = .next ((s1 .bobjWait).goOn go)) ∧
    (∀ (op : Op) (two : Bool) (r : Result), (op = .tcopy ∧ two = false ∧ r = exec (.tcopy f) s ∨
        op = .tcopy2d ∧ two = true ∧ r = exec (.tcopy2d f) s) → Ready s op f → noQueue op f → s.writeBackGroup g.id = s →
      (s.team? g.team).isSome = true → a op % 64 = 0 → a op + 64 ≤ (s.team g.team).lsBytes →
      (two = true ∨ b op &&& 0x0000000300000003#64 = 0) →
      let l := (s.launch? (s.team g.team).die (s.team g.team).launch).getD
        { die := (s.team g.team).die, num := (s.team g.team).launch }
      let slice : Slice :=
        { gid := g.id, num := g.num, two := two, desc := a op, word := b op, lanes := maskOf en.contains, here := s.cur.lanes,
          serial := s.serial, origin := (l.origin s.cur.pc.toNat).1 }
      let owed : Pend := { serial := s.serial, window := f.la.toNat + 1, cells := (dest op f).map (fun c => (c, none)),
                           tick := s.ticks, pc := s.cur.pc }
      Completes r (fun t => (t.team g.team).slices = (s.team g.team).slices ++ [slice] ∧
        (t.group s.cur.gid).wait = .copy ∧ ∀ i, i < 32 → ((t.group s.cur.gid).lane i).pc = (g.lane i).pc ∧
          (i ∈ en → i < g.lanes.length → ((t.group s.cur.gid).lane i).pend = [owed]))) ∧
    Computes (exec (.tcstat f)) .tcstat f (fun s _ v _ _ =>
      let mine := s.copies.filter (fun (c : Copy) => c.team == (s.group s.cur.gid).team)
      let old := !mine.any (fun (c : Copy) => c.seq == v.toNat % 2 ^ 16)
      ([w64 (old.toNat * 2 ^ 31 + min 255 mine.length * 2 ^ 16 + (s.team (s.group s.cur.gid).team).copySeq)], 0))

/-- 18 R329, R345: on one lane, each row command instruction reads its descriptor and hands the command to the row
engine, its lane owed the status word; `ROW.WAIT` stalls the group until few enough commands of its team are left. -/
def Obligations.RowInstructionsSubmitCommands : Prop :=
  ∀ (s : State) (f : Full),
    let g := s.group s.cur.gid
    (∀ (i : Nat) (bs : List Byte) (s1 : State), OneLane s f i → g.tx = none → f.la = 0 → AccessKeeps s s1 →
      let issues := fun (op : Op) (n : Nat) (r : Result) => Ready s op f → noQueue op f →
        s.load g i .global (srcA op f g i 0).toNat 64 0 = .bytes bs s1 →
        let owed : Pend := { serial := s1.serial, window := 0, cells := (dest op f).map (fun c => (c, none)), tick := s1.ticks,
                             pc := s.cur.pc }
        Completes r (fun t =>
          t.rows = s1.rows ++ [newRow { s1 with serial := s1.serial + 1 } g i s1.serial n bs] ∧
          ((t.group s.cur.gid).lane i).pend = [owed] ∧ ((t.group s.cur.gid).lane i).pc = s.pastPc i)
      issues .rowCopy 0 (exec (.rowCopy f) s) ∧ issues .rowFill 1 (exec (.rowFill f) s) ∧
      issues .rowAnd 2 (exec (.rowAnd f) s) ∧ issues .rowOr 3 (exec (.rowOr f) s) ∧
      issues .rowXor 4 (exec (.rowXor f) s) ∧ issues .rowNot 5 (exec (.rowNot f) s) ∧
      issues .rowMaj 6 (exec (.rowMaj f) s) ∧ issues .rowAllb 7 (exec (.rowAllb f) s) ∧
      issues .rowBcst 8 (exec (.rowBcst f) s) ∧ issues .rowMac 9 (exec (.rowMac f) s) ∧
      issues .rowSadd 10 (exec (.rowSadd f) s) ∧ issues .rowRdacc 11 (exec (.rowRdacc f) s) ∧
      issues .rowProg 12 (exec (.rowProg f) s)) ∧
    (∀ n, Ready s .rowWait f → noQueue .rowWait f →
      minOf? ((s.enabledFor f).map (fun i => low32 (srcA .rowWait f g i 0))) = some n →
      (s.rowsLive g.team ≤ n → Completes (exec (.rowWait f) s) (fun t => LaneEffect s t f (fun _ => []) (fun _ => 0))) ∧
      (n < s.rowsLive g.team → Completes (exec (.rowWait f) s) (fun t => (t.group s.cur.gid).wait = .rows n ∧
        ∀ i, inMask s.cur.lanes i = true → ((t.group s.cur.gid).lane i).pc = s.pastPc i)))

/-! ### The matrix sequencer (10) -/

/-- 10 R203, R210, R211: the scalar and control instructions of a sequencer. -/
def Obligations.SequencerScalarAndControl : Prop :=
  ∀ (s : State) (t : Team) (q : Sequencer) (d a b : BitVec 5) (o : BitVec 16), SeqHere s t q →
    let set := fun (r : BitVec 5) (v : W64) => s.modSeq t.id (fun x => x.wx r.toNat v)
    let go := fun (off : BitVec 16) (taken : Bool) => s.seqMove (if taken then off.signExtend 64 * 4 else 4)
    exec (.msetI d 0 o) s = .next (set d (o.setWidth 64)).seqNext ∧
    (∀ sh : BitVec 2, sh ≠ 0 → exec (.msetI d sh o) s = .next
      (set d ((q.rx d.toNat &&& ~~~(0xFFFF#64 <<< (16 * sh.toNat))) ||| (o.setWidth 64 <<< (16 * sh.toNat)))).seqNext) ∧
    (∀ i : BitVec 11, exec (.maddx d a b i) s = .next
      (set d (q.rx a.toNat + q.rx b.toNat + i.signExtend 64)).seqNext) ∧
    (∀ n e s', t.bound? 3 = some n → s.engineTake t.id n false = some (e, s') →
      exec (.msetQ d) s = .next ((s'.modSeq t.id (fun x => x.wx d.toNat e.val)).seqNextOf s.cur.team)) ∧
    (∀ n, t.bound? 3 = some n → s.engineTake t.id n false = none → exec (.msetQ d) s = .next
      (s.modSeq s.cur.team (fun x => { x with st := .blocked }))) ∧
    (∀ n s', t.bound? 4 = some n →
      s.enginePush t.id n (q.rx a.toNat) = some s' → exec (.msetR a) s = .next (s'.seqNextOf s.cur.team)) ∧
    (t.bound? 3 = none → exec (.msetQ d) s = .next (s.haltSeq s.cur.team 0x0C 0 none)) ∧
    (d ≠ 0 → q.rx d.toNat ≠ 1 → exec (.mloop d o) s = .next
      ((set d (q.rx d.toNat - 1)).seqMove (o.signExtend 64 * 4))) ∧
    (d ≠ 0 → q.rx d.toNat = 1 → exec (.mloop d o) s = .next (set d 0).seqNext) ∧
    exec (.mloop 0 o) s = .next (s.haltSeq s.cur.team 0x02 0 none) ∧
    exec (.mbraAl o) s = .next (go o true) ∧
    exec (.mbraZ a o) s = .next (go o (q.rx a.toNat == 0)) ∧
    exec (.mbraNz a o) s = .next (go o (q.rx a.toNat != 0)) ∧
    (q.mma = [] → s.mstsDone t.id = true →
      exec .mbraStop s = .next (s.modSeq t.id (fun x => { x with st := .idle })).seqNext) ∧
    (q.mma ≠ [] → exec .mbraStop s = .next s) ∧
    (∀ (n : BitVec 4) (c : BitVec 6), c ≠ 0 → c.toNat ≤ 33 → s.mstsDone t.id = true →
      exec (.msig n c) s = .next ((s.arriveNum t.id n.toNat none c.toNat).seqNextOf s.cur.team) ∧
      let waits := s.modSeq t.id (fun x => { x with st := .waiting, waitBar := n.toNat, waitPhase := (t.bar n.toNat).phase })
      exec (.mwait n 0) s = .next waits.seqNext ∧
      exec (.mwait n c) s = .next ((waits.arriveNum t.id n.toNat none c.toNat).seqNextOf s.cur.team))

/-- 10 R204 to R209: block loads, `MMA`, `MZERO`, `MSPARSE` and the tile stores, with the checks under which each executes. -/
def Obligations.SequencerBlocksAndTiles : Prop :=
  ∀ (s : State) (t : Team) (q : Sequencer) (n : BitVec 3) (i j : BitVec 2) (a b c : BitVec 5), SeqHere s t q →
    let base := (q.rx a.toNat).toNat
    let stride := (q.rx b.toNat).toNat
    let obj := (q.rx c.toNat).toNat
    let loads := fun (k : Nat) => q.fset = true ∧ q.slotBusy k = false ∧ (q.slotAt k).full = false ∧ base % 32 = 0 ∧
      stride % 32 = 0 ∧ rowLen q.mfmt ≤ stride ∧
      (rowStarts base stride).all (fun x => vaultRange t.vwin x (rowLen q.mfmt) false) = true
    let loaded : Nat → Result := fun k => .next (s.modSeq t.id (fun x =>
      x.modSlot k (fun _ => { full := true, fmt := q.mfmt, loading := some (base, stride), pc := s.cur.pc }))).seqNext
    let stores := fun (len : Nat) => q.tileBusy n.toNat = false ∧ (q.a ++ q.b).all (fun sl => sl.loading.isNone) = true ∧ (q.tile n.toNat).valid = true ∧ s.poison = [] ∧
      base % 32 = 0 ∧ stride % 32 = 0 ∧ len ≤ stride ∧ obj % 64 = 0 ∧
      (obj = 0 ∨ vaultRange t.vwin obj 64 true = true ∧ leVal (s.vaultBytes t.die (obj + 0x1C) 2) = 0x424F) ∧
      (rowStarts base stride).all (fun x => vaultRange t.vwin x len true) = true ∧
      (linesOf (rowStarts base stride) len).any (fun ln => (q.a ++ q.b).any (fun sl => sl.pins.contains ln)) = false
    let elem := fun (x y : Nat) => (Sparse.get 0 (q.tile n.toNat).c (x * 64 + y)).toNat
    let b16 := fun (e : Nat) =>
      finish .b16 t.env ((Val.ofBits .f32 t.env.ftz e).exact, (Val.ofBits .f32 t.env.ftz e).sig)
    let stored := fun (len : Nat) (row : Nat → List Byte) (fl : FlagSet) =>
      let num := 1 + maxOf (s.msts.map (fun (m : MstCount) => m.num))
      let s1 := s.vaultStoreRows t num ((List.range 64).map (fun k => (base + k * stride, row k)))
      let count : MstCount := { num := num, team := t.id, die := t.die, object := obj, bytes := 64 * len }
      let s2 := { s1 with msts := s1.msts ++ [count] }
      (s2.modSeq t.id (fun x => { x with flg := x.flg ||| fl })).seqNextOf s.cur.team
    (loads i.toNat → exec (.mlda i a b) s = loaded i.toNat) ∧
    (loads (4 + i.toNat) → exec (.mldb i a b) s = loaded (4 + i.toNat)) ∧
    (q.slotBusy n.toNat = false → exec (.munpin n) s = .next
      (((s.clearSlots t.id [n.toNat]).modSeq t.id (fun x => x.modSlot n.toNat (fun _ => emptySlot))).releasePins.seqNextOf
        s.cur.team)) ∧
    (∀ ka kb, q.tileBusy n.toNat = false → q.slotBusy i.toNat = false → q.slotBusy (4 + j.toNat) = false →
      (q.tile n.toNat).valid = true → (q.slotAt i.toNat).full = true → (q.slotAt (4 + j.toNat)).full = true → q.fset = true →
      (q.slotAt i.toNat).fmt = q.mfmt → (q.slotAt (4 + j.toNat)).fmt = q.mfmt → s.poison = [] →
      exec (.mma n i j ka kb) s = .next (s.modSeq t.id (fun x0 =>
        let x := (x0.modSlot i.toNat (fun sl => { sl with keep := ka })).modSlot (4 + j.toNat) (fun sl => { sl with keep := kb })
        { x with mma := x.mma ++ [{ t := n.toNat, a := i.toNat, b := j.toNat, ka := ka, kb := kb, mode := t.fmode.toNat % 4,
                                    ftz := t.fmode.getLsbD 2 }] })).seqNext) ∧
    (q.tileBusy n.toNat = false → s.poison = [] →
      exec (.mzero n) s = .next (s.modSeq t.id (fun x => x.modTile n.toNat (fun _ => {}))).seqNext) ∧
    (q.mma = [] → exec (.msparse a) s = .next
      (s.modSeq t.id (fun x => { x.wx a.toNat (w64 q.skips) with skips := 0 })).seqNext) ∧
    (stores 256 → exec (.mstF32 n a b c) s = .next
      (stored 256 (fun x => (List.range 64).flatMap (fun y => leOf 4 (elem x y))) 0)) ∧
    (stores 128 → exec (.mstB16 n a b c) s = .next
      (stored 128 (fun x => (List.range 64).flatMap (fun y => leOf 2 (b16 (elem x y)).1))
        ((List.range 4096).foldl (fun f k => f ||| (b16 (elem (k / 64) (k % 64))).2) 0))) ∧
    (∀ m, q.tileBusy n.toNat = false → (q.tile n.toNat).valid = true → s.poison = [] → t.bound? 4 = some m →
      let k := min ((t.queue m).room true) (2048 - q.pushed)
      let entry := fun (e : Nat) => Sparse.get 0 (q.tile n.toNat).c (2 * e + 1) ++ Sparse.get 0 (q.tile n.toNat).c (2 * e)
      let s1 := (List.range k).foldl (fun s x => (s.enginePush t.id m (entry (q.pushed + x))).getD s) s
      (q.pushed + k = 2048 → exec (.mstQ n) s = .next
        ((s1.modSeq t.id (fun x => { x with pushed := 0 })).seqNextOf s.cur.team)) ∧
      (q.pushed + k ≠ 2048 → exec (.mstQ n) s = .next
        ((s1.modSeq t.id (fun x => { x with pushed := q.pushed + k })).modSeq s.cur.team (fun x => { x with st := .blocked }))))

/-! ### Row programs and row commands (18) -/

/-- 18 R342, Table 18-7: the steps of a row program, where no row boundary follows. `OPEN` reads the row it opens of every
bank (18 R334). A step that ends the command, or fails, ends the row step, with the status that the command then gets. -/
def Obligations.RowProgramSteps : Prop :=
  ∀ (s : State) (c : RowCmd), s.row? s.cur.cmd = some c →
    let id := s.cur.cmd
    let nb := s.near c.stack c.pch
    let goesIn := fun (s : State) (c' : RowCmd) (nb' : NearBank) (rpc : Nat) =>
      let s' := (s.modRow id (fun _ => c')).setNear { nb' with rpc := rpc % 32 }
      { s' with agenda := .row id :: s'.agenda }
    let goes := goesIn s
    let inside := fun (rpc : Nat) => rpc ≤ 31 ∧
      ((c.steps.getD rpc 0).extractLsb' 28 4 ≠ 1#4 ∨ c.isOpen = false)
    exec .stepEnd s = .next (s.stepsOver c (some 0)) ∧
    (nb.rp < c.rows → s.poison = [] → s.tests = [] → nb.rpc + 1 ≤ 31 → (c.steps.getD (nb.rpc + 1) 0).extractLsb' 28 4 ≠ 1#4 → exec .stepOpen s = .next
      (goesIn (s.rowReads (s.opened c)) { c with isOpen := true, chunks := 0, next := nb.rp + 1 } { nb with rp := nb.rp + 1 }
        (nb.rpc + 1))) ∧
    (c.rows ≤ nb.rp → exec .stepOpen s = .next (s.stepsOver c (some 7))) ∧
    (inside (nb.rpc + 1) → exec .stepClr s = .next (goes c { nb with acc := [] } (nb.rpc + 1))) ∧
    (∀ t : BitVec 5,
      let lc := (nb.lc + 65535) % 65536
      let rpc := if lc ≠ 0 then t.toNat else nb.rpc + 1
      inside rpc → exec (.stepLoop t) s = .next (goes c { nb with lc := lc } rpc)) ∧
    (∀ (v : BitVec 3) (c0 : BitVec 6) (n : BitVec 5), 1 ≤ n.toNat → n.toNat ≤ 16 → c0.toNat + n.toNat ≤ 64 → c.next ≠ 0 →
      c.chunks + n.toNat ≤ 64 → inside (nb.rpc + 1) →
      let runs := fun (own : Bool) => goes { c with chunks := c.chunks + n.toNat }
        ((List.range n.toNat).foldl (s.macChunk c own v.toNat c0.toNat) nb) (nb.rpc + 1)
      exec (.macb v c0 n) s = .next (runs false) ∧ exec (.mace v c0 n) s = .next (runs true)) ∧
    (∀ (v : BitVec 3) (c0 : BitVec 6) (n : BitVec 5), (n = 0 ∨ 16 < n.toNat ∨ 64 < c0.toNat + n.toNat ∨ c.next = 0 ∨
        64 < c.chunks + n.toNat) →
      exec (.macb v c0 n) s = .next (s.stepsOver c (some 7)) ∧ exec (.mace v c0 n) s = .next (s.stepsOver c (some 7)))

/-! ### Events of lanes, time and memory (00, 02, 07, 09, 11, 13, 15, 17) -/

/-- 02 R35, 07 R137, R143, 09 R175, R176, 15 R289: what ends the wait of a lane or of a group.
Which requests of a group count for a hint is the model's reading (assumption log 18). -/
def Obligations.WaitsOfLanesEnd : Prop :=
  ∀ (s : State) (g : Group), s.group? s.ev.obj = some g →
    let i := s.ev.sub
    let l := g.lane i
    (i < g.lanes.length → l.yield = 1 →
      Completes (exec .yieldExpire s) (fun t => LaneBecomes s t g.id i { l with yield := 0 })) ∧
    (i < g.lanes.length → l.park = 4 → l.napEnd ≤ s.time →
      Completes (exec .napWake s) (fun t => LaneBecomes s t g.id i { l with park := 0 })) ∧
    (∀ (p : Pend) r v, i < 32 → i < g.lanes.length → r < 256 → l.pend = [p] → p.window = 0 → p.cells = [(.g r, some v)] →
      Completes (exec .longLatencyRetire s) (fun t =>
        ((t.group g.id).lane i).pend = [] ∧ (t.group g.id).readG i r = v.setWidth 32 ∧
        ∀ c, c.isReg = true → c ≠ .g r → (t.group g.id).readCell i c = g.readCell i c)) ∧
    (s.faultPending g.id = false → Completes (exec .laneReplay s) (fun t =>
      (t.group g.id).stopped = false ∧ ∀ j, ((t.group g.id).lane j).pc = (g.lane j).pc ∧
        (j < 32 → inMask g.trapMask j = true → (g.lane j).park = 5 → ((t.group g.id).lane j).park = 0))) ∧
    (∀ x c n, g.tx = some x → x.dead = some (c, n) →
      (∀ j, j < 32 → inMask x.lanes j = true → (g.lane j).ended = false ∧ (g.lane j).pend = []) →
      Completes (exec .txAbortResume s) (fun t =>
        (t.group g.id).tx = none ∧ (t.group g.id).txstat = BitVec.ofNat 32 (x.lines * 65536 + n * 256 + c) ∧
        ∀ j, j < 32 → inMask x.lanes j = true → ((t.group g.id).lane j).pc = x.resume ∧
          (x.pd ≠ 0 → (t.group g.id).readP j x.pd = false))) ∧
    exec .stallHintEnd s = .next (s.modGroup g.id (fun x => { x with hint := s.hintOf x })) ∧
    ((∀ h ∈ s.hints, h.die = dieOfCore g.core → some h.peer = s.oldestTarget g → h.t ≤ s.time) → s.hintOf g = 0)

/-- 08 R152, 00 R8 to R11, 22 R398: the passing of a cycle in its three parts, and the states of the time base.
The order of the parts is the model's (assumption log 7), and so are the units in which a correction moves the count
(assumption log 38). -/
def Obligations.TimeBaseMovesAsItsSourceAllows : Prop :=
  ∀ s : State,
    let src := s.ev.val.toNat
    let near := s.time * 40000 + s.sub ≤ (src + 20) * 40000 ∧ src * 40000 ≤ (s.time + 20) * 40000 + s.sub
    (s.step = .ready → s.ev.sub = 0 → exec .issueCycle s = .next
      ((s.pass.push (s.pass.dueEvents s.pass.gated)).refreshes.testsOver.push [evWork .issueCycle 0 1])) ∧
    (s.ev.sub = 1 → exec .issueCycle s =
      .next (((s.push (s.seqIssues s.gated)).issueAll s.gated).push [evWork .issueCycle 0 2])) ∧
    (2 ≤ s.ev.sub →
      let again := s.issueAgain s.gated
      (again.agenda.length = s.agenda.length → exec .issueCycle s = .next (s.endIssues.push s.endIssues.placings)) ∧
      (again.agenda.length ≠ s.agenda.length → exec .issueCycle s = .next (again.push [evWork .issueCycle 0 2]))) ∧
    (s.step = .recovery → s.ev.sub = 0 → exec .issueCycle s = .next s.tick) ∧
    (∀ a b, s.tick.step = .starting a b → s.ev.sub = 0 → exec .issueCycle s = .next
      (if 1440000000000 ≤ s.tick.ticks then s.tick.push [evWork .startTimeout 0] else s.tick)) ∧
    (let before := s.time * 40000 + s.sub
     let after := s.tick.time * 40000 + s.tick.sub
     s.tick.ticks = s.ticks + 5 ∧
     (s.hold = 0 → s.source = true → s.tstat = .locked → s.time + (s.sub + 25005) / 40000 < 2 ^ 64 →
       before + 24995 ≤ after ∧ after ≤ before + 25005) ∧
     (s.hold = 0 → s.source = false → s.time + (s.sub + 24995 + s.rate) / 40000 < 2 ^ 64 →
       after = before + 24995 + s.rate)) ∧
    (s.tstat = .unlocked → s.time ≤ src → Completes (exec .timebaseFirstLock s) (fun t =>
      t.time = src ∧ t.sub = 0 ∧ t.tstat = .locked ∧ t.source = true)) ∧
    (s.tstat = .unlocked → src < s.time → Completes (exec .timebaseFirstLock s) (fun t =>
      t.time = s.time ∧ t.hold = (s.time - src) * 40000 ∧ t.tstat = .unsynced ∧ t.source = true)) ∧
    (s.tstat = .locked → Completes (exec .timebaseSourceLost s) (fun t =>
      t.tstat = .holdover ∧ t.since = s.ticks ∧ t.source = false)) ∧
    (s.tstat = .unsynced → exec .timebaseSourceLost s = .next { s with source := false, hold := 0 }) ∧
    (s.tstat = .holdover → Completes (exec .timebaseSourceRegained s) (fun t => t.source = true ∧
      t.tstat = (if near then .locked else .unsynced))) ∧
    (s.tstat = .holdover → s.since + 800000000 ≤ s.ticks →
      Completes (exec .holdoverTimeout s) (fun t => t.tstat = .unsynced)) ∧
    (s.tstat = .unsynced → s.source = true → near →
      Completes (exec .unsyncedConverge s) (fun t => t.tstat = .locked ∧ t.hold = 0)) ∧
    Completes (exec .peerStateUpdate s) (fun t =>
      Sparse.get 0 t.peers s.ev.obj = TimeState.code s.ev.ts + 1 ∧
      (∀ p, p ≠ s.ev.obj → Sparse.get 0 t.peers p = Sparse.get 0 s.peers p) ∧ { t with peers := s.peers } = s)

/-- 11 R225, 13 R248, R249, 15 R287, 17 R309, R310, R319: leases, write-backs, homes, translations and arrays.
Which translations a core holds is the model's (assumption log 83). -/
def Obligations.MemoryEvents : Prop :=
  ∀ (s : State) (h : Home) (p : Page),
    exec .l1LeaseExpire s = .next s ∧
    exec .dirtyWritebackTimer s = .next (s.writeBack s.ev.obj s.ev.sub) ∧
    (s.fetchHeld s.ev.sub = false → exec .fetchAtHome s = .next
      (s.l1Fetch s.ev.obj (s.ev.sub / 128) (s.ev.sub / 64 % 2) 0)) ∧
    (s.isRemote s.ev.sub = false → s.ev.sub % 64 + s.ev.bytes.length ≤ 64 → s.homes = [] → s.msc = [] → s.mscB = [] → s.tests = [] →
      Completes (exec .writeAtHome s) (fun t => ∀ j, Memory.byte t.mem j =
        if s.ev.sub ≤ j ∧ j < s.ev.sub + s.ev.bytes.length then s.ev.bytes.getD (j - s.ev.sub) 0 else Memory.byte s.mem j)) ∧
    (∀ pt w, s.home s.ev.obj = h → h.pt = some pt → pt ≤ s.time → h.queue = [w] → w.tx = false → w.row = 0 →
      w.due ≤ s.time → s.isRemote (s.ev.obj * 128) = false →
      exec .holdRelease s = .next ((s.setHome { h with pt := none, queue := [] }).perform s.ev.obj w w.due)) ∧
    (s.txLines s.ev.obj = [h] → exec .txCommitPerform s = .next (s.releaseHold h.line)) ∧
    (s.page? s.ev.sub s.ev.val.toNat = some p → Completes (exec .pageWalk s) (fun t =>
      { t with tlb := s.tlb, tlb1 := s.tlb1 } = s ∧
      ∀ (l l' : List (Nat × Page)) (n : Nat), (l = s.tlb ∧ l' = t.tlb ∧ n = 2048 ∨ l = s.tlb1 ∧ l' = t.tlb1 ∧ n = 64) →
        let mine := l.filter (fun (x : Nat × Page) => x.1 == s.ev.obj)
        (l.contains (s.ev.obj, p) = true → l' = l) ∧
        (l.contains (s.ev.obj, p) = false → mine.length < n → l' = l ++ [(s.ev.obj, p)]) ∧
        (∀ x, l.contains (s.ev.obj, p) = false → n ≤ mine.length → mine.head? = some x →
          l' = l.filter (fun (y : Nat × Page) => y != x) ++ [(s.ev.obj, p)]))) ∧
    (s.page? s.ev.obj s.ev.val.toNat = some p → s.l1 = [] → s.pageInUse p = false →
      exec .tlbInvalidate s = .next { s with
        invals := s.invals.filter (· != (s.ev.obj, s.ev.val.toNat))
        pages := s.pages.filter (· != p)
        tlb := s.tlb.filter (fun (x : Nat × Page) => x.2 != p)
        tlb1 := s.tlb1.filter (fun (x : Nat × Page) => x.2 != p) }) ∧
    (∀ t, s.retention s.ev.obj = .active t → s.arrayBusy s.ev.obj = false → t + s.idle ≤ s.time →
      exec .retentionIdleExpire s = .next (s.setRetention s.ev.obj (.entering (s.ticks + reencodeTicks s.ev.obj) false))) ∧
    (∀ t, s.retention s.ev.obj = .entering t false → t ≤ s.ticks →
      exec .reencodeDone s = .next ((s.reencodeErrors s.ev.obj).setRetention s.ev.obj .retained)) ∧
    (∀ t, s.retention s.ev.obj = .entering t true → t ≤ s.ticks →
      exec .reencodeDone s = .next ((s.reencodeErrors s.ev.obj).setRetention s.ev.obj
        (.leaving (s.ticks + reencodeTicks s.ev.obj)))) ∧
    (∀ t, s.retention s.ev.obj = .leaving t → t ≤ s.ticks →
      exec .reencodeDone s = .next ((s.reencodeErrors s.ev.obj).setRetention s.ev.obj (.active s.time)).releasePins) ∧
    (∀ link, link = (s.ev.obj, min s.ev.sub s.ev.aux, max s.ev.sub s.ev.aux) → s.meshDown.contains link = false →
      Completes (exec .linkMeshFail s) (fun t => t.meshDown = s.meshDown ++ [link] ∧ SameMemory s t ∧ t.groups = s.groups))

/-! ### Events of sequencers, copies and the barrier tree (09, 10, 13) -/

/-- 10 R203 to R212, 13 R251, R254 to R264: the ends of block loads, `MMA`s and stores; copies; phases of route tags. The values of
the tile that an `MMA` leaves are exact sums rounded as assumption logs 86 and 87 say, and when an `MST` is added to its object is
the model's reading (log 35). -/
def Obligations.EngineEvents : Prop :=
  ∀ (s : State) (t : Team) (q : Sequencer) (c : Copy),
    let id := s.ev.obj
    exec .sequencerIssue s = .next { s with agenda := .seq id :: s.agenda } ∧
    (∀ m r e, s.team? id = some t → s.seq? id = some q → q.mma = m :: r → (s.cores.getD t.core {}).array = some (id, e) →
      e ≤ s.ticks →
      let b := (q.slotAt (4 + m.b)).rows.map (rowElems (q.slotAt (4 + m.b)).fmt m.ftz)
      let out := mmaTile { mode := Mode.ofCode m.mode, ftz := m.ftz } (q.aElems m) b (q.tile m.t).c
      let q1 := { q with mma := r, flg := q.flg ||| out.2, skips := q.skips + zeroCount (q.aElems m) }
      let q2 := q1.modTile m.t (fun x => { x with c := out.1 })
      let q3 := if m.ka then q2 else q2.modSlot m.a (fun _ => emptySlot)
      let q4 := if m.kb then q3 else q3.modSlot (4 + m.b) (fun _ => emptySlot)
      let s1 := (s.clearSlots id ((if m.ka then [] else [m.a]) ++ (if m.kb then [] else [4 + m.b]))).modSeq id (fun _ => q4)
      exec .mmaRetire s = .next
        ({ s1 with cores := modAt (fun (c : Core) => { c with array := none }) s1.cores t.core }.releasePins.feedArray t.core)) ∧
    (∀ base stride a, s.team? id = some t → s.seq? id = some q → (q.slotAt s.ev.sub).loading = some (base, stride) →
      let len := rowLen (q.slotAt s.ev.sub).fmt
      let lines := linesOf (rowStarts base stride) len
      (lines.map (fun ln => arrayOf t.die (ln * 128))).eraseDups = [a] → (∃ u, s.retention a = .active u) → s.poison = [] → s.tests = [] →
      s.vheld = [] → s.arrivals = [] →
      let rows := (rowStarts base stride).map (fun x => s.vaultBytes t.die x len)
      exec .blockLoadPerformed s = .next ((s.setRetention a (.active s.time)).modSeq id (fun q =>
        q.modSlot s.ev.sub (fun sl => { sl with loading := none, rows := rows, pins := lines })))) ∧
    (∀ m : MstCount, s.msts.find? (fun (m : MstCount) => m.team == id && !s.mstHeldBy m.num) = some m →
      exec .mstPerformed s = .next (if m.object = 0 then { s with msts := s.msts.erase m }
        else { s with msts := s.msts.erase m }.vaultWrite
          { die := m.die, team := some id, op := .add m.object false m.bytes })) ∧
    (s.team? id = some t → s.canForm t = true → s.copies = [] →
      let c := t.copyOf s.serial t.slices
      let fills := c.status == 0 && c.dspc == 1
      let s1 := ({ s with serial := s.serial + 1 }.passCopy t.slices).modTeam t.id (fun t =>
        let t := { t with slices := [], copySeq := (t.copySeq + 1) % 2 ^ 16 }
        if fills then c.lines.foldl (fun (t : Team) ln => t.beginFill ln) t else t)
      exec .copyForm s = .next { s1 with copies := s1.copies ++ [{ c with filling := fills }] }) ∧
    exec .copyTurn s = .next (((((s.copyTurn id).copyTurn id).copyTurn id).copyTurn id)) ∧
    (s.copy? id = some c → c.spilled = false → s.copyOver c = true → c.filling = false →
      (s.copies.filter (fun (x : Copy) => x.spilled)) = [] →
      (∀ s2, s.copyCount c = (none, s2) → exec .copyEnd s = .next s2) ∧
      (∀ n s2, s.copyCount c = (some n, s2) → s2.copies = s.copies →
        let s1 := c.slices.foldl (fun s (sl : Slice) => s.modGroup sl.gid (fun g =>
          (lanesOf sl.lanes).foldl (fun g i => g.deliver i sl.serial [w64 (c.seq * 2 ^ 16 + n)]) g)) s2
        exec .copyEnd s = .next { s1 with copies := s1.copies.filter (fun (y : Copy) => y.id != c.id) })) ∧
    (∀ (x : RouteTag) u, s.tag? id s.ev.sub = some x → x.due = some u → u ≤ s.ticks →
      Completes (exec .treePhaseComplete s) (fun t => ∃ y, t.tag? id s.ev.sub = some y ∧
        y.phase = x.phase + 1 ∧ y.arrived = [] ∧ y.due = none ∧ y.holder = x.holder)) ∧
    ((s.tag? id s.ev.sub).bind (·.holder) = none → Completes (exec .treeTagWithdraw s) (fun t =>
      ∀ y, t.tag? id s.ev.sub = some y → y.withdrawn = true)) ∧
    (∀ n k, (s.tag? id s.ev.sub).bind (·.holder) = some (n, k) →
      let here := fun (y : RouteTag) => y.die == id && y.tag == s.ev.sub
      exec .treeTagWithdraw s = .next
        ({ s with tags := updWhere here (fun y => { y with withdrawn := true }) s.tags }.abortLaunch id n 7))

/-! ### Launches, the pool and the deadline scheduler (08, 15, 16) -/

/-- 15 R270 to R289, 16 R290 to R294, 08 R163, R165: a front end's events. The order of equals (assumption log 45), the cores kept for a
launch at risk (log 90) and a pool's ring in memory (log 91) are the model's choice. -/
def Obligations.FrontEndEvents : Prop :=
  ∀ (s : State) (l : Launch),
    let die := s.ev.obj
    (∀ bs s1, s.ev.bytes = [] → s.ev.val.toNat % 64 = 0 → s.tenantRead s.ev.sub s.ev.val.toNat 128 = (some bs, s1) →
      exec .launchTake s = .next (s1.takeLaunch s.ev.sub s.ev.aux bs).2) ∧
    (∀ pr pb cb s1 s2 s3, s.tenantRead s.ev.sub s.ev.val.toNat 64 = (some pr, s1) →
      s1.tenantRead s.ev.sub (fieldAt pr 0 8) 128 = (some pb, s2) → s2.tenantRead s.ev.sub (fieldAt pr 8 8) 128 = (some cb, s3) →
      fieldAt pr 0 8 % 64 = 0 → fieldAt pr 8 8 % 64 = 0 →
      exec .pairTake s = .next (s3.takePair s.ev.sub s.ev.aux pr pb cb)) ∧
    (∀ s1, s.launches = [l] → l.die = die → s.hasUnit l = true → (s.exhausted die l.tenant && s.poolFits die) = false →
      s.serve (l, s.nextDeadline l) = some s1 →
      exec .teamPlace s = .next { s1 with reserves := s1.reserves.filter (fun (y : Reserve) => !(y.die == die && y.launch == l.num)) }) ∧
    (∀ r rest k b, s.launch? die s.ev.sub = some l → l.ring = r :: rest → l.die = die → l.num = s.ev.sub →
      (s.poolEntries l).any (fun o => l.desc.code + w64 o == r.code) = true →
      (List.range 64).find? (fun k => ((s.bins.getD die []).getD k .free).keyed l.num r) = some k →
      ((s.bins.getD die []).getD k .free).store l.num r = some b →
      exec .poolRecordBin s = .next ({ s with bins := modAt (fun l => setAt l k b) s.bins die }.modLaunch die l.num
        (fun l => { l with ring := rest }))) ∧
    (∀ n code p r rs, (s.bins.getD die []).getD s.ev.sub .free = .bound false n code p (r :: rs) → die < s.bins.length →
      r.time + s.poolAge die ≤ s.time → Completes (exec .poolBinAgeDue s) (fun t =>
        (t.bins.getD die []).getD s.ev.sub .free = .bound true n code p (r :: rs))) ∧
    (∀ c core sp s1, s.dueBins die = [c] → (s.exhausted c.l.die c.l.tenant && s.unitFits c.l.die) = false →
      s.pickCore c.l.die c.l.need (s.closedTo (s.binUnit c)) = some (core, sp) →
      s.coresAwake [core] = (true, s1) → exec .poolGroupForm s = .next ((s1.formGroup c core sp).dropReserve c.l)) ∧
    exec .budgetRefill s = .next (s.modBudget die s.ev.sub (fun b => { b with left := 8 * b.b })) ∧
    exec .budgetExhausted s = .next (s.modBudget die s.ev.sub (fun b => { b with left := 0 })) ∧
    (∀ cores ts, s.launches = [l] → l.die = die → s.atRisk l = true → s.reserves = [] → s.victimSet l [] = some (cores, ts) →
      exec .atRiskTest s = .next ({ s with
        reserves := [({ die := die, launch := l.num, cores := cores } : Reserve)]
        groups := s.groups.map (fun (g : Group) => if ts.any (fun (t : Team) => t.id == g.team) then { g with preempt := true } else g) }.push
          (ts.filterMap (fun (t : Team) =>
            (s.groups.find? (fun (g : Group) => g.team == t.id)).map (fun (g : Group) => evWork .groupPreempt g.id))))) ∧
    (1 ≤ s.ev.aux → s.ev.aux ≤ 10000 →
      let same : Hint → Bool := fun h => h.die == die && h.peer == s.ev.sub
      let old := ((s.hints.find? same).map (fun h => h.t)).getD 0
      let s1 := { s with
        hints := s.hints.filter (fun h => !same h) ++ [({ die := die, peer := s.ev.sub, t := max old (s.time + s.ev.aux) } : Hint)] }
      exec .stallHint s = .next { s1 with
        groups := s.groups.map (fun (g : Group) => { g with hint := s1.hintOf g })
        hints := s1.hints.filter (fun (h : Hint) => s.time < h.t) }) ∧
    (∀ (g : Group) (h : Hint), s.hints = [h] →
      s.hintOf g = if h.die = dieOfCore g.core ∧ s.oldestTarget g = some h.peer ∧ s.time < h.t then h.t else 0) ∧
    (s.launch? die s.ev.sub = some l → l.after = none → l.spliced = false → l.stage = 0 → s.launchIdle l = true →
      s.launchQuiet l = true → l.splice = none →
      let s1 := s.modLaunch l.die l.num (fun l => { l with ended := true, stage := 1, endT := s.time })
      let l1 := (s1.launch? l.die l.num).getD l
      exec .launchComplete s = .next ((s1.releaseText l1).writeCompletion l1)) ∧
    (s.launch? die s.ev.sub = some l → l.after.isSome = true → l.spliced = false → s.awaitsProducer l = false →
      let s1 := s.modLaunch l.die l.num (fun l => { l with after := none })
      (l.isPool = false ∨ l.status.isSome = true → exec .consumerDeferredTake s = .next s1) ∧
      (∀ bs s2, l.isPool = true → l.status = none →
        s1.tenantRead l.tenant l.desc.initrec.toNat (32 * l.desc.count) = (some bs, s2) →
        exec .consumerDeferredTake s = .next (s2.openRing l (recordsOf bs s2.time l.desc.count)))) ∧
    (∀ g t0 t, s.group? s.ev.obj = some g → s.team? g.team = some t0 →
      let whole := (s.clusterOf t0).map (fun (x : Team) => x.id)
      let mine := (s.groups.filter (fun (x : Group) => whole.contains x.team)).map (fun (x : Group) => x.id)
      let s1 := mine.foldl State.stopGroup s
      s1.team? g.team = some t →
      let s2 := if s1.seqDrained t then (s1.modTeam t.id (fun t => { t with seq := t.seq.map Sequencer.unpin })).releasePins else s1
      exec .groupPreempt s = .next (if s2.teamDrained (s2.team t.id) then s2.saveTeam (s2.team t.id) else s2)) ∧
    (∀ v core sp s1, s.saved.find? (fun (x : Saved) => x.team.id == s.ev.obj) = some v →
      s.launch? v.team.die v.team.launch = some l → l.clusterSize ≤ 1 → s.savedOk v l = true →
      s.pickCore l.die (v.need l) [] = some (core, sp) → s.coresAwake [core] = (true, s1) →
      exec .groupRestore s = .next (s1.restoreTeam v core sp))

/-! ### Row commands, textures, cameras and encoding (11, 18, 20) -/

/-- 18 R329 to R346: the life of a row command; its port, refreshes, and the failure of a stack. When a refresh
falls due is the model's (assumption log 26), and so is which accesses are pending at a row boundary (assumption log 11). -/
def Obligations.RowCommandEvents : Prop :=
  ∀ (s : State) (c : RowCmd),
    let id := s.ev.obj
    let enters := s.modRow id (fun (c : RowCmd) => { c with st := RowState.entered })
    let bank := (s.ev.obj * 64 + s.ev.sub) * 16 + s.ev.aux
    let held := s.rows.any (fun c => c.st == .run && c.worked && c.held.contains bank)
    (∀ c', s.row? id = some c → c.st = .reading → s.canEnter c = true → enters.row? id = some c' → c'.st = .entered →
      exec .rowCmdEnter s = .next (if enters.canStart c' then enters.startRow id else enters)) ∧
    (s.row? id = some c → c.st = .entered → s.canStart c = true → exec .rowCmdEnter s = .next (s.startRow id)) ∧
    (s.row? id = some c → c.st = .run → c.worked = false → exec .rowStep s = .next (s.rowWork id)) ∧
    (isRowOp c.op = false → s.row? id = some c →
      s.rowWork id = { s.modRow id (fun x => { x with worked := true, held := s.heldBanks c, since := s.ticks, isOpen := false }) with
        agenda := .row id :: s.agenda }) ∧
    (s.row? id = some c → c.st = .run → c.worked = true → isRowOp c.op = true →
      let s1 := (s.shadowRow (s.runsD c.tenant (c.d + 2048 * c.next) 2048)).modRow id (fun x =>
        { x with next := x.next + 1, fill := x.work })
      exec .rowStep s = .next (if c.next + 1 = c.rows then s1.rowDone id 0 else s1.rowBoundary id)) ∧
    (s.row? id = some c → c.st = .run → c.worked = true → isRowOp c.op = false →
      (∀ st, c.endsAs = some st → exec .rowStep s = .next (s.rowDone id st)) ∧
      (c.endsAs = none → exec .rowStep s = .next (s.rowBoundary id))) ∧
    (∀ n, s.row? id = some c → c.st = .yield n →
      (6 ≤ n ∨ s.askedFor c = false → exec .rowSlotEnd s = .next (s.rowResume id)) ∧
      (n < 6 → s.askedFor c = true → Completes (exec .rowSlotEnd s) (fun t =>
        ∃ c', t.row? id = some c' ∧ c'.st = .yield (n + 1) ∧ c'.endAt = c.endAt + 128 ∧ c'.next = c.next))) ∧
    (s.row? id = some c → c.st = .refresh → exec .rowRefreshDone s = .next (s.rowResume id)) ∧
    exec .rowCommandEnd s = .next (s.endRow id) ∧
    (held = true → Completes (exec .refreshDue s) (fun t =>
      Sparse.get 0 t.postponed bank = Sparse.get 0 s.postponed bank + 1 ∧
      (∀ b, b ≠ bank → Sparse.get 0 t.postponed b = Sparse.get 0 s.postponed b) ∧ { t with postponed := s.postponed } = s)) ∧
    (held = false → exec .refreshDue s = .next s) ∧
    (∀ (t : Team) (q : Nat) (e : QEntry) (r : List QEntry), s.team? s.ev.obj = some t → s.preempting t.id = false →
      s.portHeld t = false → t.bound? 7 = some q → (t.queue q).entries = e :: r → (t.queue q).waiters = [] →
      Completes (exec .rowCmdPortTake s) (fun u => ∃ c : RowCmd, u.rows = s.rows ++ [c] ∧ c.team = t.id ∧
        c.op = e.val.toNat % 64 ∧ c.queue = q ∧ c.st = .reading ∧ c.port ≠ none)) ∧
    (s.rows = [c] → s.rowStack c = some s.ev.obj → (c.st = .run ∨ c.st = .refresh) →
      exec .stackFailure s = .next (s.rowDone c.id 5)) ∧
    (s.rows = [] → exec .stackFailure s = .next s)

/-- 11 R232, 20 R359 to R365: the texture port, the sensor back end, the folds of frames and the encode sessions. The frame
counters at a close (assumption log 40), a fold that ignores a page which is not mapped (log 41), when the entries of a splat count
as taken (log 42) and the pace at which an encoder works off its line buffer (log 75) are the model's. -/
def Obligations.TexturePortCamerasAndSessions : Prop :=
  ∀ s : State,
    (∀ (t : Team) (q : TexReq) (w : W64), s.team? s.ev.obj = some t →
      s.tex.find? (fun (x : TexReq) => x.team == t.id) = some q → q.wait = false → q.stat = some w →
      exec .textureRequestServe s = .next (s.finishTex t q w)) ∧
    (∀ (t : Team) (q : TexReq), s.team? s.ev.obj = some t → s.tex = [q] → q.team = t.id → q.wait = false → q.stat = none →
      q.failed = 0 → t.texbase = 0 → exec .textureRequestServe s = .next
        ((s.writeRecord q [] (texStatus q 1 0 [])).finishTex t { q with stat := some (texStatus q 1 0 []) }
          (texStatus q 1 0 []))) ∧
    (∀ sp : Splat, s.splats.find? (fun (x : Splat) => x.die == s.ev.obj) = some sp → exec .splatApply s = .next
      ((({ s with splats := s.splats.erase sp }.modCamera sp.camera (fun c => c.applyAt sp s.time)).complete sp.gid s.time).engineDone
        sp.team sp.queue sp.taken)) ∧
    (∀ (t : Team) (q : Nat) (e : QEntry) (s1 : State), s.team? s.ev.obj = some t → s.preempting t.id = false →
      t.bound? 8 = some q → s.engineTake t.id q true = some (e, s1) → (s1.team t.id).splat = [] →
      exec .splatPortEntry s = .next (s1.modTeam t.id (fun t => { t with splat := [e] }))) ∧
    (∀ c : Camera, s.camera? s.ev.obj = some c → c.cen = true → c.desc.lastClose c.frame ≤ s.time → 2 ≤ c.frame →
      s.developing c (c.frame - 2) = true → exec .frameClose s = .next (s.modCamera c.num (fun x =>
        ({ x.zeroSet c.frame with
           frame := c.frame + 1
           framedrop := satInc x.framedrop }).reconfigure s.time))) ∧
    (∀ c : Camera, s.camera? s.ev.obj = some c → c.cen = true → c.desc.lastClose c.frame ≤ s.time → c.frame < 2 →
      c.next = none → Completes (exec .frameClose s) (fun t => ∃ c', t.camera? s.ev.obj = some c' ∧
        c'.frame = c.frame + 1 ∧ c'.splats = 0 ∧ c'.gapdrop = 0 ∧
        ∃ f, c'.folds = c.folds ++ [f] ∧ f.frame = c.frame ∧ f.splats = c.splats)) ∧
    (∀ (c : Camera) (x : Fold) (r : List Fold), s.camera? s.ev.obj = some c → c.folds = x :: r → x.at_ ≤ s.time →
      s.originQueued (foldMark c.num x.frame) = false →
      let va := x.desc.frec + 64 * (x.frame % 2)
      let s1 := (s.tenantWrite c.tenant va (x.record c.num s.time)).2.modCamera c.num (fun c => { c with folds := r })
      (s1.homeRead c.tenant x.desc.devdesc 128 = none → exec .foldEnd s = .next s1) ∧
      (∀ tm, s1.homeRead c.tenant x.desc.devdesc 128 = some tm →
        let s2 := s1.homeLoads c.tenant x.desc.devdesc 128
        let bs := developDesc tm va (s2.time + x.desc.devdl)
        exec .foldEnd s = .next (s2.push [.event .launchTake
          { obj := (bs.getD 0x1D 0).toNat % 2, sub := c.tenant, bytes := bs, nats := [c.num, x.frame] }]))) ∧
    (∀ (x : Session) (team q : Nat) (e : QEntry) (s1 : State),
      s.sessions.find? (fun (x : Session) => x.num == s.ev.obj) = some x → x.publish = [] →
      ((s.publishRing x).workOff x).encSource x.num = some (team, q) →
      ((s.publishRing x).workOff x).engineTake team q false = some (e, s1) → x.entries.length + 1 < x.frameEntries →
      Completes (exec .encLineTake s) (fun t => ∃ y, t.sessions.find? (fun (x : Session) => x.num == s.ev.obj) = some y ∧
        y.entries = x.entries ++ [e.val] ∧ y.frame = x.frame))

/-! ### Host queues and packets (21) -/

/-- 21 R368 to R375: the packets of the host queues, the watchdog and the halts. A camera or a session is granted by what firmware
has done (assumption log 22), and the numbers of the halt codes are free values (assumption log 21). -/
def Obligations.HostPacketsTakeEffect : Prop :=
  ∀ (s s1 : State) (q : HostQueue),
    let pk := s.packet q
    let desc : Subject := { sub := q.tenant, val := w64 (fieldAt pk 8 8), aux := q.num + 1 }
    let a := fieldAt pk 8 8
    (∀ u, PacketHere s q 1 u → s.checkDesc q a = (none, s1) → s1.barred q pk = false →
      exec .pktLaunch s = .next ({ s1 with agenda := .event .launchTake desc :: s1.agenda }.packetDone q pk)) ∧
    (∀ u, PacketHere s q 1 u → s.checkDesc q a = (none, s1) → s1.barred q pk = true →
      exec .pktLaunch s = .next (s1.queueWait q pk)) ∧
    (∀ u h, PacketHere s q 1 u → s.checkDesc q a = (some h, s1) → exec .pktLaunch s = .next (s1.haltQueue q h)) ∧
    (∀ u pr s2 s3, PacketHere s q 2 u → capAllows q.qdata 1 a 64 = true → s.tenantRead q.tenant a 64 = (some pr, s2) →
      s2.checkDesc q (fieldAt pr 0 8) = (none, s3) → s3.checkDesc q (fieldAt pr 8 8) = (none, s1) → s1.barred q pk = false →
      exec .pktPair s = .next ({ s1 with agenda := .event .pairTake desc :: s1.agenda }.packetDone q pk)) ∧
    (∀ u pa, PacketHere s q 3 u → capAllows q.qdata 2 a 8 = true → a % 8 = 0 → s.resolveAccess q.tenant a true = (true, s1) →
      s1.barred q pk = false → s1.translate q.tenant a .write = .ok pa →
      let op := if fieldAt pk 24 8 == 0 then WriteOp.store ((List.range 8).map (fun i => (pa + i, pk.getD (16 + i) 0)))
        else .atom pa 0 2 (w64 (fieldAt pk 16 8))
      let s2 := s1.writeAtHome (pa / 128) { op := op, origin := q.mark }
      let queued := (s2.home (pa / 128)).queue.any (fun w => w.origin == q.mark)
      (queued = false → exec .pktSignal s = .next (s2.packetDone q pk)) ∧
      (queued = true → exec .pktSignal s =
        .next (s2.modQueue q.num (fun q => { q with st := .run, now := some pk, busy := some (pa / 128) })))) ∧
    (∀ line pk', s.queue? s.ev.obj = some q → q.busy = some line → q.now = some pk' →
      exec .pktSignal s =
        .next (if (s.home line).queue.any (fun w => w.origin == q.mark) then s else s.packetDone q pk')) ∧
    (∀ u bs s2, PacketHere s q 4 u → capAllows q.qdata 1 a 8 = true → a % 8 = 0 →
      s.resolveAccess q.tenant a false = (true, s1) → s1.barred q pk = false → s1.tenantRead q.tenant a 8 = (some bs, s2) →
      exec .pktWait s = .next (if waitCond (fieldAt pk 24 1) (w64 (leVal bs)) (w64 (fieldAt pk 16 8)) || !q.seen.isEmpty
        then s2.packetDone q pk else s2.queueWait q pk)) ∧
    (∀ u bs s2, PacketHere s q 4 u → capAllows q.qdata 1 a 8 = true → a % 8 = 0 →
      s.resolveAccess q.tenant a false = (true, s1) → s1.barred q pk = true → s1.tenantRead q.tenant a 8 = (some bs, s2) →
      let v := w64 (leVal bs)
      exec .pktWait s = .next ((if waitCond (fieldAt pk 24 1) v (w64 (fieldAt pk 16 8))
        then s2.modQueue q.num (fun q => { q with seen := q.seen ++ [v] }) else s2).queueWait q pk)) ∧
    (∀ u l, PacketHere s q 5 u → s.barred q pk = false → s.launch? (fieldAt pk 16 8) a = some l → l.spliced = false →
      l.tenant = q.tenant → l.ended = false → s.endsNow l = false →
      exec .pktKill s = .next ((s.abortLaunch l.die l.num 9).packetDone q pk)) ∧
    (∀ u, PacketHere s q 5 u → s.barred q pk = false → s.launch? (fieldAt pk 16 8) a = none →
      exec .pktKill s = .next (s.packetDone q pk)) ∧
    (∀ u bs rb s2, PacketHere s q 6 u → capAllows q.qdata 1 (fieldAt pk 16 8) 104 = true →
      s.tenantRead q.tenant (fieldAt pk 16 8) 104 = (some bs, s1) → Sparse.get 0 s1.grants (fieldAt pk 8 1) = q.tenant + 1 →
      cameraDescOk q.tenant bs = true →
      let d := CameraDesc.ofBytes bs
      s1.tenantRead q.tenant d.resp (4 * (d.c * d.s)) = (some rb, s2) →
      s.cameraPacket q pk = (some (d, fieldAt bs 5 1 % 2 == 1, wordsOf rb), s2)) ∧
    (∀ u x d cen resp s2 c, PacketHere s q 6 u → capAllows q.qdata 1 (fieldAt pk 16 8) 104 = true →
      s.cameraPacket q pk = (some x, s1) → s1.barred q pk = false → s1.cameraPacket q pk = (some (d, cen, resp), s2) →
      s2.camera? (fieldAt pk 8 1) = some c → c.cen = true →
      exec .pktCamera s = .next ((s2.modCamera (fieldAt pk 8 1) (fun c => { c with next := some (d, cen, resp) })).packetDone q pk)) ∧
    (∀ u, PacketHere s q 6 u → capAllows q.qdata 1 (fieldAt pk 16 8) 104 = true → s.cameraPacket q pk = (none, s1) →
      exec .pktCamera s = .next (s1.haltQueue q .argBad)) ∧
    (∀ u, PacketHere s q 7 u → capAllows q.qdata 2 (fieldAt pk 32 8) (fieldAt pk 40 8) = true → s.barred q pk = false →
      Sparse.get 0 s.grants (256 + fieldAt pk 8 1) = q.tenant + 1 →
      sessionOk (fieldAt pk 16 2) (fieldAt pk 18 2) (fieldAt pk 40 8) = true →
      let y : Session :=
        { num := fieldAt pk 8 1, tenant := q.tenant, hevc := fieldAt pk 9 1 % 2 == 1, w := fieldAt pk 16 2,
          h := fieldAt pk 18 2, camera := fieldAt pk 10 1, encdl := fieldAt pk 24 8, ring := fieldAt pk 32 8,
          bytes := fieldAt pk 40 8 }
      exec .pktSession s = .next (({ s with sessions := s.sessions.filter (fun (z : Session) =>
        z.num != fieldAt pk 8 1) ++ [y] }.openRingOf y).packetDone q pk)) ∧
    (∀ t, s.queue? s.ev.obj = some q → q.st = .wait t → s.qwdog ≠ 0 → t + 8 * s.qwdog ≤ s.ticks →
      exec .queueWatchdog s = .next (s.haltQueue q .watchdog)) ∧
    (s.queue? s.ev.obj = some q → q.live = true → q.now = none → q.busy = none → packetUses (fieldAt pk 0 1) = none →
      exec .pktLaunch s = .next (s.haltQueue q .unknownOp)) ∧
    (s.queue? s.ev.obj = some q → q.live = true → q.now = none → q.busy = none → (∃ u, packetUses (fieldAt pk 0 1) = some u ∧
      packetReservedOk 1 u pk = false) → fieldAt pk 0 1 = 1 → exec .pktLaunch s = .next (s.haltQueue q .reservedNz))

/-! ### The host link (21, 22) -/

/-- 21 R369 to R372, R377, R380 to R386, 00 R5: an accepted message of the operator takes its effect and is acknowledged.
The fields of the record of a discarded write are the model's choice (assumption log 82), and so is that a write which no rule
assigns changes nothing (assumption log 58). -/
def Obligations.OperatorMessages : Prop :=
  ∀ (s : State) (x : Ehps), Accepted s x → x.role = .operator → s.step = .ready →
    let n := s.ev.obj
    let ack := fun (t : State) (reply : List Byte) => (Host.Outcome.next (t.acked x s.ev.ehp.seq reply) : Result)
    (n < 2 ^ 20 → 4 ≤ s.ev.aux → s.ev.aux ≤ 20 → s.ev.val.toNat % (64 * 2 ^ s.ev.aux) = 0 → s.queue? n = none →
      let (at_, s1) := s.drawWord
      let q : HostQueue :=
        { num := n, tenant := s.ev.sub, log2 := s.ev.aux,
          ringCap := { tag := true, otype := 1, perm := 1, len := 64 * 2 ^ s.ev.aux, base := s.ev.val.toNat }
          stateCap := { tag := true, otype := 2, perm := 3, len := 64, base := at_.toNat }
          qdata := { s.ev.cap with tag := true, otype := 0 } }
      exec .qctlCreate s = ack { s1 with queues := s.queues ++ [q] } []) ∧
    exec .qctlResume s = ack (s.modQueue n (fun q =>
      if q.st == .halted then
        { q with
          st := if q.ri == q.wi then .empty else .run
          seen := []
          now := if q.busy.isSome then q.now else none }
      else q)) [] ∧
    exec .qctlDestroy s = ack { s with queues := s.queues.filter (fun (q : HostQueue) => q.num != n) } [] ∧
    (∀ q, s.queue? n = some q → q.ri ≤ s.ev.val.toNat → s.ev.val.toNat ≤ q.ri + 2 ^ q.log2 →
      exec .doorbell s = ack (s.modQueue q.num (fun y =>
        { y with
          wi := s.ev.val.toNat
          st := if y.st == .empty && y.ri < s.ev.val.toNat then .run else y.st })) []) ∧
    (∀ q, s.queue? n = some q → q.ri + 2 ^ q.log2 < s.ev.val.toNat →
      exec .doorbell s = ack (s.haltQueue q .indexBad) []) ∧
    (∀ p, portAt n = some p → exec .mread s = ack s
      (leOf 8 (((s.ports.find? (fun (y : Port) => y.num == p)).map (fun y => y.status s.ticks (s.relayBit y))).getD 0))) ∧
    (∀ p, portAt n = some p → s.ev.val &&& portReserved ≠ 0 →
      exec .mwrite s = ack (s.report { sev := 1, src := 11 }) []) ∧
    (∀ p, portAt n = some p → s.ev.val &&& portReserved = 0 → exec .mwrite s = ack s []) ∧
    exec .mwrite s = ack (match portAt n, settingAt n with
      | some _, _ => if s.ev.val &&& portReserved ≠ 0 then s.report { sev := 1, src := 11 } else s
      | none, some r => s.setSetting r s.ev.val.toNat
      | none, none => s) [] ∧
    (∀ v, s.setSetting .plim v = (if 1200 ≤ v ∧ v ≤ 2600 then { s with plim := v } else s) ∧
      s.setSetting .idle v = (if 1000 ≤ v ∧ v ≤ 1000000000 then { s with idle := v } else s) ∧
      (v < 2 ^ 16 → s.setSetting .leaselen v = (if 64 ≤ v then { s with leaselen := w64 v } else s))) ∧
    exec .mwriteWarmStart s = ack { s with agenda := s.agenda ++ [.event .warmStart {}] } [] ∧
    (∀ i t, s.running = some i → s.trialAt = some t → (s.slots.getD i {}).st = .trial → s.ticks ≤ t + 4800000000000 →
      let old := s.slots.map (fun (y : BootSlot) => if y.st == .current then { y with st := .old } else y)
      let slots := modAt (fun y => { y with st := .current }) old i
      exec .mwriteBootConfirm s = ack { s with slots := slots, trialAt := none } []) ∧
    (s.debugOf n = none → exec .debugAttach s = ack { s with debugs := s.debugs ++ [(s.ev.ehp.session, n)] } []) ∧
    (∀ y, s.debugOf n = some y → s.debugs.contains (s.ev.ehp.session, n) = false →
      exec .debugAttach s = ack { s.detach n with debugs := (s.detach n).debugs ++ [(s.ev.ehp.session, n)] } []) ∧
    exec .debugDetach s = ack (s.detach n) [] ∧
    (s.delivered.contains n = true → exec .debugResume s =
      ack ({ s with delivered := s.delivered.filter (· != n) }.resumeTrap n s.ev.pcs) []) ∧
    (s.delivered.contains n = false → exec .debugResume s = ack s []) ∧
    (s.delivered.contains n = true → exec .debugEndGrid s = ack (s.endDelivered n) []) ∧
    (s.delivered = [] → s.detach n = { s with debugs := s.debugs.filter (fun y => y.2 != n) }) ∧
    exec .image s = ack (s.writeImage n s.ev.bytes) []

/-- 21 R379 to R384: frames and messages that are dropped, acknowledgements and their repeats, RDMA from the host, and
the SPDM responder. -/
def Obligations.HostLinkAndSpdm : Prop :=
  ∀ (s : State) (x : Ehps),
    let n := s.ev.obj
    exec .droppedFrame s = .next (if frameAccepted s.ev.bytes then s else if isPfc s.ev.bytes then s.pfc s.ev.bytes
      else { s with frames := s.frames + 1 }) ∧
    (9216 < s.ev.bytes.length → exec .droppedFrame s = .next { s with frames := s.frames + 1 }) ∧
    (s.session? s.ev.ehp.session = none → exec .image s = .next { s with dropped := s.dropped + 1 }) ∧
    (∀ e : Event, s.session? s.ev.ehp.session = some x → x.admits s.ev.ehp s.ev.bytes = true → s.events = [e] →
      e.session = s.ev.ehp.session → e.seq = s.ev.ehp.seq → exec .ack s = .next { s with events := [] }) ∧
    (s.session? s.ev.ehp.session = none → exec .ack s = .next { s with dropped := s.dropped + 1 }) ∧
    (∀ e : Event, s.events = [e] → e.seq = n → e.session = s.ev.sub → e.last + 8000000 ≤ s.ticks → e.sent ≤ 64 →
      Completes (exec .eventRetransmit s) (fun t => t.events = [{ e with sent := e.sent + 1, last := s.ticks }] ∧
        t.outbox = s.outbox ++ [.event e.session e.seq e.body])) ∧
    (∀ e : Event, s.events = [e] → e.seq = n → e.session = s.ev.sub → e.last + 8000000 ≤ s.ticks → 64 < e.sent →
      exec .eventRetransmit s = .next { s with events := [] }) ∧
    (∀ r t s1, s.hostQps.contains s.ev.aux = true → s.region? n s.ev.val.toNat s.ev.bytes.length true = some r →
      s.tenantWrite r.tenant s.ev.val.toNat s.ev.bytes = (some t, s1) →
      exec .rdmaWrite s = .next { s1 with outbox := s1.outbox ++ [.rdma []] }) ∧
    (∀ r bs s1, s.hostQps.contains s.ev.aux = true → s.region? n s.ev.val.toNat s.ev.sub false = some r →
      s.tenantRead r.tenant s.ev.val.toNat s.ev.sub = (some bs, s1) →
      exec .rdmaRead s = .next { s1 with outbox := s1.outbox ++ [.rdma bs] }) ∧
    (s.hostQps.contains s.ev.aux = true → s.region? n s.ev.val.toNat s.ev.bytes.length true = none →
      exec .rdmaWrite s = .next { s with outbox := s.outbox ++ [.nak] }) ∧
    (∀ i, s.session? s.ev.ehp.session = some x → s.ev.ehp.clean = true → s.step = .ready → s.ev.bytes.length ≤ 8192 →
      (∀ y ∈ x.seqs, y.1 ≠ s.ev.ehp.seq) → x.top < s.ev.ehp.seq + 1024 → spdmRequest (fieldAt s.ev.bytes 1 1) = some i →
      i ≠ .keyExchange → Completes (exec .ehpSpdm s) (fun t => ∃ w, t.agenda = .event i w :: s.agenda ∧
        w.obj = s.ev.ehp.session ∧ w.ehp = s.ev.ehp ∧ w.bytes = s.ev.bytes ∧ t.outbox = s.outbox)) ∧
    (∀ (code : Nat) (body : List Byte), ∃ v, (s.spdmReply code body).outbox =
      s.outbox ++ [.ack s.ev.ehp.session s.ev.ehp.seq ([v, BitVec.ofNat 8 code, 0, 0] ++ body)]) ∧
    (s.session? n = some x →
      exec .getVersion s = .next ((s.modEhp n (fun x =>
        { x with
          version := true
          caps := false
          algs := false })).spdmReply 0x04 ([0, 2] ++ leOf 2 0x1200 ++ leOf 2 0x1300)) ∧
      (x.version = true → ∃ e s1, (s.modEhp n (fun x => { x with caps := true })).drawWord = (e, s1) ∧
        exec .getCapabilities s = .next (s1.spdmReply 0x61 (capabilities (e.setWidth 8)))) ∧
      (x.caps = true → exec .negotiateAlgorithms s = .next
        ((s.modEhp n (fun x => { x with algs := true })).spdmReply 0x63 algorithms)) ∧
      (x.algs = true → exec .getDigests s = .next (s.spdmFree 0x01) ∧ exec .getCertificate s = .next (s.spdmFree 0x02) ∧
        exec .challenge s = .next (s.spdmFree 0x03) ∧
        ∃ sig s1, s.drawBytes 1868 = (sig, s1) ∧ exec .getMeasurements s = .next (s1.spdmReply 0x60 (s1.measurements ++ sig))) ∧
      (x.version = false → x.keyed = false → exec .getCapabilities s = .next s.spdmError) ∧
      (x.keyed = true → exec .keyUpdate s = .next ((s.modEhp n (fun x => { x with updates := x.updates + 1 })).spdmReply 0x69 []) ∧
        (s.delivered = [] → Completes (exec .endSession s) (fun t => t.session? n = none ∧
          (∀ y ∈ t.debugs, y ∈ s.debugs ∧ y.1 ≠ n) ∧ ∀ e ∈ t.events, e.session ≠ n))) ∧
      (x.keyed = false → n ≠ 0 → s.ev.flag = true → Completes (exec .finish s) (fun t => ∃ y, t.session? n = some y ∧
        y.keyed = true ∧ y.role = x.role ∧ capIs y.key 5 = true))) ∧
    (s.session? n = none → n ≠ 0 → (s.ehp.any (fun (x : Ehps) => x.num == 0 && x.algs)) = true →
      Completes (exec .keyExchange s) (fun t => ∃ y, t.session? n = some y ∧ y.role = s.ev.role ∧ y.keyed = false))

/-! ### Firmware (08, 21) -/

/-- 09 R187, 15 R288, 21 R376 to R378, R387, R388: faults, held groups, firmware calls, failures and targeted tests.
Which partition a failure names is a free value (assumption log 66); whether a test passes is a free value (assumption log 97). -/
def Obligations.FirmwareEvents : Prop :=
  ∀ (s : State) (g : Group),
    (∀ e r, s.faultq.getD s.ev.obj [] = e :: r → exec .faultResolve s = .next
      (({ s with faultq := setAt s.faultq s.ev.obj r }.resolveEntry s.ev.obj e).fillFaults)) ∧
    (∀ r, s.faultq.getD s.ev.obj [] = .group g.id :: r → s.group? g.id = some g → g.stopped = true → g.cause ≠ 6 →
      g.cause ≠ 7 → s.debugs = [] → exec .faultResolve s = .next
      (({ s with faultq := setAt s.faultq s.ev.obj r }.unhandled g).fillFaults)) ∧
    (∀ t, s.held.find? (fun x => x.1 == s.ev.obj) = some (s.ev.obj, t) → s.anyGroup? s.ev.obj = some g →
      s.resynced g = false → t + 80000000000 ≤ s.ticks →
      exec .syncHoldTimeout s = .next ({ s with held := s.held.filter (fun y => y.1 != s.ev.obj) }.unhandled g)) ∧
    (∀ i svc dst a, s.group? s.ev.obj = some g → g.wait = .fwcall (1#32 <<< i) svc dst false 0 [a] → i < 32 → dst < 255 →
      s.drained g.id = true → s.engineOwes g.id = false → (∀ l ∈ g.lanes, l.back ≤ s.ticks) → svc ≠ 0 → svc ≠ 0x10 →
      s.services.contains svc = false → Completes (exec .fwcallAnswer s) (fun t => (t.group g.id).wait = .none ∧
        (t.group g.id).readG i dst = 0xFFFFFFFF ∧ (t.group g.id).readG i (dst + 1) = 0xFFFFFFFF ∧
        ∀ c, c.isReg = true → c ≠ .g dst → c ≠ .g (dst + 1) → (t.group g.id).readCell i c = g.readCell i c)) ∧
    (∀ i dst a, s.group? s.ev.obj = some g → g.wait = .fwcall (1#32 <<< i) 0 dst false 0 [a] → i < 32 → dst < 255 →
      s.drained g.id = true → s.engineOwes g.id = false → (∀ l ∈ g.lanes, l.back ≤ s.ticks) →
      Completes (exec .fwcallAnswer s) (fun t => (t.group g.id).wait = .none ∧
        (t.group g.id).readG i dst = w32 s.svn ∧ (t.group g.id).readG i (dst + 1) = Config.fwVersion)) ∧
    (s.teams = [] → Completes (exec .coreStructureUncorrectable s) (fun t => t.launches = s.launches ∧ SameMemory s t)) ∧
    (∀ t : Team, s.teams = [t] → t.core = s.ev.obj → t.finished = none → s.tests = [] →
      let d := Config.freeNat s.free
      let s1 := { s with free := s.free + 1 }
      exec .coreStructureUncorrectable s = .next ((s1.abortLaunch t.die t.launch 2).raiseError
        { sev := 1, src := 1, tenant := t.tenant } 1 (s.ev.obj * 4 + d % 4))) ∧
    (∀ x : PendingTest, s.tests.find? (fun (x : PendingTest) => x.num == s.ev.obj) = some x → s.ev.flag = true → x.lasting = false →
      (x.kind = 1 → s.partGroups x.loc = []) →
      let mine := fun (e : ErrorRec) => e.src == testSource x.kind && e.loc == x.loc && e.result == 0
      exec .targetedTestDone s = .next { s with
        tests := s.tests.filter (fun (y : PendingTest) => y.num != x.num)
        errors := updWhere mine (fun e => { e with result := 1, action := 0 }) s.errors })

/-- 21 R385, R386, R389: starts, trials and power. A start takes the slots in the order `TRIAL`, `CURRENT`, `OLD`, from
the reset state with what the part keeps; what of it the rules do not name is the model's choice (assumption log 61). -/
def Obligations.StartsAndPower : Prop :=
  ∀ s : State,
    exec .coldStart s = .next ((s.failTrial.restarted false).boot false (bootOrder (s.failTrial.restarted false).slots)) ∧
    exec .warmStart s = .next ((s.failTrial.restarted true).boot true (bootOrder (s.failTrial.restarted true).slots)) ∧
    (let t := s.restarted false
     t.mem = [] ∧ t.vault = [] ∧ t.groups = [] ∧ t.teams = [] ∧ t.launches = [] ∧ t.queues = [] ∧ t.stopped = false ∧
     t.slots = s.slots ∧ t.retired = s.retired) ∧
    (∀ i warm, s.step = .starting i warm → bootOrder s.slots = [i] → exec .startTimeout s = .next
      { s with
        slots := slotFailed s.slots i
        step := .recovery
        running := none }) ∧
    (∀ t, s.trialAt = some t → t + 4800000000000 ≤ s.ticks →
      exec .trialConfirmTimeout s = .next { s with trialAt := none }) ∧
    (s.avg.length < 100 → (∀ d, s.ev.nats.getD d 0 ≤ 105) → s.plim * 1000 * (s.avg.length + 1) ≥ (s.avg ++ [s.ev.obj]).sum →
      s.gate = [0, 0] → Completes (exec .powerSample s) (fun t => t.avg = s.avg ++ [s.ev.obj] ∧ t.gate = [0, 0] ∧
        t.agenda = s.agenda)) ∧
    Completes (exec .overtempStop s) (fun t => t.stopped = true ∧ SameMemory s t)

/-! ### The fabric (22) -/

/-- 22 R392 to R405: links and their keys, requests of other modules, congestion hints and the scale-out ports. -/
def Obligations.FabricEvents : Prop :=
  ∀ (s : State) (p : Port) (q : QueuePair) (r : RemoteReq),
    let tx := s.ev.flag
    exec .linkDown s = .next (s.modPort s.ev.obj (fun p =>
      { p with
        up := false
        downAt := if p.up then s.ticks else p.downAt
        fails := 0 })).reroute ∧
    exec .linkUp s = .next (s.modPort s.ev.obj (fun p =>
      { p with
        up := true
        fast := tx && p.num < 30
        peer := s.wiredPeer p.num
        rev := BitVec.ofNat 8 s.ev.aux
        fails := 0
        tx := { since := s.ticks, bank0 := true }
        rx := { since := s.ticks, bank0 := true } })).reroute ∧
    (s.port? s.ev.obj = some p → p.up = true → p.rx.holds s.ev.flag = true → s.ev.flag2 = true →
      let s1 := s.modPort p.num (fun p =>
        { p with
          fails := 0
          rx := { p.rx with fseq := p.rx.fseq + 1, word := (BitVec.ofBool s.ev.flag) ++ BitVec.ofNat 31 p.rx.fseq } })
      exec .flitReceive s = .next (((s.ev.reqs.filter (fun r => s1.isRemote r.addr)).foldl (fun s r => s.forward p.num r) s1).push
        ((s.ev.reqs.filter (fun r => !s1.isRemote r.addr)).map (fun r => .event .remoteRequest { reqs := [r] })))) ∧
    (s.port? s.ev.obj = some p → p.up = true → (p.rx.holds s.ev.flag && s.ev.flag2) = false →
      Completes (exec .flitReceive s) (fun t => (∃ p', t.port? s.ev.obj = some p' ∧ p'.fails = p.fails + 1) ∧
        t.agenda = s.agenda ++ (if p.fails < 16 then [] else [evWork .linkDown p.num]))) ∧
    (s.port? s.ev.obj = some p → (p.dir tx).st = .installed → Completes (exec .rekeyInstallAck s) (fun t =>
      ∃ p', t.port? s.ev.obj = some p' ∧ p'.dir (!tx) = p.dir (!tx) ∧ p'.dir tx =
        { p.dir tx with
          kg := !(p.dir tx).g
          since := s.ticks
          from_ := (p.dir tx).fseq
          st := .switched })) ∧
    (s.port? s.ev.obj = some p → (p.dir tx).st = .switched → Completes (exec .rekeyOldAcked s) (fun t =>
      ∃ p', t.port? s.ev.obj = some p' ∧ (p'.dir tx).st = .steady ∧ (p'.dir tx).g = !(p.dir tx).g ∧
        (p'.dir tx).holds (p.dir tx).g = false)) ∧
    (s.port? s.ev.obj = some p → (p.dir tx).st = .steady → Completes (exec .rekeyDue s) (fun t =>
      ∃ p', t.port? s.ev.obj = some p' ∧ (((p'.dir tx).st = .installed ∧ (p'.dir tx).holds (!(p.dir tx).g) = true) ∨
        ((p'.dir tx).st = .steady ∧ (p'.dir tx).retry = some (s.ticks + 8000000000))))) ∧
    (∀ t, s.port? s.ev.obj = some p → (p.dir tx).retry = some t → t ≤ s.ticks →
      exec .rekeyRetry s = .next (s.rekey s.ev.obj tx)) ∧
    (∀ b : Backlog, s.port? s.ev.obj = some p → s.backlogs.find? (fun (b : Backlog) => b.port == s.ev.obj && b.target == s.ev.sub) = some b →
      (b.since + 16000 ≤ s.ticks → b.hint.all (fun t => t + 40000 ≤ s.ticks) = true → Completes (exec .backlogHint s) (fun t =>
        (∃ b', t.backlogs.find? (fun (b : Backlog) => b.port == s.ev.obj && b.target == s.ev.sub) = some b' ∧ b'.hint = some s.ticks) ∧
        t.agenda = s.agenda ++ [evWork .stallHint (Config.portDie p.num % 2) s.ev.sub
          (max 1 (min 10000 (640 * s.backlog s.ev.obj s.ev.sub * 4 / (if p.fast then 448 else 425))))])) ∧
      (s.ticks < b.since + 16000 → exec .backlogHint s = .next s)) ∧
    (∀ rs, s.ev.reqs = r :: rs → s.tagsSeen = [] → s.synced = true → s.exported r = false →
      Completes (exec .remoteRequest s) (fun t => t.answers = s.answers ++ [(r.src, r.tag, .refused 0x02)] ∧
        t.tagsSeen = [(r.src, r.tag, s.ticks)] ∧ SameMemory s t)) ∧
    (∀ rs n, s.ev.reqs = r :: rs → s.tagsSeen = [(r.src, r.tag, n)] → s.ticks < n + 800000 → exec .remoteRequest s = .next s) ∧
    (∀ rs, s.ev.reqs = r :: rs → (∀ x ∈ s.tagsSeen, (x.1, x.2.1) ≠ (r.src, r.tag)) → s.synced = true → s.exported r = true →
      s.poison = [] → s.inbox = [] → 4 ≤ RemoteReq.size r → RemoteReq.size r ≤ 256 →
      let s1 := { s with tagsSeen := s.tagsSeen.filter (fun (x : Nat × Nat × Nat) => s.ticks < x.2.2 + 800000) ++ [(r.src, r.tag, s.ticks)] }
      let write := fun (op : WriteOp) => s1.writeAtHome (r.addr / 128) { op := op, reply := some (r.src, r.tag) }
      (∀ k, r.op = .load k → (∀ ln ∈ RemoteReq.lines r, s.fetchHeld (ln * 128) = false) → Completes (exec .remoteRequest s) (fun t => ∃ e,
        t.answers = s.answers ++ [(r.src, r.tag, .lease (s.homeBytes r.addr k) e)] ∧ SameMemory s t)) ∧
      (∀ k, r.op = .load k → (∃ ln ∈ RemoteReq.lines r, s.fetchHeld (ln * 128) = true) → exec .remoteRequest s = .next { s1 with inbox := [r] }) ∧
      (∀ bs, r.op = .store bs → r.addr % 128 + bs.length ≤ 128 → exec .remoteRequest s = .next
        (write (.store ((List.range bs.length).map (fun i => (r.addr + i, bs.getD i 0)))))) ∧
      (∀ op ty v, r.op = .atom op ty v → (op.toNat < 7 ∨ ty.toNat < 2) → exec .remoteRequest s = .next (write (.atom r.addr op.toNat ty.toNat v))) ∧
      (∀ wide c v, r.op = .cas wide c v → exec .remoteRequest s = .next (write (.cas r.addr wide c v))) ∧
      (r.op = .join → exec .remoteRequest s = .next (write (.dec r.addr))) ∧
      (∀ op ty v, r.op = .atom op ty v → op = 7 → 2 ≤ ty.toNat → exec .remoteRequest s = .next (s1.answer r .unsupported)) ∧
      (r.op = .other → exec .remoteRequest s = .next (s1.answer r .unsupported))) ∧
    (∀ rs, s.ev.reqs = r :: rs → s.tagsSeen = [] → s.synced = true → s.exported r = true → (RemoteReq.size r < 4 ∨ 256 < RemoteReq.size r) →
      exec .remoteRequest s = .next ({ s with tagsSeen := [(r.src, r.tag, s.ticks)] }.answer r .unsupported)) ∧
    (s.qps.find? (fun (q : QueuePair) => q.num == s.ev.obj) = some q →
      (s.ev.val.toNat - q.prod ≤ 2 ^ q.log2 →
        exec .scaleoutDoorbell s = .next (s.startRequests q.num (s.ev.val.toNat - q.prod))) ∧
      (∀ x l k, q.error = false → q.started = x :: l → s.qpPort q.num = some k → fieldAt x.bytes 0 8 = 1 →
        exec .workRequestComplete s = .next ((s.modQp q.num (fun q =>
          { q with
            cons := q.cons + 1
            started := q.started.drop 1
            wrote := none })).signalAt q.tenant (fieldAt x.bytes 0x20 8))) ∧
      (q.error = false → s.qpPort q.num = none → exec .workRequestComplete s = .next s) ∧
      (q.error = false → q.started ≠ [] → exec .remoteErrorNak s = .next (s.qpError q)))

/-! ### The machine -/

/-- 02 R28, R42, Table 2-8, 10 R203, 18 R342: a step takes the head of the agenda. Lanes that are ready at an address whose
words decode to an instruction that names registers within the budgets run exactly that instruction: these lanes yield no longer
(09 R175), their due windows are retired, the fetch's translation is used (15 R287) and the times of its results noted (05 R408); a sequencer runs the instruction of the word at its program counter,
a row program the step at `RPC`, and an event its constructor; with nothing to do a step is a core cycle. That the
events of the module and what happens from outside stand on an agenda is the model's (assumption log 69, 74). -/
def Obligations.StepRunsDecodedInstruction : Prop :=
  ∀ (s : State) (r : List Work), s.stopped = false →
    let s0 := { s with agenda := r }
    (∀ (gid : Nat) (pc : W64) (ls : W32) (g : Group) (i : Instr) (w0 : W32) (ws : List W32), s.agenda = .lane gid pc ls :: r →
      s0.group? gid = some g → g.canIssue s.time = true → (s0.readyAt g true pc).filter (inMask ls) ≠ [] →
      s0.fetchWord g.core g.tenant pc.toNat = .ok w0 →
      s0.fetchWords g.core g.tenant (pc.toNat + 4) (formWords w0 - 1) = (ws, none) → decodeWords (w0 :: ws) = .ok i →
      rangeTrap i g.n g.m = none → g.eccDetail ((s0.readyAt g true pc).filter (inMask ls)) i = none →
      let lanes := (s0.readyAt g true pc).filter (inMask ls)
      let retired := fun (g : Group) => lanes.foldl (fun (g : Group) (j : Nat) =>
        g.retire j (endsWindow i (g.readP j (instrGuard i).1 != (instrGuard i).2))) g
      let cur : Cur := { gid := gid, pc := pc, size := 4 * (w0 :: ws).length, lanes := maskOf lanes.contains,
                         words := w0 :: ws, team := g.team }
      let s1 := { (s0.modGroup gid (fun g => g.noteIssue pc lanes)).modGroup gid retired with cur := cur }
      step s = exec i (State.timeResults (s1.useTlb g.core g.tenant pc.toNat) i)) ∧
    (∀ (id : Nat) (t : Team) (q : Sequencer) (w : W32) (i : Instr) (s1 : State), s.agenda = .seq id :: r →
      s0.team? id = some t → t.seq = some q → (q.st = .running ∨ q.st = .blocked) → s0.preempting id = false →
      s0.underTest 6 (t.core * 4 + q.slot) = false → s0.textHeld t.tenant q.pc = false → s0.fetchSeq t q.pc.toNat = .ok (w, s1) → decodeSeq w = .ok i →
      step s = exec i { s1 with cur := { team := id, pc := q.pc, size := 4, words := [w] } }) ∧
    (∀ (id : Nat) (c : RowCmd) (i : Instr), s.agenda = .row id :: r → s0.row? id = some c → c.st = .run →
      let w := c.steps.getD (s0.near c.stack c.pch).rpc 0
      decodeStep w = some i → step s = exec i { s0 with cur := { team := c.team, cmd := id, size := 4, words := [w] } }) ∧
    (∀ (i : Instr) (x : Subject), s.agenda = .event i x :: r → step s = exec i { s0 with ev := x, cur := {} }) ∧
    (∀ x : Happening, s.agenda = .outside x :: r → step s = .next (({ s0 with ev := {}, cur := {} } : State).happen x)) ∧
    (s.agenda = [] → step s = exec .issueCycle { s with ev := {}, cur := {} })

/-- 21 R389: every step gives a next state, unless the over-temperature stop holds the module; no step is refused. -/
def Obligations.EveryStepGoesOnUnlessStopped : Prop :=
  ∀ s : State, (∃ t, step s = .next t) ∨ (s.stopped = true ∧ step s = .fault .moduleStopped)

/-- 00 R4, R8, R11, 11 Table 11-1, 13 R248, 15 Table 15-3, 21 R372, R389: the state right after reset, its memory in canonical
form and every byte of it zero. That the count and the settings stand at their reset values is the rules'; that the 1588
source is absent, and that firmware has mapped nothing, is the model's choice (assumption log 2). -/
def Obligations.ResetState : Prop :=
  let s := State.reset
  s.canonical ∧ (∀ a, Memory.byte s.mem a = 0) ∧ (∀ a, Memory.byte s.vault a = 0) ∧ s.time = 0 ∧ s.tstat = .unlocked ∧
    s.agenda = [] ∧ s.groups = [] ∧ s.teams = [] ∧ s.saved = [] ∧ s.launches = [] ∧ s.l1 = [] ∧ s.homes = [] ∧ s.pages = [] ∧
    s.leaselen = 1000 ∧ s.poolage = [2000, 2000] ∧ s.idle = 20000 ∧ s.qwdog = 10000000000 ∧ s.plim = 2600 ∧
    s.nextLaunch = [1, 1] ∧ s.cores.length = 192 ∧ s.ports.all (fun p => !p.up) = true ∧ s.stopped = false ∧ s.step = .ready

/-- Every step keeps the global memory and the vaults in their canonical form: addresses rising, and no zero byte listed. -/
def Obligations.StepsKeepGlobalAndVaultMemoryCanonical : Prop :=
  ∀ s t : State, s.canonical → step s = .next t → t.canonical

/-- 02 Tables 2-2, 2-6, 2-7, 10 Table 10-8, 18 Table 18-7: decoding the words of a well-formed instruction gives it back,
with every operand at every value that its encoding admits. -/
def Obligations.DecodeInvertsEncode : Prop :=
  ∀ i : Instr, i.wellFormed = true →
    (i.stream = .lane → decodeWords (encode i) = .ok i) ∧
    (i.stream = .sequencer → ∃ w, encode i = [w] ∧ decodeSeq w = .ok i) ∧
    (i.stream = .rowProgram → ∃ w, encode i = [w] ∧ decodeStep w = some i)

/-- 02 R32, R40, 03 R56, 05 R76, 07 R125, 10 Table 10-8, 18 R329: fourteen words that the spec writes out decode to the instructions
they stand for. -/
def Obligations.WordsOfTheSpecDecode : Prop :=
  decodeWords [0xA081481A, 0x000860C0] = .ok (.ffma
    { as := false, dst := 10, sa := 4, sb := 5, sc := 6, gp := 3, gn := true, la := 0, mod := 0, lit := none }) ∧
  decodeWords [0x00042009, 0x00070E12] = .ok (.p64Pair false
    { op := .iadd, dst := 8, src := 1, gp := 0, gn := false, mod := 0 }
    { op := .and, dst := 14, src := 7, gp := 0, gn := false, mod := 0 }) ∧
  decodeWords [0x00241C80] = .ok (.faddC32 { as := false, dst := 7, src := 9, gp := 0, gn := false, mod := 0 }) ∧
  decodeWords [0x00628803, 0x00000000, 0x3FC00000] = .ok (.fadd
    { as := false, dst := 20, sa := 3, sb := 0, sc := 0, gp := 0, gn := false, la := 0, mod := 0, lit := some 0x3FC00000 }) ∧
  decodeWords [0xA080600A, 0x0C000000] = .ok (.iadd
    { as := false, dst := 3, sa := 4, sb := 5, sc := 0, gp := 0, gn := false, la := 0, mod := 0x0C, lit := none }) ∧
  decodeWords [0x00815402, 0x04200002] = .ok (.ldG
    { as := false, dst := 10, sa := 4, sb := 0x10, sc := 0, gp := 0, gn := false, la := 2, mod := 4, lit := none }) ∧
  decodeWords [0x01029D02, 0x00000000] = .ok (.rowCopy
    { as := false, dst := 20, sa := 8, sb := 0, sc := 0, gp := 0, gn := false, la := 0, mod := 0, lit := none }) ∧
  decodeSeq 0x04411801 = .ok (.mma 2 1 3 true false) ∧ decodeSeq 0x0C011800 = .ok (.mlda 0 1 3) ∧
  decodeSeq 0x2080FFFC = .ok (.mloop 4 0xFFFC) ∧ decodeSeq 0x30000800 = .ok (.mwait 0 2) ∧
  decodeSeq 0x24030000 = .ok .mbraStop ∧ decodeSeq 0x10453000 = .ok (.mldb 2 5 6) ∧
  decodeStep 0x20008000 = some (.macb 0 0 2)
end

