-- ==== Sys2Proof/Laws/Sparse.lean ====
section
/-! SUPPORT. Reading and writing sparse lists, and the canonical form of memory: every operation of
`Machine/Sparse.lean` keeps it. -/

namespace Sys2Proof.Machine

open Sys2Proof

variable {α : Type}

theorem Sparse.get_drop_same (d : α) (m : Sparse α) (k : Nat) : Sparse.get d (Sparse.drop m k) k = d := by
  induction m with
  | nil => rfl
  | cons x r ih =>
    obtain ⟨k', v'⟩ := x
    by_cases h : k = k' <;> simp [Sparse.drop, Sparse.get, h]
    · exact h ▸ ih
    · exact ih

theorem Sparse.get_drop_ne (d : α) (m : Sparse α) {j k : Nat} (h : j ≠ k) :
    Sparse.get d (Sparse.drop m k) j = Sparse.get d m j := by
  induction m with
  | nil => rfl
  | cons x r ih =>
    obtain ⟨k', v'⟩ := x
    by_cases hk : k = k'
    · subst hk; simp [Sparse.drop, Sparse.get, h, ih]
    · simp [Sparse.drop, Sparse.get, hk, ih]

variable [DecidableEq α]

/-- A key just written reads as what was written. -/
@[simp] theorem Sparse.get_put_same (d : α) (m : Sparse α) (k : Nat) (v : α) : Sparse.get d (Sparse.put d m k v) k = v := by
  induction m with
  | nil => by_cases h : v = d <;> simp [Sparse.put, Sparse.get, h]
  | cons x r ih =>
    obtain ⟨k', v'⟩ := x
    unfold Sparse.put
    split
    · rename_i h; simp [Sparse.get, Nat.ne_of_gt h, ih]
    · split
      · rename_i h; subst h; exact Sparse.get_drop_same ..
      · split
        · simp [Sparse.get]
        · simp [Sparse.get]

/-- A write leaves every other key alone. -/
theorem Sparse.get_put_ne (d : α) (m : Sparse α) {j k : Nat} (v : α) (h : j ≠ k) :
    Sparse.get d (Sparse.put d m k v) j = Sparse.get d m j := by
  induction m with
  | nil => by_cases hv : v = d <;> simp [Sparse.put, Sparse.get, hv, h]
  | cons x r ih =>
    obtain ⟨k', v'⟩ := x
    unfold Sparse.put
    split
    · simp [Sparse.get, ih]
    · split
      · exact Sparse.get_drop_ne _ _ h
      · split
        · rename_i hk; subst hk; simp [Sparse.get, h]
        · simp [Sparse.get, h]

/-- One lemma for both. -/
theorem Sparse.get_put (d : α) (m : Sparse α) (j k : Nat) (v : α) :
    Sparse.get d (Sparse.put d m k v) j = if j = k then v else Sparse.get d m j := by
  split
  · rename_i h; subst h; simp
  · rename_i h; exact Sparse.get_put_ne _ _ _ h

/-! ### The canonical form -/

theorem Sparse.wfFrom_mono (d : α) {b b' : Nat} {m : Sparse α} (hb : b ≤ b') (h : Sparse.wfFrom d b' m = true) :
    Sparse.wfFrom d b m = true := by
  cases m with
  | nil => rfl
  | cons x r =>
    obtain ⟨k, v⟩ := x
    simp [Sparse.wfFrom] at *
    exact ⟨⟨by omega, h.1.2⟩, h.2⟩

theorem Sparse.wfFrom_drop (d : α) {m : Sparse α} {b : Nat} (k : Nat) (h : Sparse.wfFrom d b m = true) :
    Sparse.wfFrom d b (Sparse.drop m k) = true := by
  induction m generalizing b with
  | nil => rfl
  | cons x r ih =>
    obtain ⟨k', v'⟩ := x
    simp [Sparse.wfFrom] at h
    unfold Sparse.drop
    split
    · exact ih (Sparse.wfFrom_mono d (by omega) h.2)
    · simp [Sparse.wfFrom, h.1]; exact ih h.2

theorem Sparse.wfFrom_put (d : α) {m : Sparse α} {b : Nat} (k : Nat) (v : α) (hk : b ≤ k)
    (h : Sparse.wfFrom d b m = true) : Sparse.wfFrom d b (Sparse.put d m k v) = true := by
  induction m generalizing b with
  | nil => by_cases hv : v = d <;> simp [Sparse.put, Sparse.wfFrom, hv, hk]
  | cons x r ih =>
    obtain ⟨k', v'⟩ := x
    have h0 := h
    simp [Sparse.wfFrom] at h
    unfold Sparse.put
    split
    · rename_i hlt
      simp [Sparse.wfFrom, h.1]; exact ih (by omega) h.2
    · rename_i hge
      split
      · exact Sparse.wfFrom_drop d k h0
      · rename_i hv
        split
        · rename_i he; subst he; simp [Sparse.wfFrom, hk, hv, h.2]
        · rename_i hne; simp [Sparse.wfFrom, hk, hv, h.1.2, h.2]; omega

/-- A write keeps the canonical form. -/
theorem Sparse.wf_put (d : α) {m : Sparse α} (k : Nat) (v : α) (h : Sparse.wf d m = true) :
    Sparse.wf d (Sparse.put d m k v) = true := Sparse.wfFrom_put d k v (Nat.zero_le k) h

theorem Sparse.wfFrom_filter (d : α) (p : Nat × α → Bool) {m : Sparse α} {b : Nat} (h : Sparse.wfFrom d b m = true) :
    Sparse.wfFrom d b (m.filter p) = true := by
  induction m generalizing b with
  | nil => rfl
  | cons x r ih =>
    obtain ⟨k, v⟩ := x
    simp [Sparse.wfFrom] at h
    rw [List.filter_cons]
    split
    · simp [Sparse.wfFrom, h.1, ih h.2]
    · exact ih (Sparse.wfFrom_mono d (by omega) h.2)

/-- Leaving entries out keeps the canonical form. -/
theorem Sparse.wf_filter (d : α) (p : Nat × α → Bool) {m : Sparse α} (h : Sparse.wf d m = true) :
    Sparse.wf d (m.filter p) = true := Sparse.wfFrom_filter d p h

theorem Sparse.get_below (d : α) {m : Sparse α} {b k : Nat} (h : Sparse.wfFrom d b m = true) (hk : k < b) :
    Sparse.get d m k = d := by
  induction m generalizing b with
  | nil => rfl
  | cons x r ih =>
    obtain ⟨k', v⟩ := x
    simp [Sparse.wfFrom] at h
    have hne : k ≠ k' := by omega
    simp [Sparse.get, hne]
    exact ih h.2 (by omega)

theorem Sparse.ext_from (d : α) {m m' : Sparse α} {b : Nat} (h : Sparse.wfFrom d b m = true)
    (h' : Sparse.wfFrom d b m' = true) (he : ∀ k, Sparse.get d m k = Sparse.get d m' k) : m = m' := by
  induction m generalizing m' b with
  | nil =>
    cases m' with
    | nil => rfl
    | cons x r =>
      obtain ⟨k, v⟩ := x
      have := he k
      simp [Sparse.wfFrom] at h'
      simp [Sparse.get] at this
      exact absurd this.symm h'.1.2
  | cons x r ih =>
    obtain ⟨k, v⟩ := x
    have h0 := h; have h0' := h'
    simp [Sparse.wfFrom] at h
    cases m' with
    | nil =>
      have := he k
      simp [Sparse.get] at this
      exact absurd this h.1.2
    | cons x' r' =>
      obtain ⟨k', v'⟩ := x'
      simp [Sparse.wfFrom] at h'
      have hk : k = k' := by
        rcases Nat.lt_trichotomy k k' with hl | heq | hl
        · exfalso
          have := he k
          rw [Sparse.get_below (b := k') (m := (k', v') :: r') d (by simp [Sparse.wfFrom, h'.1.2, h'.2]) hl] at this
          simp [Sparse.get] at this
          exact h.1.2 this
        · exact heq
        · exfalso
          have := he k'
          rw [Sparse.get_below (b := k) (m := (k, v) :: r) d (by simp [Sparse.wfFrom, h.1.2, h.2]) hl] at this
          simp [Sparse.get] at this
          exact h'.1.2 this.symm
      subst hk
      have hv : v = v' := by simpa [Sparse.get] using he k
      subst hv
      congr 1
      refine ih h.2 h'.2 fun j => ?_
      by_cases hj : j = k
      · subst hj
        rw [Sparse.get_below d h.2 (by omega), Sparse.get_below d h'.2 (by omega)]
      · simpa [Sparse.get, hj] using he j

/-- Canonical lists that read alike are equal. -/
theorem Sparse.ext (d : α) {m m' : Sparse α} (h : Sparse.wf d m = true) (h' : Sparse.wf d m' = true)
    (he : ∀ k, Sparse.get d m k = Sparse.get d m' k) : m = m' := Sparse.ext_from d h h' he

/-! ### Memory -/

/-- A byte after a write of one byte. -/
theorem Memory.byte_setByte (m : List Host.Cell) (a j : Nat) (b : Byte) :
    Memory.byte (Memory.setByte m a b) j = if j = a then b else Memory.byte m j := Sparse.get_put ..

theorem Memory.byte_setBytes_out (m : List Host.Cell) (bs : List Byte) (a j : Nat) (h : j < a ∨ a + bs.length ≤ j) :
    Memory.byte (Memory.setBytes m a bs) j = Memory.byte m j := by
  induction bs generalizing m a with
  | nil => rfl
  | cons b bs ih =>
    simp only [Memory.setBytes]
    simp only [List.length_cons] at h
    rw [ih _ _ (by omega), Memory.byte_setByte, if_neg (by omega)]

/-- A byte after a write of consecutive bytes. -/
theorem Memory.byte_setBytes_in (m : List Host.Cell) (bs : List Byte) (a i : Nat) (h : i < bs.length) :
    Memory.byte (Memory.setBytes m a bs) (a + i) = bs.getD i 0 := by
  induction bs generalizing m a i with
  | nil => simp at h
  | cons b bs ih =>
    simp only [Memory.setBytes]
    cases i with
    | zero => rw [Memory.byte_setBytes_out _ _ _ _ (by omega)]; simp [Memory.byte_setByte]
    | succ i =>
      rw [show a + (i + 1) = a + 1 + i by omega, ih _ _ _ (by simpa using h)]
      simp

/-- A byte that no cell of the list names keeps its value. -/
theorem Memory.byte_setCells_out (m : List Host.Cell) (cs : List (Nat × Byte)) (j : Nat) (h : ∀ c ∈ cs, c.1 ≠ j) :
    Memory.byte (Memory.setCells m cs) j = Memory.byte m j := by
  induction cs generalizing m with
  | nil => rfl
  | cons c cs ih =>
    simp only [Memory.setCells]
    rw [ih _ (fun x hx => h x (List.mem_cons_of_mem _ hx)), Memory.byte_setByte,
      if_neg (fun e => h c List.mem_cons_self e.symm)]

/-- Every memory operation keeps the canonical form. -/
theorem Memory.wf_setByte {m : List Host.Cell} (a : Nat) (b : Byte) (h : Memory.wf m = true) :
    Memory.wf (Memory.setByte m a b) = true := Sparse.wf_put _ _ _ h

theorem Memory.wf_setBytes {m : List Host.Cell} (a : Nat) (bs : List Byte) (h : Memory.wf m = true) :
    Memory.wf (Memory.setBytes m a bs) = true := by
  induction bs generalizing m a with
  | nil => exact h
  | cons b bs ih => exact ih _ (Memory.wf_setByte _ _ h)

theorem Memory.wf_setCells {m : List Host.Cell} (cs : List (Nat × Byte)) (h : Memory.wf m = true) :
    Memory.wf (Memory.setCells m cs) = true := by
  induction cs generalizing m with
  | nil => exact h
  | cons c cs ih => exact ih (Memory.wf_setByte _ _ h)

theorem Memory.wf_filter {m : List Host.Cell} (p : Host.Cell → Bool) (h : Memory.wf m = true) :
    Memory.wf (m.filter p) = true := Sparse.wf_filter _ p h

end Sys2Proof.Machine
end

