-- ==== Sys2Proof/Laws/State.lean ====
section
/-! SUPPORT. The state's groups, teams and lanes under the operations that change one of them. -/

namespace Sys2Proof.Machine

open Sys2Proof

/-! ### Lists -/

theorem find_updWhere {α : Type} (p q : α → Bool) (f : α → α) (l : List α) (hf : ∀ x, q (f x) = q x) :
    (updWhere p f l).find? q = (l.find? q).map (fun x => if p x then f x else x) := by
  induction l with
  | nil => rfl
  | cons x r ih =>
    have hx : q (if p x = true then f x else x) = q x := by split <;> simp [hf]
    simp only [updWhere, List.map_cons] at ih ⊢
    rw [List.find?_cons, List.find?_cons, hx]
    cases q x
    · exact ih
    · rfl

theorem getD_modAt {α : Type} (f : α → α) (l : List α) (i j : Nat) (d : α) :
    (modAt f l i).getD j d = if j = i ∧ i < l.length then f (l.getD j d) else l.getD j d := by
  induction l generalizing i j with
  | nil => simp [modAt]
  | cons x r ih =>
    cases i with
    | zero => cases j <;> simp [modAt]
    | succ i =>
      cases j with
      | zero => simp [modAt]
      | succ j => simpa [modAt] using ih i j

theorem length_modAt {α : Type} (f : α → α) (l : List α) (i : Nat) : (modAt f l i).length = l.length := by
  induction l generalizing i with
  | nil => rfl
  | cons x r ih => cases i <;> simp [modAt, ih]

/-! ### Groups -/

/-- The group of a number after a change of that group. -/
theorem State.group?_modGroup (s : State) (id : Nat) (f : Group → Group) (hf : ∀ g, (f g).id = g.id) :
    (s.modGroup id f).group? id = (s.group? id).map f := by
  unfold State.modGroup State.group?
  simp only
  rw [find_updWhere _ _ _ _ (by simp [hf])]
  cases h : s.groups.find? (fun g => g.id == id) with
  | none => rfl
  | some g => have := List.find?_some h; simp_all

/-- Another group is as it was. -/
theorem State.group?_modGroup_ne (s : State) {id j : Nat} (f : Group → Group) (hf : ∀ g, (f g).id = g.id)
    (h : j ≠ id) : (s.modGroup id f).group? j = s.group? j := by
  unfold State.modGroup State.group?
  simp only
  rw [find_updWhere _ _ _ _ (by simp [hf])]
  cases h' : s.groups.find? (fun g => g.id == j) with
  | none => rfl
  | some g =>
    have := List.find?_some h'
    simp at this
    simp [this, h]

@[simp] theorem State.modGroup_rest (s : State) (id : Nat) (f : Group → Group) :
    { s.modGroup id f with groups := s.groups } = s := rfl

theorem State.group_of_group? {s : State} {id : Nat} {g : Group} (h : s.group? id = some g) : s.group id = g := by
  simp [State.group, h]

/-! ### Lanes -/

/-- A lane after a change of a lane. -/
theorem Group.lane_modLane (g : Group) (i j : Nat) (f : Lane → Lane) :
    (g.modLane i f).lane j = if j = i ∧ i < g.lanes.length then f (g.lane j) else g.lane j := getD_modAt ..

/-- A lane that has not ended is one of the group's lanes. -/
theorem Group.lane_lt {g : Group} {i : Nat} (h : (g.lane i).ended = false) : i < g.lanes.length := by
  rcases Nat.lt_or_ge i g.lanes.length with h' | h'
  · exact h'
  · exfalso
    have : g.lane i = { ended := true } := by
      simp [Group.lane, List.getD_eq_getElem?_getD, List.getElem?_eq_none h']
    rw [this] at h
    cases h

@[simp] theorem Group.modLane_id (g : Group) (i : Nat) (f : Lane → Lane) : (g.modLane i f).id = g.id := rfl
@[simp] theorem Group.modLane_g (g : Group) (i : Nat) (f : Lane → Lane) : (g.modLane i f).g = g.g := rfl
@[simp] theorem Group.modLane_w (g : Group) (i : Nat) (f : Lane → Lane) : (g.modLane i f).w = g.w := rfl
@[simp] theorem Group.modLane_p (g : Group) (i : Nat) (f : Lane → Lane) : (g.modLane i f).p = g.p := rfl
@[simp] theorem Group.modLane_k (g : Group) (i : Nat) (f : Lane → Lane) : (g.modLane i f).k = g.k := rfl
@[simp] theorem Group.modLane_j (g : Group) (i : Nat) (f : Lane → Lane) : (g.modLane i f).j = g.j := rfl
@[simp] theorem Group.modLane_length (g : Group) (i : Nat) (f : Lane → Lane) :
    (g.modLane i f).lanes.length = g.lanes.length := length_modAt ..

end Sys2Proof.Machine
end

