-- ==== Sys2Proof/Laws/Cells.lean ====
section
/-! SUPPORT. Register cells under the operations that write one. -/

namespace Sys2Proof.Machine

open Sys2Proof

/-- Whether lane `i`'s write of a cell reaches lane `j`'s cell: a `k` register is one for all lanes, and nothing reaches `p0`. -/
def RCell.hits (i : Nat) (c : RCell) (j : Nat) (c' : RCell) : Bool :=
  match c, c' with
  | .g r, .g r' => decide (j = i ∧ r' = r)
  | .w r e, .w r' e' => decide (j = i ∧ r' = r ∧ e' = e)
  | .p r, .p r' => decide (j = i ∧ r' = r ∧ r ≠ 0)
  | .k r, .k r' => decide (r' = r)
  | _, _ => false

theorem readG_writeG (g : Group) {i j r r' : Nat} (v : W32) (hr : r < 256) (hr' : r' < 256) :
    (g.writeG i r v).readG j r' = if j = i ∧ r' = r then v else g.readG j r' := by
  unfold Group.writeG Group.readG
  rw [Sparse.get_put]
  by_cases h : j = i ∧ r' = r
  · simp [h]
  · rw [if_neg h, if_neg (by omega)]

theorem readW_writeW (g : Group) {i j r r' e e' : Nat} (v : W32) (hr : r < 32) (hr' : r' < 32) (he : e < 8) (he' : e' < 8) :
    (g.writeW i r e v).readW j r' e' = if j = i ∧ r' = r ∧ e' = e then v else g.readW j r' e' := by
  unfold Group.writeW Group.readW
  rw [Sparse.get_put]
  by_cases h : j = i ∧ r' = r ∧ e' = e
  · simp [h]
  · rw [if_neg h, if_neg (by omega)]

theorem readK_writeK (g : Group) (r r' : Nat) (v : W64) : (g.writeK r v).readK r' = if r' = r then v else g.readK r' := by
  unfold Group.writeK Group.readK
  rw [Sparse.get_put]

theorem readP_writeP (g : Group) {i j : Nat} (r r' : Nat) (b : Bool) (hj : j < 32) (hi : i < 32) :
    (g.writeP i r b).readP j r' = if j = i ∧ r' = r ∧ r ≠ 0 then b else g.readP j r' := by
  unfold Group.writeP Group.readP
  by_cases hr : r = 0
  · simp [hr]
  · by_cases hr' : r' = r
    · subst hr'
      simp only [beq_iff_eq, hr, if_false, Sparse.get_put_same]
      by_cases hji : j = i
      · subst hji
        cases b <;> simp [hr, hj]
      · have h1 : (decide (j < i) || !decide (j - i = 0)) = true := by simp; omega
        have h2 : (!decide (j < i) && decide (j - i = 0)) = false := by simp; omega
        cases b
        · simp [hji, hj, h1]
        · simp [hji, hj, h2]
    · simp [hr, hr', Sparse.get_put]

@[simp] theorem Group.readG_modLane (g : Group) (i : Nat) (f : Lane → Lane) (j r : Nat) :
    (g.modLane i f).readG j r = g.readG j r := rfl
@[simp] theorem Group.readW_modLane (g : Group) (i : Nat) (f : Lane → Lane) (j r e : Nat) :
    (g.modLane i f).readW j r e = g.readW j r e := rfl
@[simp] theorem Group.readP_modLane (g : Group) (i : Nat) (f : Lane → Lane) (j r : Nat) :
    (g.modLane i f).readP j r = g.readP j r := rfl
@[simp] theorem Group.readK_modLane (g : Group) (i : Nat) (f : Lane → Lane) (r : Nat) :
    (g.modLane i f).readK r = g.readK r := rfl
@[simp] theorem Group.readCell_modLane (g : Group) (i : Nat) (f : Lane → Lane) (j : Nat) (c : RCell) :
    (g.modLane i f).readCell j c = g.readCell j c := by cases c <;> rfl

/-- A cell after a write of a cell. -/
theorem readCell_writeCell (g : Group) {i j : Nat} (c c' : RCell) (v : W64) (hi : i < 32) (hj : j < 32)
    (hc : c.isReg = true) (hc' : c'.isReg = true) :
    (g.writeCell i c v).readCell j c' = if RCell.hits i c j c' then c.fit v else g.readCell j c' := by
  cases c with
  | g r =>
    cases c' with
    | g r' =>
      simp only [RCell.isReg, decide_eq_true_eq] at hc hc'
      simp only [Group.writeCell, Group.readCell, readG_writeG _ _ hc hc', RCell.hits, RCell.fit, decide_eq_true_eq]
      split <;> rfl
    | _ => simp [RCell.hits]; rfl
  | w r e =>
    cases c' with
    | w r' e' =>
      simp only [RCell.isReg, Bool.and_eq_true, decide_eq_true_eq] at hc hc'
      simp only [Group.writeCell, Group.readCell, readW_writeW _ _ hc.1 hc'.1 hc.2 hc'.2, RCell.hits, RCell.fit,
        decide_eq_true_eq]
      split <;> rfl
    | _ => simp [RCell.hits]; rfl
  | p r =>
    cases c' with
    | p r' =>
      simp only [Group.writeCell, Group.readCell, readP_writeP _ _ _ _ hj hi, RCell.hits, RCell.fit, decide_eq_true_eq]
      split <;> rfl
    | _ =>
      simp only [RCell.hits, Group.writeCell]
      unfold Group.writeP
      split <;> rfl
  | k r =>
    cases c' with
    | k r' =>
      simp only [Group.writeCell, Group.readCell, readK_writeK, RCell.hits, RCell.fit, decide_eq_true_eq]
    | _ => simp [RCell.hits]; rfl
  | q r => simp [RCell.isReg] at hc

/-- `g1` differs from `g` in no more than the registers, the errors that a register written anew has lost, and the order
of the writes to `k` registers. -/
structure Group.SameRest (g g1 : Group) : Prop where
  rest : { g1 with g := g.g, w := g.w, p := g.p, k := g.k, bad := g.bad, kser := g.kser } = g
  bad : ∀ x ∈ g1.bad, x ∈ g.bad

theorem Group.SameRest.refl (g : Group) : g.SameRest g := ⟨rfl, fun _ h => h⟩

theorem Group.SameRest.trans {g g1 g2 : Group} (h1 : g.SameRest g1) (h2 : g1.SameRest g2) : g.SameRest g2 := by
  refine ⟨?_, fun x hx => h1.bad x (h2.bad x hx)⟩
  have := congrArg (fun x : Group => { x with g := g.g, w := g.w, p := g.p, k := g.k, bad := g.bad, kser := g.kser }) h2.rest
  exact this.trans h1.rest

theorem Group.SameRest.id {g g1 : Group} (h : g.SameRest g1) : g1.id = g.id := by
  have := congrArg (fun x : Group => x.id) h.rest
  exact this
theorem Group.SameRest.lanes {g g1 : Group} (h : g.SameRest g1) : g1.lanes = g.lanes := by
  have := congrArg (fun x : Group => x.lanes) h.rest
  exact this
theorem Group.SameRest.tx {g g1 : Group} (h : g.SameRest g1) : g1.tx = g.tx := by
  have := congrArg (fun x : Group => x.tx) h.rest
  exact this

theorem Group.mend_sub (g : Group) (k : Nat) : ∀ x ∈ g.mend k, x ∈ g.bad := fun _ h => (List.mem_filter.1 h).1

/-- A write of a cell leaves the rest of its group. -/
theorem Group.writeCell_rest (g : Group) (i : Nat) (c : RCell) (v : W64) : g.SameRest (g.writeCell i c v) := by
  cases c with
  | g r => exact ⟨rfl, g.mend_sub _⟩
  | w r e => exact ⟨rfl, g.mend_sub _⟩
  | p r =>
    show g.SameRest (g.writeP i r (v != 0))
    unfold Group.writeP
    split
    · exact .refl g
    · exact ⟨rfl, g.mend_sub _⟩
  | k r => exact ⟨rfl, g.mend_sub _⟩
  | q r => exact .refl g

theorem Group.writeNow_rest (g : Group) (i : Nat) (c : RCell) (v : W64) (n : Nat) : g.SameRest (g.writeNow i c v n) := by
  cases c with
  | k r => exact ⟨rfl, g.mend_sub _⟩
  | g r => exact g.writeCell_rest i (.g r) v
  | w r e => exact g.writeCell_rest i (.w r e) v
  | p r => exact g.writeCell_rest i (.p r) v
  | q r => exact g.writeCell_rest i (.q r) v

theorem Group.writeOrdered_rest (g : Group) (i : Nat) (c : RCell) (v : W64) (n : Nat) :
    g.SameRest (g.writeOrdered i c v n) := by
  cases c with
  | k r =>
    show g.SameRest (if n < Sparse.get 0 g.kser r then g else { g.writeK r v with kser := Sparse.put 0 g.kser r n })
    split
    · exact .refl g
    · exact ⟨rfl, g.mend_sub _⟩
  | g r => exact g.writeCell_rest i (.g r) v
  | w r e => exact g.writeCell_rest i (.w r e) v
  | p r => exact g.writeCell_rest i (.p r) v
  | q r => exact g.writeCell_rest i (.q r) v

/-- A write at once is a write of the cell, for every reader. -/
theorem readCell_writeNow (g : Group) (i j : Nat) (c c' : RCell) (v : W64) (n : Nat) :
    (g.writeNow i c v n).readCell j c' = (g.writeCell i c v).readCell j c' := by
  cases c <;> cases c' <;> rfl

end Sys2Proof.Machine
end

