-- ==== Sys2Proof/Laws/Lane.lean ====
section
/-! SUPPORT. What an issue of a lane instruction does when nothing holds it back: one lemma about `laneExec`, and one
about `aluExec`, which every instruction that only computes is an instance of. -/

namespace Sys2Proof.Machine

open Sys2Proof

/-! ### Destination cells -/

theorem orCheck_none {a b : Option Nat} : orCheck a b = none ↔ a = none ∧ b = none := by
  cases a <;> simp [orCheck]

/-- A legal instruction's destination field passes its class's check (02 R42). -/
theorem Full.dst_ok {op : Op} {f : Full} (h : f.illegal op = none) :
    (op.shape f).dst.check (!(op.shape f).nform && f.xd) f.dst.toNat = none := by
  unfold Full.illegal at h
  simp only [orCheck_none] at h
  exact h.2.2.2.2.1

/-- The cells of a destination field are registers that the lane has, if its registers are within the files. -/
theorem destCells_isReg {c : Cls} {ext : Bool} {v : Nat} (hg : ∀ r, Reg.g r ∈ c.regs ext v → r < 256)
    (hw : ∀ r, Reg.w r ∈ c.regs ext v → r < 32) (hok : c.check ext v = none)
    (hq : ∀ n, destCells c ext v ≠ [.q n]) : ∀ x ∈ destCells c ext v, x.isReg = true := by
  cases c with
  | g n a conv =>
    cases ext with
    | true =>
      intro x hx
      simp only [destCells, if_true] at hx hq
      split at hx
      · rename_i hv; simp at hx; subst hx; simpa [RCell.isReg] using hv
      · rename_i hv; rw [if_neg hv] at hq; exact absurd rfl (hq _)
    | false =>
      intro x hx
      simp [destCells] at hx
      obtain ⟨j, hj, rfl⟩ := hx
      have := hg (v + j) (by simpa [Cls.regs] using hj)
      simpa [RCell.isReg] using this
  | p d =>
    intro x hx
    simp [destCells] at hx
    subst hx
    simp [Cls.check] at hok
    simp [RCell.isReg]; omega
  | w n a =>
    intro x hx
    simp [destCells] at hx
    obtain ⟨j, hj, rfl⟩ := hx
    have := hw (v + j / 8) (by simp [Cls.regs]; omega)
    simp [RCell.isReg, this]; omega
  | _ => simp [destCells]

/-- The cells of a destination are registers that the lane has. -/
theorem dest_isReg {s : State} {op : Op} {f : Full} (h : Ready s op f) (hq : noQueue op f) :
    ∀ c ∈ dest op f, c.isReg = true := by
  have hr : ∀ r, r ∈ (op.shape f).dst.regs (!(op.shape f).nform && f.xd) f.dst.toNat →
      r.outside (s.group s.cur.gid).n (s.group s.cur.gid).m = false :=
    fun r hr => h.range r (List.mem_append_right _ hr)
  have hg : ∀ r, Reg.g r ∈ (op.shape f).dst.regs (!(op.shape f).nform && f.xd) f.dst.toNat → r < 256 := by
    intro r hm
    have := hr _ hm
    simp [Reg.outside] at this
    exact Nat.lt_of_lt_of_le this h.budget.1
  have hw : ∀ r, Reg.w r ∈ (op.shape f).dst.regs (!(op.shape f).nform && f.xd) f.dst.toNat → r < 32 := by
    intro r hm
    have := hr _ hm
    simp [Reg.outside] at this
    exact Nat.lt_of_lt_of_le this h.budget.2
  have hall := destCells_isReg hg hw (Full.dst_ok h.legal) (by
    intro n hn; have := hq.2; simp [destQueue, hn] at this)
  by_cases hd : (op.shape f).dw = true
  · by_cases hc : op = .atomCas ∧ f.xd = false
    · obtain ⟨rfl, hx⟩ := hc
      have e : (Op.shape .atomCas f).dst = if f.fam % 2 == 1 then .g 4 4 true else g2 := rfl
      have en : (Op.shape .atomCas f).nform = false := rfl
      have h2 : ∀ r, r = f.dst.toNat ∨ r = f.dst.toNat + 1 → r < 256 := by
        intro r hr'
        apply hg
        rw [e, en, hx]
        split <;> simp [Cls.regs, g2, List.mem_map] <;> rcases hr' with hr' | hr'
        · exact ⟨0, by omega, by omega⟩
        · exact ⟨1, by omega, by omega⟩
        · exact ⟨0, by omega, by omega⟩
        · exact ⟨1, by omega, by omega⟩
      have ed : dest .atomCas f = if f.fam % 2 == 0 then [.g f.dst.toNat] else [.g f.dst.toNat, .g (f.dst.toNat + 1)] := by
        simp [dest, hd, hx]
      rw [ed]
      split <;> simp [RCell.isReg, h2 _ (Or.inl rfl), h2 _ (Or.inr rfl)]
    · have ed : dest op f = destCells (op.shape f).dst (!(op.shape f).nform && f.xd) f.dst.toNat := by
        simp only [dest, hd]
        rw [if_neg (by simp), if_neg (by simpa using hc)]
      rw [ed]; exact hall
  · have ed : dest op f = [] := by simp [dest, hd]
    rw [ed]; simp

/-- No cell occurs twice in a destination. -/
theorem destCells_nodup (c : Cls) (ext : Bool) (v : Nat) : (destCells c ext v).Nodup := by
  cases c with
  | g n a conv =>
    cases ext
    · simp only [destCells]
      exact List.Pairwise.map _ (fun a b h h' => h (by injection h' with h'; omega)) List.nodup_range
    · simp only [destCells, if_true]; split <;> exact List.nodup_cons.2 ⟨by simp, List.nodup_nil⟩
  | p d => simp [destCells]
  | w n a =>
    simp only [destCells]
    exact List.Pairwise.map _ (fun a b h => by simp; omega) List.nodup_range
  | _ => simp [destCells]

theorem dest_nodup (op : Op) (f : Full) : (dest op f).Nodup := by
  unfold dest
  dsimp only
  split
  · simp
  · split
    · split <;> simp
    · exact destCells_nodup ..

theorem zip_fst_sublist {α β : Type} (l : List α) (m : List β) : ((l.zip m).map (·.1)).Sublist l := by
  induction l generalizing m with
  | nil => simp
  | cons x r ih =>
    cases m with
    | nil => simp
    | cons y m => simpa using ih m

/-- The cells that get a value are cells of the destination, each once. -/
theorem destVals_keys (cs : List RCell) (vs : List W64) (hn : cs.Nodup) :
    ((destVals cs vs).map (·.1)).Nodup ∧ ∀ x ∈ destVals cs vs, x.1 ∈ cs := by
  unfold destVals
  split
  · constructor
    · simpa using hn
    · intro x hx
      simp at hx
      rcases hx with rfl | rfl <;> simp
  · constructor
    · exact hn.sublist (zip_fst_sublist _ _)
    · intro x hx
      exact (List.of_mem_zip hx).1

/-! ### Writing the cells of one lane -/

/-- What a lane's cells hold after it wrote several, each once. -/
theorem readCell_foldl (cs : List (RCell × W64)) (g : Group) {i j : Nat} (n : Nat) (c : RCell) (hi : i < 32) (hj : j < 32)
    (hc : c.isReg = true) (hcs : ∀ x ∈ cs, x.1.isReg = true) (hn : (cs.map (·.1)).Nodup) :
    (cs.foldl (fun g x => g.writeNow i x.1 x.2 n) g).readCell j c =
      ((written [i] (fun _ => cs) j c).map c.fit).getD (g.readCell j c) := by
  induction cs generalizing g with
  | nil => cases c <;> simp [written] <;> split <;> simp_all
  | cons x r ih =>
    obtain ⟨c', v⟩ := x
    simp only [List.map_cons, List.nodup_cons, List.mem_cons, forall_eq_or_imp] at hn hcs
    rw [List.foldl_cons, ih _ hcs.2 hn.2, readCell_writeNow, readCell_writeCell _ _ _ _ hi hj hcs.1 hc]
    have hl : r.lookup c' = none := by
      rw [List.lookup_eq_none_iff]
      intro y hy
      have : c' ≠ y.1 := fun e => hn.1 (by rw [e]; exact List.mem_map_of_mem hy)
      simpa using this
    by_cases he : c = c'
    · subst he
      cases c with
      | p n =>
        cases n with
        | zero => simp [written, RCell.hits]
        | succ n =>
          by_cases hji : j = i <;> simp [written, RCell.hits, hl, hji, RCell.fit]
      | k n => simp [written, RCell.hits, hl, RCell.fit]
      | q n => simp [RCell.isReg] at hc
      | _ => by_cases hji : j = i <;> simp [written, RCell.hits, hl, hji, RCell.fit]
    · have hh : RCell.hits i c' j c = false := by
        cases c' <;> cases c <;> simp_all [RCell.hits]
      have hlk : ∀ l : List (RCell × W64), ((c', v) :: l).lookup c = l.lookup c := by
        intro l
        have hb : (c == c') = false := by simpa using he
        simp [List.lookup_cons, hb]
      have hw : written [i] (fun _ => (c', v) :: r) j c = written [i] (fun _ => r) j c := by
        cases c <;> simp [written, hlk]
      rw [hw, hh]; rfl

/-- What an issue writes, one more lane included. -/
theorem written_append (ds : List Nat) (i : Nat) (out : Nat → List (RCell × W64)) (j : Nat) (c : RCell) :
    written (ds ++ [i]) out j c = (written [i] (fun _ => out i) j c).or (written ds out j c) := by
  have h : ∀ x, (if (ds ++ [i]).contains j = true then (out j).lookup x else none) =
      (if [i].contains j = true then (out i).lookup x else none).or
        (if ds.contains j = true then (out j).lookup x else none) := by
    intro x
    by_cases hji : j = i
    · subst hji
      by_cases hd : j ∈ ds <;> simp [hd]
    · simp [hji]
  cases c with
  | k n =>
    simp only [written, List.reverse_append, List.reverse_cons, List.reverse_nil, List.nil_append, List.singleton_append,
      List.findSome?_cons, List.findSome?_nil]
    cases (out i).lookup (.k n) <;> simp
  | p n =>
    cases n with
    | zero => simp [written]
    | succ n => exact h _
  | _ => exact h _

end Sys2Proof.Machine
end

