-- ==== Sys2Proof/Laws/Issue.lean ====
section
/-! SUPPORT. One lemma about `aluExec`: what every instruction that only computes leaves. -/

namespace Sys2Proof.Machine

open Sys2Proof

/-! ### Frames compose -/

theorem SameMemory.refl (s : State) : SameMemory s s := ⟨fun _ => rfl, fun _ => rfl, rfl⟩

theorem OnlyGroup.refl (s : State) : OnlyGroup s s := ⟨rfl, fun _ _ => rfl, SameMemory.refl s⟩

/-- A change of the group that issues changes nothing else. -/
theorem OnlyGroup.modGroup {s t : State} (h : OnlyGroup s t) (f : Group → Group) (hf : ∀ g, (f g).id = g.id) :
    OnlyGroup s (t.modGroup s.cur.gid f) :=
  ⟨h.rest, fun id hne => by rw [State.group?_modGroup_ne _ _ hf hne]; exact h.others id hne,
   ⟨h.memory.mem, h.memory.vault, h.memory.stores⟩⟩

theorem OnlyGroup.cur {s t : State} (h : OnlyGroup s t) : t.cur = s.cur := by
  have := congrArg (fun x : State => x.cur) h.rest
  exact this

/-! ### In the middle of an issue -/

/-- The state after some lanes of an issue have written their results; `g` is the group before the issue, `g1` then. -/
structure Mid (s t : State) (g g1 : Group) (ds : List Nat) (out : Nat → List (RCell × W64)) (fl : Nat → FlagSet) : Prop where
  here : t.group? s.cur.gid = some g1
  cells : ∀ j, j < 32 → ∀ c, c.isReg = true →
    g1.readCell j c = ((written ds out j c).map c.fit).getD (g.readCell j c)
  lanes : ∀ j, g1.lane j = { g.lane j with
    fflags := if ds.contains j then (g.lane j).fflags ||| fl j else (g.lane j).fflags }
  frame : { g1 with g := g.g, w := g.w, p := g.p, k := g.k, bad := g.bad, kser := g.kser, lanes := g.lanes } = g
  errors : ∀ x ∈ g1.bad, x ∈ g.bad
  only : OnlyGroup s t

/-- Writes a lane's cells. -/
def Group.writeCells (g : Group) (i : Nat) (cs : List (RCell × W64)) (n : Nat) : Group :=
  cs.foldl (fun g c => g.writeNow i c.1 c.2 n) g

theorem Group.writeCells_rest (cs : List (RCell × W64)) (g : Group) (i n : Nat) : g.SameRest (g.writeCells i cs n) := by
  unfold Group.writeCells
  induction cs generalizing g with
  | nil => exact .refl g
  | cons x r ih => exact (g.writeNow_rest i x.1 x.2 n).trans (ih _)

/-- One more lane writes its cells. -/
theorem Mid.write {s t : State} {g g1 : Group} {ds : List Nat} {out : Nat → List (RCell × W64)} {fl : Nat → FlagSet}
    (h : Mid s t g g1 ds out fl) {i : Nat} (n : Nat) (hi : i < 32) (hcs : ∀ x ∈ out i, x.1.isReg = true)
    (hn : ((out i).map (·.1)).Nodup) (hlive : (g.lane i).ended = false) :
    Mid s ((t.modGroup s.cur.gid (fun g => g.writeCells i (out i) n)).modLane s.cur.gid i (fun l => l.raise (fl i))) g
      ((g1.writeCells i (out i) n).modLane i (fun l => l.raise (fl i))) (ds ++ [i]) out fl := by
  have hw := Group.writeCells_rest (out i) g1 i n
  have hid : ∀ g' : Group, (g'.writeCells i (out i) n).id = g'.id := fun g' => (Group.writeCells_rest (out i) g' i n).id
  constructor
  · unfold State.modLane
    rw [State.group?_modGroup _ _ (fun g => g.modLane i (fun l => l.raise (fl i))) (fun _ => rfl),
      State.group?_modGroup _ _ (fun g => g.writeCells i (out i) n) hid, h.here]
    rfl
  · intro j hj c hc
    rw [Group.readCell_modLane, written_append]
    unfold Group.writeCells
    rw [readCell_foldl _ _ _ _ hi hj hc hcs hn, h.cells j hj c hc]
    cases written [i] (fun _ => out i) j c <;> rfl
  · intro j
    have hl : i < g1.lanes.length := by
      apply Group.lane_lt
      rw [h.lanes i]; exact hlive
    rw [Group.lane_modLane, hw.lanes]
    have e : (g1.writeCells i (out i) n).lane j = g1.lane j := by unfold Group.lane; rw [hw.lanes]
    rw [e, h.lanes j]
    by_cases hji : j = i
    · subst hji
      simp only [hl, and_self, if_true, Lane.raise, List.contains_append]
      by_cases hd : ds.contains j = true
      · have hm : j ∈ ds := by simpa using hd
        simp [hm, BitVec.or_assoc]
      · have hm : j ∉ ds := by simpa using hd
        simp [hm]
    · simp [hji]
  · have := h.frame
    have h2 := congrArg (fun x : Group =>
      { x with g := g.g, w := g.w, p := g.p, k := g.k, bad := g.bad, kser := g.kser, lanes := g.lanes }) hw.rest
    exact h2.trans this
  · exact fun x hx => h.errors x (hw.bad x hx)
  · unfold State.modLane
    exact (h.only.modGroup _ hid).modGroup _ (fun _ => rfl)

theorem Mid.start {s : State} (h : (s.group? s.cur.gid).isSome = true) (out : Nat → List (RCell × W64))
    (fl : Nat → FlagSet) : Mid s s (s.group s.cur.gid) (s.group s.cur.gid) [] out fl := by
  refine ⟨?_, ?_, ?_, rfl, fun _ hx => hx, OnlyGroup.refl s⟩
  · rw [Option.isSome_iff_exists] at h
    obtain ⟨g, hg⟩ := h
    rw [State.group_of_group? hg, hg]
  · intro j _ c _
    have : written [] out j c = none := by
      cases c <;> simp [written]
      split <;> simp_all
    rw [this]; rfl
  · intro j; simp

theorem modAt_self {α : Type} (f : α → α) (l : List α) (i : Nat) (d : α) (h : f (l.getD i d) = l.getD i d) :
    modAt f l i = l := by
  induction l generalizing i with
  | nil => rfl
  | cons x r ih =>
    cases i with
    | zero => simp [modAt] at h ⊢; exact h
    | succ i => simp [modAt] at h ⊢; exact ih i (by simpa using h)

theorem Lane.dropCells_nil (l : Lane) (cs : List RCell) (h : l.pend = []) : l.dropCells cs = l := by
  cases l; simp at h; subst h; rfl

/-- Nothing is dropped from a lane that is owed nothing. -/
theorem Mid.drop {s t : State} {g g1 : Group} {ds : List Nat} {out : Nat → List (RCell × W64)} {fl : Nat → FlagSet}
    (h : Mid s t g g1 ds out fl) {i : Nat} (cs : List RCell) (hp : (g.lane i).pend = []) :
    Mid s (t.modLane s.cur.gid i (fun l => l.dropCells cs)) g g1 ds out fl := by
  have e : g1.modLane i (fun l => l.dropCells cs) = g1 := by
    unfold Group.modLane
    rw [modAt_self _ _ _ ({ ended := true } : Lane)]
    exact Lane.dropCells_nil _ _ (by have := h.lanes i; unfold Group.lane at this; rw [this]; exact hp)
  refine ⟨?_, h.cells, h.lanes, h.frame, h.errors, ?_⟩
  · unfold State.modLane
    rw [State.group?_modGroup _ _ (fun g => g.modLane i (fun l => l.dropCells cs)) (fun _ => rfl), h.here, Option.map_some, e]
  · exact h.only.modGroup _ (fun _ => rfl)

/-- A lane's result is written to its destination. -/
theorem Mid.res {s t : State} {g g1 : Group} {ds : List Nat} {op : Op} {f : Full} {vals : Nat → List W64}
    {fl : Nat → FlagSet} (h : Mid s t g g1 ds (fun i => destVals (dest op f) (vals i)) fl) {i : Nat} (hi : i < 32)
    (hd : ∀ c ∈ dest op f, c.isReg = true) (hla : (f.la == 0 || !f.isLong op) = true)
    (hlive : (g.lane i).ended = false) (hp : (g.lane i).pend = []) :
    ∃ g2, Mid s ((t.writeDest s.cur.gid i op f (vals i)).modLane s.cur.gid i (fun l => l.raise (fl i))) g g2 (ds ++ [i])
      (fun i => destVals (dest op f) (vals i)) fl := by
  have hk := destVals_keys (dest op f) (vals i) (dest_nodup op f)
  have hcs : ∀ x ∈ destVals (dest op f) (vals i), x.1.isReg = true := fun x hx => hd _ (hk.2 x hx)
  refine ⟨(g1.writeCells i (destVals (dest op f) (vals i)) t.serial).modLane i (fun l => l.raise (fl i)), ?_⟩
  unfold State.writeDest
  dsimp only
  split
  · rename_i he
    have e : t.modGroup s.cur.gid (fun g => g.writeCells i (destVals (dest op f) (vals i)) t.serial) = t := by
      rw [he]; simp [State.modGroup, updWhere, Group.writeCells]
    have := h.write t.serial hi hcs hk.1 hlive
    rwa [e] at this
  · rename_i q v he
    have := hcs (.q q, v) (by rw [he]; simp)
    simp [RCell.isReg] at this
  · rw [if_pos hla]
    exact (h.drop _ hp).write _ hi hcs hk.1 hlive

theorem mem_laneIds {i : Nat} : i ∈ laneIds ↔ i < 32 := by simp [laneIds]

theorem inMask_lanesOf {m : W32} {i : Nat} : i ∈ lanesOf m ↔ i < 32 ∧ inMask m i = true := by
  simp [lanesOf, inMask, mem_laneIds]

theorem mem_enabledFor {s : State} {f : Full} {i : Nat} (h : i ∈ s.enabledFor f) : i < 32 ∧ inMask s.cur.lanes i = true := by
  unfold State.enabledFor Group.enabled at h
  exact inMask_lanesOf.1 (List.mem_filter.1 h).1

/-- A frame of the issuing group leaves its transaction as it was. -/
theorem Mid.tx {s t : State} {g g1 : Group} {ds : List Nat} {out : Nat → List (RCell × W64)} {fl : Nat → FlagSet}
    (h : Mid s t g g1 ds out fl) : g1.tx = g.tx := by
  have := congrArg (fun x : Group => x.tx) h.frame
  exact this

theorem txGone_false {g : Group} (h : ∀ x, g.tx = some x → x.dead = none) (i : Nat) :
    (inMask g.txSet i && g.txGone) = false := by
  unfold Group.txSet Group.txGone
  cases hx : g.tx with
  | none => simp [inMask]
  | some x => simp [h x hx]

/-- One lane of an issue that completes with its result. -/
theorem Run.lane_res {s : State} {g g1 : Group} {ds : List Nat} {op : Op} {f : Full} {vals : Nat → List W64}
    {fl : Nat → FlagSet} {got : List (Nat × W64)} {body : State → Group → List (Nat × W64) → Nat → LaneStep} {r : Run}
    (h : Mid s r.s g g1 ds (fun i => destVals (dest op f) (vals i)) fl) (hset : r.set = g.txSet)
    (hfull : r.full = []) (htx : ∀ x, g.tx = some x → x.dead = none) (hq : noQueue op f) {i : Nat} (hi : i < 32)
    (hd : ∀ c ∈ dest op f, c.isReg = true) (hla : (f.la == 0 || !f.isLong op) = true)
    (hlive : (g.lane i).ended = false) (hp : (g.lane i).pend = [])
    (hb : body r.s g got i = .res r.s (vals i) (fl i)) :
    ∃ t g2, r.lane op f g got body i = { r with s := t, done := r.done ++ [i] } ∧
      Mid s t g g2 (ds ++ [i]) (fun i => destVals (dest op f) (vals i)) fl := by
  obtain ⟨g2, h2⟩ := h.res hi hd hla hlive hp
  refine ⟨_, g2, ?_, h2⟩
  have hg : r.s.group r.s.cur.gid = g1 := by rw [h.only.cur]; exact State.group_of_group? h.here
  have hg' : r.s.group s.cur.gid = g1 := State.group_of_group? h.here
  have hend : (g1.lane i).ended = false := by rw [h.lanes i]; exact hlive
  have hab : r.aborted i = false := by
    unfold Run.aborted
    rw [hg, hset]
    have : g1.txGone = g.txGone := by unfold Group.txGone; rw [h.tx]
    rw [this]; exact txGone_false htx i
  have hab2 : r.s.absentRecord op f g ((vals i).headD 0) = none := by simp [State.absentRecord, hq.2]
  unfold Run.lane
  simp only [hg', hend, hab, hq.2, hb, hab2, hfull, List.contains_nil, Bool.or_self, Bool.false_eq_true, if_false,
    h.only.cur]

/-- All lanes of an issue complete with their results. -/
theorem Run.lanes_res {s : State} {g : Group} {op : Op} {f : Full} {vals : Nat → List W64} {fl : Nat → FlagSet}
    {got : List (Nat × W64)} {body : State → Group → List (Nat × W64) → Nat → LaneStep} (htx : ∀ x, g.tx = some x → x.dead = none)
    (hq : noQueue op f) (hd : ∀ c ∈ dest op f, c.isReg = true) (hla : (f.la == 0 || !f.isLong op) = true)
    (is : List Nat) (his : ∀ i ∈ is, i < 32 ∧ (g.lane i).ended = false ∧ (g.lane i).pend = [])
    (hb : ∀ t, OnlyGroup s t → ∀ i ∈ is, body t g got i = .res t (vals i) (fl i)) :
    ∀ (r : Run) (g1 : Group) (ds : List Nat), Mid s r.s g g1 ds (fun i => destVals (dest op f) (vals i)) fl → r.set = g.txSet →
      r.full = [] → ∃ t g2, is.foldl (fun (r : Run) i => r.lane op f g got body i) r = { r with s := t, done := r.done ++ is } ∧
        Mid s t g g2 (ds ++ is) (fun i => destVals (dest op f) (vals i)) fl := by
  induction is with
  | nil => intro r g1 ds h _ _; exact ⟨r.s, g1, by simp, by simpa using h⟩
  | cons i is ih =>
    intro r g1 ds h hset hfull
    obtain ⟨hi, hlive, hp⟩ := his i List.mem_cons_self
    obtain ⟨t, g2, e, h2⟩ := Run.lane_res h hset hfull htx hq hi hd hla hlive hp (hb r.s h.only i List.mem_cons_self)
    obtain ⟨t', g3, e', h3⟩ := ih (fun j hj => his j (List.mem_cons_of_mem _ hj))
      (fun t ht j hj => hb t ht j (List.mem_cons_of_mem _ hj)) { r with s := t, done := r.done ++ [i] } g2 (ds ++ [i]) h2 hset hfull
    refine ⟨t', g3, ?_, by simpa using h3⟩
    rw [List.foldl_cons, e, e']
    simp

/-! ### The end of an issue -/

/-- What every step of a fold keeps, the fold keeps. -/
theorem foldl_keeps {α β γ : Type} (p : α → γ) (f : α → β → α) (h : ∀ a b, p (f a b) = p a) (l : List β) (a : α) :
    p (l.foldl f a) = p a := by
  induction l generalizing a with
  | nil => rfl
  | cons b l ih => rw [List.foldl_cons, ih, h]

theorem Group.retire_id (g : Group) (i : Nat) (all : Bool) : (g.retire i all).id = g.id := by
  unfold Group.retire
  dsimp only
  rw [Group.modLane_id]
  refine foldl_keeps Group.id _ (fun g p => ?_) _ _
  refine foldl_keeps Group.id _ (fun g c => ?_) _ _
  split
  · exact (Group.writeOrdered_rest _ _ _ _ _).id
  · rfl

theorem Group.advance_id (g : Group) (i size : Nat) : (g.advance i size).id = g.id := by
  unfold Group.advance Group.tickWindows
  split
  · rfl
  · rw [Group.modLane_id, Group.retire_id, Group.modLane_id]

/-- A lane that is owed nothing completes an instruction. -/
theorem Group.advance_lane (g : Group) (i size : Nat) (hp : (g.lane i).pend = []) :
    g.advance i size = g.modLane i (fun l => { l with pc := l.pc + w64 size, replay := false }) := by
  simp [Group.advance, Group.tickWindows, hp]

/-- Lanes that are owed nothing complete an instruction. -/
theorem Group.advanceAll_lanes (ls : List Nat) (size : Nat) (hn : ls.Nodup) :
    ∀ g : Group, (∀ i ∈ ls, (g.lane i).pend = [] ∧ i < g.lanes.length) →
      { g.advanceAll ls size with lanes := g.lanes } = g ∧
      ∀ j, (g.advanceAll ls size).lane j =
        if j ∈ ls then { g.lane j with pc := (g.lane j).pc + w64 size, replay := false } else g.lane j := by
  induction ls with
  | nil => intro g _; exact ⟨rfl, fun j => by simp [Group.advanceAll]⟩
  | cons i ls ih =>
    intro g h
    have hn' := List.nodup_cons.1 hn
    have hi := h i List.mem_cons_self
    have e : g.advanceAll (i :: ls) size =
        (g.modLane i (fun l => { l with pc := l.pc + w64 size, replay := false })).advanceAll ls size := by
      unfold Group.advanceAll
      rw [List.foldl_cons, Group.advance_lane g i size hi.1]
    obtain ⟨h1, h2⟩ := ih hn'.2 (g.modLane i (fun l => { l with pc := l.pc + w64 size, replay := false })) (by
      intro j hj
      have hne : j ≠ i := fun e => hn'.1 (e ▸ hj)
      have hj' := h j (List.mem_cons_of_mem _ hj)
      rw [Group.lane_modLane, if_neg (by simp [hne]), Group.modLane_length]
      exact hj')
    rw [e]
    constructor
    · have := congrArg (fun x : Group => { x with lanes := g.lanes }) h1
      exact this
    · intro j
      rw [h2 j, Group.lane_modLane]
      by_cases hji : j = i
      · subst hji; simp [hn'.1, hi.2]
      · simp [hji]

theorem lanesOf_nodup (m : W32) : (lanesOf m).Nodup := (List.nodup_range (n := 32)).sublist List.filter_sublist

/-- The end of an issue on which no lane trapped. -/
theorem Run.close_res {s : State} {g g1 : Group} {r : Run} {dis : List Nat} {out : Nat → List (RCell × W64)}
    {fl : Nat → FlagSet} {f : Full} (hg0 : s.group s.cur.gid = g) (h : Mid s r.s g g1 (s.enabledFor f) out fl)
    (hdone : r.done = s.enabledFor f) (hset : r.set = g.txSet) (htraps : r.traps = [])
    (hdis : dis = (lanesOf s.cur.lanes).filter (fun i => !(s.enabledFor f).contains i))
    (htx : ∀ x, g.tx = some x → x.dead = none)
    (halive : ∀ i, inMask s.cur.lanes i = true → (g.lane i).ended = false ∧ (g.lane i).pend = []) :
    LaneEffect s (r.close dis) f out fl := by
  have hcur := h.only.cur
  have hg : r.s.group r.s.cur.gid = g1 := by rw [hcur]; exact State.group_of_group? h.here
  have hab : ∀ i, r.aborted i = false := by
    intro i
    unfold Run.aborted
    rw [hg, hset]
    have : g1.txGone = g.txGone := by unfold Group.txGone; rw [h.tx]
    rw [this]; exact txGone_false htx i
  have hgo : laneIds.filter (fun i => (r.done.contains i || dis.contains i) && !r.aborted i) = lanesOf s.cur.lanes := by
    unfold lanesOf
    apply List.filter_congr
    intro i hi
    rw [hab i, hdone, hdis]
    have hi' := mem_laneIds.1 hi
    by_cases hm : inMask s.cur.lanes i = true
    · by_cases he : i ∈ s.enabledFor f
      · simp [he]; simpa [inMask] using hm
      · have : i ∈ lanesOf s.cur.lanes := inMask_lanesOf.2 ⟨hi', hm⟩
        simp [he, this]; simpa [inMask] using hm
    · have h1 : i ∉ s.enabledFor f := fun he => hm (mem_enabledFor he).2
      have h2 : i ∉ lanesOf s.cur.lanes := fun he => hm (inMask_lanesOf.1 he).2
      simp [h1, h2]; simpa [inMask] using hm
  have e : r.close dis = r.s.modGroup s.cur.gid (fun g => g.advanceAll (lanesOf s.cur.lanes) s.cur.size) := by
    unfold Run.close
    dsimp only
    rw [hgo, htraps, hcur]
    rfl
  have hlen : ∀ i, (g.lane i).ended = false → i < g1.lanes.length := by
    intro i hi
    apply Group.lane_lt
    rw [h.lanes i]; exact hi
  obtain ⟨ha, hl⟩ := Group.advanceAll_lanes (lanesOf s.cur.lanes) s.cur.size (lanesOf_nodup _) g1 (by
    intro i hi
    have := halive i (inMask_lanesOf.1 hi).2
    exact ⟨by rw [h.lanes i]; exact this.2, hlen i this.1⟩)
  have hid : ∀ g' : Group, (g'.advanceAll (lanesOf s.cur.lanes) s.cur.size).id = g'.id := by
    intro g'
    exact foldl_keeps Group.id _ (fun g i => Group.advance_id g i _) _ _
  have hgr : (r.close dis).group? s.cur.gid = some (g1.advanceAll (lanesOf s.cur.lanes) s.cur.size) := by
    rw [e, State.group?_modGroup _ _ (fun g => g.advanceAll (lanesOf s.cur.lanes) s.cur.size) hid, h.here]; rfl
  have hgr' := State.group_of_group? hgr
  refine ⟨?_, ?_, ⟨by rw [hgr]; rfl, ?_⟩, ?_, ?_⟩
  · intro i hi c hc
    rw [hgr', hg0, ← h.cells i hi c hc]
    have hg1 := congrArg (fun x : Group => x.g) ha
    have hg2 := congrArg (fun x : Group => x.w) ha
    have hg3 := congrArg (fun x : Group => x.p) ha
    have hg4 := congrArg (fun x : Group => x.k) ha
    dsimp only at hg1 hg2 hg3 hg4
    cases c <;> simp [Group.readCell, Group.readG, Group.readW, Group.readP, Group.readK, hg1, hg2, hg3, hg4]
  · intro i hi
    rw [hgr', hg0, hl i, h.lanes i]
    by_cases hm : inMask s.cur.lanes i = true
    · simp [hm, inMask_lanesOf.2 ⟨hi, hm⟩, State.pastPc, hg0]
    · have h1 : ¬ (s.enabledFor f).contains i = true := by
        intro he; exact hm (mem_enabledFor (by simpa using he)).2
      have h2 : i ∉ lanesOf s.cur.lanes := fun he => hm (inMask_lanesOf.1 he).2
      have h3 : i ∉ s.enabledFor f := by simpa using h1
      simp [hm, h2, h3]
  · rw [hgr', hg0]
    have h1 := congrArg (fun x : Group =>
      { x with g := g.g, w := g.w, p := g.p, k := g.k, bad := g.bad, kser := g.kser, lanes := g.lanes }) ha
    exact h1.trans h.frame
  · rw [hgr', hg0]
    have h1 := congrArg (fun x : Group => x.bad) ha
    dsimp only at h1
    rw [h1]
    exact h.errors
  · rw [e]; exact h.only.modGroup _ hid

/-! ### A whole issue -/

/-- What an issue leaves on which every lane completes with its result: the destinations, the flags, the program
counters, and nothing else (02 R34). `body` is what the instruction does on a lane. -/
theorem laneExec_effect {s : State} {op : Op} {f : Full} (h : Ready s op f) (hq : noQueue op f) (hla : f.la = 0)
    {body : State → Group → List (Nat × W64) → Nat → LaneStep} {vals : Nat → List W64} {fl : Nat → FlagSet}
    (hb : ∀ t, OnlyGroup s t → ∀ i ∈ s.enabledFor f,
      body t (s.group s.cur.gid) ((s.enabledFor f).map (fun i => (i, 0))) i = .res t (vals i) (fl i)) :
    LaneEffect s (laneExec op f s body) f (fun i => destVals (dest op f) (vals i)) fl := by
  obtain ⟨g, hg⟩ := Option.isSome_iff_exists.1 h.here
  have hgr := State.group_of_group? hg
  have halive := h.alive
  have htx := h.tx
  rw [hgr] at halive htx hb
  have hqt : s.queueTraps op f = none := by
    have h1 : ¬ (f.popsQueue op = true) := by
      intro hp; have := hq.1; simp [popQueueOf, hp] at this
    simp [State.queueTraps, h1, hq.2]
  have hnd : (s.enabledFor f).Nodup := (lanesOf_nodup _).sublist List.filter_sublist
  obtain ⟨got, hgot0⟩ : ∃ got, got = (s.enabledFor f).map (fun i => (i, (0 : W64))) := ⟨_, rfl⟩
  rw [← hgot0] at hb
  obtain ⟨t, g2, e, hm⟩ := Run.lanes_res (s := s) (g := g) (got := got)
    (body := fun s g _ i => body s g got i)
    (op := op) (f := f) (vals := vals) (fl := fl) htx hq (dest_isReg h hq) (by simp [hla]) (s.enabledFor f)
    (fun i hi => by
      have hi' := mem_enabledFor hi
      exact ⟨hi'.1, halive i hi'.2⟩) hb { s := s, set := g.txSet } g []
    (by have := Mid.start h.here (fun i => destVals (dest op f) (vals i)) fl; rwa [hgr] at this) rfl rfl
  have el : laneExec op f s body = Run.close { s := t, done := s.enabledFor f, set := g.txSet }
      ((lanesOf s.cur.lanes).filter (fun i => !(s.enabledFor f).contains i)) := by
    unfold laneExec
    simp only [hg, h.safe, hqt, hq.1, Bool.false_eq_true, if_false, List.map_map]
    have hmap : (s.enabledFor f).map ((fun (x : Nat × W64) => x.1) ∘ fun i => (i, 0)) = s.enabledFor f := by
      have : ((fun (x : Nat × W64) => x.1) ∘ fun i => (i, (0 : W64))) = id := rfl
      rw [this, List.map_id]
    have hall : (s.enabledFor f).filter (fun i => !(s.enabledFor f).contains i) = [] := by simp
    have hgot : got.filter (fun x => (s.enabledFor f).contains x.1) = got := by
      rw [hgot0, List.filter_eq_self]
      intro x hx
      obtain ⟨i, hi, rfl⟩ := List.mem_map.1 hx
      simpa using hi
    have hadm : s.admitted op f g (s.enabledFor f) = s.enabledFor f := by simp [State.admitted, hq.2]
    have hbad : s.badPops op f = [] := by simp [State.badPops, hq.1]
    rw [hmap, hadm, hall, hbad, ← hgot0]
    simp only [List.map_nil, hgot, e, Run.queues, hq.1, hq.2]
    simp
  rw [el]
  exact Run.close_res hgr (by simpa using hm) rfl rfl rfl rfl htx halive

theorem poppedBy_zero (ls : List Nat) (i : Nat) : poppedBy (ls.map (fun i => (i, (0 : W64)))) i = 0 := by
  unfold poppedBy
  cases hf : (ls.map (fun i => (i, (0 : W64)))).find? (fun x => x.1 == i) with
  | none => rfl
  | some x =>
    obtain ⟨j, _, rfl⟩ := List.mem_map.1 (List.mem_of_find?_eq_some hf)
    rfl

/-- An instruction computes `val` if its body gives that on every enabled lane and leaves the state. -/
theorem computes_of_body {run : State → Result} {op : Op} {f : Full}
    {val : State → Nat → W64 → W64 → W64 → List W64 × FlagSet}
    (body : State → State → Group → List (Nat × W64) → Nat → LaneStep)
    (hr : ∀ s, run s = .next (laneExec op f s (body s)))
    (hb : ∀ s, Ready s op f → noQueue op f → ∀ t, OnlyGroup s t → ∀ i ∈ s.enabledFor f,
      body s t (s.group s.cur.gid) ((s.enabledFor f).map (fun i => (i, 0))) i =
        let r := val s i (srcA op f (s.group s.cur.gid) i 0) (srcB op f (s.group s.cur.gid) i)
          (srcC op f (s.group s.cur.gid) i)
        .res t r.1 r.2) : Computes run op f val := by
  intro s h hq hla
  exact ⟨_, hr s, laneExec_effect h hq hla
    (vals := fun i => (val s i (srcA op f (s.group s.cur.gid) i 0) (srcB op f (s.group s.cur.gid) i)
      (srcC op f (s.group s.cur.gid) i)).1)
    (fl := fun i => (val s i (srcA op f (s.group s.cur.gid) i 0) (srcB op f (s.group s.cur.gid) i)
      (srcC op f (s.group s.cur.gid) i)).2) (hb s h hq)⟩

/-- An instruction that only computes: its function of the sources is the value on every enabled lane. -/
theorem computes_of_alu {run : State → Result} {op : Op} {f : Full}
    {val : State → Nat → W64 → W64 → W64 → List W64 × FlagSet} (fn : State → LaneFn)
    (hr : ∀ s, run s = .next (aluExec op f s (fn s)))
    (hv : ∀ s, Ready s op f → ∀ i ∈ s.enabledFor f,
      fn s (s.group s.cur.gid) i (srcA op f (s.group s.cur.gid) i 0) (srcB op f (s.group s.cur.gid) i)
        (srcC op f (s.group s.cur.gid) i) =
      val s i (srcA op f (s.group s.cur.gid) i 0) (srcB op f (s.group s.cur.gid) i)
        (srcC op f (s.group s.cur.gid) i)) : Computes run op f val := by
  refine computes_of_body _ hr fun s h hq t _ i hi => ?_
  simp only [poppedBy_zero, hv s h i hi, finishAlu, State.pushTrap, hq.2]

/-- The participants of a cross-lane instruction are the enabled lanes (06 R96). -/
theorem computes_of_cross {run : State → Result} {op : Op} {f : Full}
    {val : State → Nat → W64 → W64 → W64 → List W64 × FlagSet}
    (fn : State → Group → List Nat → (Nat → W64) → Nat → W64 → List W64 × FlagSet)
    (hr : ∀ s, run s = .next (crossExec op f s (fn s)))
    (hv : ∀ s, Ready s op f → ∀ i ∈ s.enabledFor f,
      fn s (s.group s.cur.gid) (s.enabledFor f) (fun j => srcA op f (s.group s.cur.gid) j 0) i
        (srcB op f (s.group s.cur.gid) i) =
      val s i (srcA op f (s.group s.cur.gid) i 0) (srcB op f (s.group s.cur.gid) i)
        (srcC op f (s.group s.cur.gid) i)) : Computes run op f val := by
  refine computes_of_body _ hr fun s h hq t _ i hi => ?_
  have hm : ((s.enabledFor f).map (fun i => (i, (0 : W64)))).map (·.1) = s.enabledFor f := by
    rw [List.map_map]
    have : ((fun (x : Nat × W64) => x.1) ∘ fun i => (i, (0 : W64))) = id := rfl
    rw [this, List.map_id]
  simp only [hm, hq.2, poppedBy_zero, finishAlu, State.pushTrap, hv s h i hi]

end Sys2Proof.Machine
end

