-- ==== Sys2Proof/Laws/Memory.lean ====
section
/-! SUPPORT. Every operation that writes the bytes of the module keeps its memories in their canonical form. -/

namespace Sys2Proof.Machine

open Sys2Proof

/-- What has the memories of a canonical state is canonical. -/
theorem canonical_of_eq {s t : State} (h : s.canonical) (hm : t.mem = s.mem) (hv : t.vault = s.vault) : t.canonical := by
  unfold State.canonical
  rw [hm, hv]
  exact h

/-- A fold of steps that keep the form keeps it. -/
theorem canonical_foldl {α : Type} (f : State → α → State) (hf : ∀ s a, s.canonical → (f s a).canonical) (l : List α)
    (s : State) (h : s.canonical) : (l.foldl f s).canonical := by
  induction l generalizing s with
  | nil => exact h
  | cons a l ih => exact ih _ (hf _ _ h)

/-- `t` holds the bytes of the module that `s` holds. -/
abbrev State.SameBytes (s t : State) : Prop := t.mem = s.mem ∧ t.vault = s.vault

/-- A fold of steps that leave the bytes leaves them. -/
theorem sameBytes_foldl {α : Type} (f : State → α → State) (hf : ∀ (s : State) a, s.SameBytes (f s a)) (l : List α) (s : State) :
    s.SameBytes (l.foldl f s) := by
  induction l generalizing s with
  | nil => exact ⟨rfl, rfl⟩
  | cons a l ih => exact ⟨(ih _).1.trans (hf s a).1, (ih _).2.trans (hf s a).2⟩

theorem State.SameBytes.trans {s t u : State} (h : s.SameBytes t) (k : t.SameBytes u) : s.SameBytes u :=
  ⟨k.1.trans h.1, k.2.trans h.2⟩

theorem mscPlace_mem (s : State) (l : MscLine) : s.SameBytes (s.mscPlace l) := by
  unfold State.mscPlace
  simp only
  repeat' split
  all_goals exact ⟨rfl, rfl⟩

theorem mscTouch_mem (s : State) (pa hint : Nat) (write whole : Bool) : s.SameBytes (s.mscTouch pa hint write whole) := by
  unfold State.mscTouch
  simp only
  split
  · exact ⟨rfl, rfl⟩
  · split
    · exact ⟨rfl, rfl⟩
    · exact mscPlace_mem _ _

theorem touchWritten_mem (s : State) (w : HWrite) (bs : List (Nat × Byte)) : s.SameBytes (s.touchWritten w bs) :=
  sameBytes_foldl _ (fun _ _ => mscTouch_mem _ _ _ _ _) _ _

theorem complete_mem (s : State) (gid : Option Nat) (t : Nat) : s.SameBytes (s.complete gid t) := by
  unfold State.complete
  repeat' split
  all_goals exact ⟨rfl, rfl⟩

theorem completeAll_mem (s : State) (w : HWrite) (t : Nat) (away : Bool) : s.SameBytes (s.completeAll w t away) := by
  have h := sameBytes_foldl (fun (s : State) id => s.complete (some id) t) (fun s id => complete_mem s (some id) t)
    (w.gid.toList ++ w.also) s
  unfold State.completeAll
  dsimp only
  split
  · have h2 := sameBytes_foldl (fun (s : State) id => s.modGroup id (fun g => { g with rctime := max g.rctime t }))
      (fun _ _ => ⟨rfl, rfl⟩) (w.gid.toList ++ w.also)
      ((w.gid.toList ++ w.also).foldl (fun (s : State) id => s.complete (some id) t) s)
    exact ⟨h2.1.trans h.1, h2.2.trans h.2⟩
  · exact h

theorem giveOld_mem (s : State) (w : HWrite) (old : W64) (t : Nat) : s.SameBytes (s.giveOld w old t) := by
  unfold State.giveOld State.joinDone
  repeat' split
  all_goals exact ⟨rfl, rfl⟩

theorem sendFlit_mem (s : State) (p : Nat) : s.SameBytes (s.sendFlit p) := ⟨rfl, rfl⟩

theorem sendTo_mem (s : State) (pa : Nat) : s.SameBytes (s.sendTo pa) := by
  unfold State.sendTo
  split <;> exact ⟨rfl, rfl⟩

theorem answerTo_mem (s : State) (src tag pa : Nat) (a : RemoteAnswer) : s.SameBytes (s.answerTo src tag pa a) :=
  sendTo_mem { s with answers := s.answers ++ [(src, tag, a)] } _

theorem sendOn_mem (s : State) (core : Option Nat) (line till : Nat) (port : Option Nat) :
    s.SameBytes (s.sendOn core line till port) := by
  unfold State.sendOn
  split <;> exact ⟨rfl, rfl⟩

theorem request_mem (s : State) (core : Option Nat) (line till : Nat) : s.SameBytes (s.request core line till) := by
  rw [State.request]
  by_cases h : (!s.isRemote (line * 128)) = true
  · rw [if_pos h]; exact ⟨rfl, rfl⟩
  · rw [if_neg h]; exact sendOn_mem _ _ _ _ _

theorem showSignal_mem (s : State) (line : Nat) : s.SameBytes (s.showSignal line) := ⟨rfl, rfl⟩

/-- What a performed write changes beside the bytes it writes: no memory of the module. -/
theorem performed_mem (s : State) (line : Nat) (w : HWrite) (old : W64) (t : Nat) :
    s.SameBytes (((s.txWriteConflict line w.isOther).completeAll w t false).giveOld w old t) := by
  have h : s.SameBytes (s.txWriteConflict line w.isOther) := ⟨rfl, rfl⟩
  exact (h.trans (completeAll_mem _ w t false)).trans (giveOld_mem _ w old t)

/-- The bytes of a write performed at its home (17 R309). -/
theorem performBytes_canonical {s : State} (line : Nat) (w : HWrite) (t : Nat) (h : s.canonical) :
    (s.performBytes line w t).canonical := by
  unfold State.performBytes
  dsimp only
  generalize w.op.apply s.mem = x
  have h1 : ({ s with mem := Memory.setCells s.mem x.1 } : State).canonical := ⟨Memory.wf_setCells _ h.1, h.2⟩
  have h2 := performed_mem { s with mem := Memory.setCells s.mem x.1 } line w x.2 t
  have h3 := canonical_of_eq h1 h2.1 h2.2
  generalize State.giveOld _ w x.2 t = s4 at h3 ⊢
  refine canonical_of_eq ?_ (showSignal_mem _ _).1 (showSignal_mem _ _).2
  cases w.reply with
  | none => exact h3
  | some r => exact canonical_of_eq h3 (answerTo_mem _ _ _ _ _).1 (answerTo_mem _ _ _ _ _).2

/-- A write performed at its home, through the memory-side cache. -/
theorem perform_canonical {s : State} (line : Nat) (w : HWrite) (t : Nat) (h : s.canonical) :
    (s.perform line w t).canonical :=
  canonical_of_eq (performBytes_canonical line w t h) (touchWritten_mem _ _ _).1 (touchWritten_mem _ _ _).2

theorem sendEvent_mem (s : State) (x : Nat) (b : List Byte) : s.SameBytes (s.sendEvent x b) := by
  unfold State.sendEvent
  split <;> exact ⟨rfl, rfl⟩

theorem report_mem (s : State) (e : ErrorRec) : s.SameBytes (s.report e) := by
  unfold State.report
  dsimp only
  refine State.SameBytes.trans ?_ (sameBytes_foldl _ (fun s x => sendEvent_mem s x _) _ _)
  split <;> exact ⟨rfl, rfl⟩

theorem discard_mem (s : State) (line : Nat) (ws : List Nat) : s.SameBytes (s.discard line ws) :=
  sameBytes_foldl _ (fun s _ => report_mem s _) _ _

/-- A write performed at the home of another module leaves this one's bytes (17 R309). -/
theorem performAway_mem (s : State) (line : Nat) (w : HWrite) (t : Nat) : s.SameBytes (s.performAway line w t) := by
  have h := completeAll_mem (s.txWriteConflict line w.isOther) w t true
  unfold State.performAway State.drawWord
  dsimp only
  split
  · split
    · exact h.trans (discard_mem _ _ _)
    · exact h
  · exact h.trans (giveOld_mem ({ (s.txWriteConflict line w.isOther).completeAll w t true with
      free := ((s.txWriteConflict line w.isOther).completeAll w t true).free + 1 }) w
      (Config.freeWord ((s.txWriteConflict line w.isOther).completeAll w t true).free) (t + 50))

/-- A write sent to its home, or to another module (17 R309, 22 R392). -/
theorem writeAtHome_canonical {s : State} (line : Nat) (w : HWrite) (h : s.canonical) : (s.writeAtHome line w).canonical := by
  unfold State.writeAtHome
  simp only
  split
  · exact canonical_of_eq h (request_mem _ _ _ _).1 (request_mem _ _ _ _).2
  · repeat' split
    all_goals first | exact h | exact perform_canonical _ _ _ h

/-- Writes of a line performed in order. -/
theorem performList_canonical {s : State} (line : Nat) (ws : List HWrite) (h : s.canonical) :
    (s.performList line ws).canonical := by
  refine canonical_foldl _ (fun t w ht => ?_) _ _ h
  split
  · exact canonical_of_eq ht (performAway_mem t line w w.due).1 (performAway_mem t line w w.due).2
  · exact perform_canonical _ _ _ ht

/-- The writes of a line that its held time lets go (17 R309). -/
theorem releaseHold_canonical {s : State} (line : Nat) (h : s.canonical) : (s.releaseHold line).canonical := by
  unfold State.releaseHold
  simp only
  split
  · exact h
  · exact performList_canonical _ _ h

/-- An engine's write (13 R255, 18 R344, 20 R363). -/
theorem engineWrite_canonical {s : State} (gid : Option Nat) (pa : Nat) (bs : List Byte) (origin : Nat) (h : s.canonical) :
    (s.engineWrite gid pa bs origin).canonical := by
  unfold State.engineWrite
  exact canonical_foldl _ (fun _ _ hs => writeAtHome_canonical _ _ hs) _ _ h

theorem wakeQueue_mem (s : State) (team q : Nat) (push : Bool) : s.SameBytes (s.wakeQueue team q push) :=
  sameBytes_foldl (fun (s : State) (x : Nat × Nat) => s.modLane x.1 x.2 _) (fun _ _ => ⟨rfl, rfl⟩) _ _

theorem popQueue_mem (s : State) (team q gid lane : Nat) : s.SameBytes (s.popQueue team q gid lane).2 := by
  unfold State.popQueue
  dsimp only
  repeat' split
  all_goals first | exact ⟨rfl, rfl⟩ | exact wakeQueue_mem _ _ _ _

theorem popAll_mem (s : State) (team q gid : Nat) (en : List Nat) : s.SameBytes (s.popAll team q gid en).2 := by
  unfold State.popAll
  suffices hs : ∀ l, s.SameBytes (en.foldl (fun (a : List (Nat × W64) × State) i =>
      match a.2.popQueue team q gid i with
      | (some v, s) => (a.1 ++ [(i, v)], s)
      | (none, s) => (a.1, s)) (l, s)).2 from hs []
  intro l
  induction en generalizing s l with
  | nil => exact ⟨rfl, rfl⟩
  | cons i r ih =>
    rw [List.foldl_cons]
    have h := popQueue_mem s team q gid i
    dsimp only
    split
    · rename_i v t e; rw [e] at h; exact State.SameBytes.trans h (ih t _)
    · rename_i t e; rw [e] at h; exact State.SameBytes.trans h (ih t _)

theorem popWaited_mem (s : State) (gid : Nat) (pops : Option (Nat × W32)) : s.SameBytes (s.popWaited gid pops) := by
  unfold State.popWaited
  split
  · exact ⟨rfl, rfl⟩
  · exact popAll_mem _ _ _ _ _

theorem retestObjects_mem (s : State) (die : Nat) : s.SameBytes (s.retestObjects die) := by
  refine sameBytes_foldl _ (fun s g => ?_) _ _
  repeat' split
  · exact (popWaited_mem s g.id _).trans ⟨rfl, rfl⟩
  all_goals exact ⟨rfl, rfl⟩

/-- Bytes of a die's vaults (13 R252). -/
theorem setVault_canonical {s : State} (die : Nat) (cells : List (Nat × Byte)) (h : s.canonical) :
    (s.setVault die cells).canonical :=
  have h0 : ({ s with vault := Memory.setCells s.vault (cells.map (fun (c : Nat × Byte) => (die * 2 ^ 29 + c.1, c.2))) } :
      State).canonical := ⟨h.1, Memory.wf_setCells _ h.2⟩
  canonical_of_eq h0 (retestObjects_mem _ _).1 (retestObjects_mem _ _).2

/-- A write performed at a vault (17 R308). -/
theorem vaultPerform_canonical {s : State} (w : VHeld) (h : s.canonical) : (s.vaultPerform w).canonical := by
  unfold State.vaultPerform
  simp only
  generalize WriteOp.apply _ s.vault = x
  have h0 : (({ s with vault := Memory.setCells s.vault x.1 } : State).retestObjects w.die).canonical :=
    canonical_of_eq (s := { s with vault := Memory.setCells s.vault x.1 }) ⟨h.1, Memory.wf_setCells _ h.2⟩
      (retestObjects_mem _ _).1 (retestObjects_mem _ _).2
  generalize ({ s with vault := Memory.setCells s.vault x.1 } : State).retestObjects w.die = s0 at h0
  have h1 := fun t => canonical_of_eq h0 (complete_mem s0 w.gid t).1 (complete_mem s0 w.gid t).2
  repeat' split
  all_goals exact canonical_of_eq (h1 _) rfl rfl

theorem wakeArray_mem (s : State) (a : Nat) : s.SameBytes (s.wakeArray a).2 := by
  unfold State.wakeArray
  split <;> exact ⟨rfl, rfl⟩

/-- A write to a vault, held or performed (10 R205, 13 R248). -/
theorem vaultWrite_canonical {s : State} (w : VHeld) (h : s.canonical) : (s.vaultWrite w).canonical := by
  have h1 : (s.vaultHolds w).2.canonical := canonical_of_eq h (wakeArray_mem s w.array).1 (wakeArray_mem s w.array).2
  unfold State.vaultWrite
  split
  · rename_i s1 he; rw [he] at h1; exact h1
  · rename_i s1 he; rw [he] at h1; exact vaultPerform_canonical _ h1

/-- The writes that were held back (10 R205, 13 R248). -/
theorem releasePins_canonical {s : State} (h : s.canonical) : s.releasePins.canonical := by
  unfold State.releasePins
  refine canonical_foldl _ (fun t w ht => ?_) _ _ h
  split
  · exact ht
  · exact vaultPerform_canonical _ ht

/-- A page's bytes moved to another frame (18 R348). -/
theorem moveFrame_canonical {s : State} (src dst size : Nat) (h : s.canonical) : (s.moveFrame src dst size).canonical :=
  ⟨Memory.wf_setCells _ (Memory.wf_filter _ h.1), h.2⟩

/-- A start: what a warm start keeps, or nothing (21 R386). -/
theorem restarted_canonical {s : State} (warm : Bool) (h : s.canonical) : (s.restarted warm).canonical := by
  refine ⟨?_, rfl⟩
  unfold State.restarted
  simp only
  split
  · exact Memory.wf_filter _ h.1
  · rfl

end Sys2Proof.Machine
end

