-- ==== Sys2Proof/Laws/Updates.lean ====
section
/-! SUPPORT. What the operations that change one part of the state leave as it was: for each, the other fields that
statements speak of. -/

namespace Sys2Proof.Machine

open Sys2Proof

/-! ### `modGroup` changes `groups` -/

@[simp] theorem State.modGroup_agenda (s : State) (id : Nat) (f : Group → Group) : (s.modGroup id f).agenda = s.agenda := rfl
@[simp] theorem State.modGroup_cur (s : State) (id : Nat) (f : Group → Group) : (s.modGroup id f).cur = s.cur := rfl
@[simp] theorem State.modGroup_ev (s : State) (id : Nat) (f : Group → Group) : (s.modGroup id f).ev = s.ev := rfl
@[simp] theorem State.modGroup_serial (s : State) (id : Nat) (f : Group → Group) : (s.modGroup id f).serial = s.serial := rfl
@[simp] theorem State.modGroup_ticks (s : State) (id : Nat) (f : Group → Group) : (s.modGroup id f).ticks = s.ticks := rfl
@[simp] theorem State.modGroup_time (s : State) (id : Nat) (f : Group → Group) : (s.modGroup id f).time = s.time := rfl
@[simp] theorem State.modGroup_teams (s : State) (id : Nat) (f : Group → Group) : (s.modGroup id f).teams = s.teams := rfl
@[simp] theorem State.modGroup_launches (s : State) (id : Nat) (f : Group → Group) : (s.modGroup id f).launches = s.launches := rfl
@[simp] theorem State.modGroup_saved (s : State) (id : Nat) (f : Group → Group) : (s.modGroup id f).saved = s.saved := rfl
@[simp] theorem State.modGroup_mem (s : State) (id : Nat) (f : Group → Group) : (s.modGroup id f).mem = s.mem := rfl
@[simp] theorem State.modGroup_vault (s : State) (id : Nat) (f : Group → Group) : (s.modGroup id f).vault = s.vault := rfl
@[simp] theorem State.modGroup_homes (s : State) (id : Nat) (f : Group → Group) : (s.modGroup id f).homes = s.homes := rfl
@[simp] theorem State.modGroup_pages (s : State) (id : Nat) (f : Group → Group) : (s.modGroup id f).pages = s.pages := rfl
@[simp] theorem State.modGroup_l1 (s : State) (id : Nat) (f : Group → Group) : (s.modGroup id f).l1 = s.l1 := rfl
@[simp] theorem State.modGroup_poison (s : State) (id : Nat) (f : Group → Group) : (s.modGroup id f).poison = s.poison := rfl
@[simp] theorem State.modGroup_arrays (s : State) (id : Nat) (f : Group → Group) : (s.modGroup id f).arrays = s.arrays := rfl
@[simp] theorem State.modGroup_copies (s : State) (id : Nat) (f : Group → Group) : (s.modGroup id f).copies = s.copies := rfl
@[simp] theorem State.modGroup_rows (s : State) (id : Nat) (f : Group → Group) : (s.modGroup id f).rows = s.rows := rfl
@[simp] theorem State.modGroup_queues (s : State) (id : Nat) (f : Group → Group) : (s.modGroup id f).queues = s.queues := rfl
@[simp] theorem State.modGroup_faultq (s : State) (id : Nat) (f : Group → Group) : (s.modGroup id f).faultq = s.faultq := rfl
@[simp] theorem State.modGroup_stopped (s : State) (id : Nat) (f : Group → Group) : (s.modGroup id f).stopped = s.stopped := rfl
theorem State.modGroup_groups_only (s : State) (id : Nat) (f : Group → Group) : { s.modGroup id f with groups := s.groups } = s := rfl

/-! ### `modTeam` changes `teams` -/

@[simp] theorem State.modTeam_agenda (s : State) (id : Nat) (f : Team → Team) : (s.modTeam id f).agenda = s.agenda := rfl
@[simp] theorem State.modTeam_cur (s : State) (id : Nat) (f : Team → Team) : (s.modTeam id f).cur = s.cur := rfl
@[simp] theorem State.modTeam_ev (s : State) (id : Nat) (f : Team → Team) : (s.modTeam id f).ev = s.ev := rfl
@[simp] theorem State.modTeam_serial (s : State) (id : Nat) (f : Team → Team) : (s.modTeam id f).serial = s.serial := rfl
@[simp] theorem State.modTeam_ticks (s : State) (id : Nat) (f : Team → Team) : (s.modTeam id f).ticks = s.ticks := rfl
@[simp] theorem State.modTeam_time (s : State) (id : Nat) (f : Team → Team) : (s.modTeam id f).time = s.time := rfl
@[simp] theorem State.modTeam_groups (s : State) (id : Nat) (f : Team → Team) : (s.modTeam id f).groups = s.groups := rfl
@[simp] theorem State.modTeam_launches (s : State) (id : Nat) (f : Team → Team) : (s.modTeam id f).launches = s.launches := rfl
@[simp] theorem State.modTeam_saved (s : State) (id : Nat) (f : Team → Team) : (s.modTeam id f).saved = s.saved := rfl
@[simp] theorem State.modTeam_mem (s : State) (id : Nat) (f : Team → Team) : (s.modTeam id f).mem = s.mem := rfl
@[simp] theorem State.modTeam_vault (s : State) (id : Nat) (f : Team → Team) : (s.modTeam id f).vault = s.vault := rfl
@[simp] theorem State.modTeam_homes (s : State) (id : Nat) (f : Team → Team) : (s.modTeam id f).homes = s.homes := rfl
@[simp] theorem State.modTeam_pages (s : State) (id : Nat) (f : Team → Team) : (s.modTeam id f).pages = s.pages := rfl
@[simp] theorem State.modTeam_l1 (s : State) (id : Nat) (f : Team → Team) : (s.modTeam id f).l1 = s.l1 := rfl
@[simp] theorem State.modTeam_poison (s : State) (id : Nat) (f : Team → Team) : (s.modTeam id f).poison = s.poison := rfl
@[simp] theorem State.modTeam_arrays (s : State) (id : Nat) (f : Team → Team) : (s.modTeam id f).arrays = s.arrays := rfl
@[simp] theorem State.modTeam_copies (s : State) (id : Nat) (f : Team → Team) : (s.modTeam id f).copies = s.copies := rfl
@[simp] theorem State.modTeam_rows (s : State) (id : Nat) (f : Team → Team) : (s.modTeam id f).rows = s.rows := rfl
@[simp] theorem State.modTeam_queues (s : State) (id : Nat) (f : Team → Team) : (s.modTeam id f).queues = s.queues := rfl
@[simp] theorem State.modTeam_faultq (s : State) (id : Nat) (f : Team → Team) : (s.modTeam id f).faultq = s.faultq := rfl
@[simp] theorem State.modTeam_stopped (s : State) (id : Nat) (f : Team → Team) : (s.modTeam id f).stopped = s.stopped := rfl
theorem State.modTeam_only (s : State) (id : Nat) (f : Team → Team) : { s.modTeam id f with teams := s.teams } = s := rfl

/-! ### `modLaunch` changes `launches` -/

@[simp] theorem State.modLaunch_agenda (s : State) (die num : Nat) (f : Launch → Launch) : (s.modLaunch die num f).agenda = s.agenda := rfl
@[simp] theorem State.modLaunch_cur (s : State) (die num : Nat) (f : Launch → Launch) : (s.modLaunch die num f).cur = s.cur := rfl
@[simp] theorem State.modLaunch_ev (s : State) (die num : Nat) (f : Launch → Launch) : (s.modLaunch die num f).ev = s.ev := rfl
@[simp] theorem State.modLaunch_serial (s : State) (die num : Nat) (f : Launch → Launch) : (s.modLaunch die num f).serial = s.serial := rfl
@[simp] theorem State.modLaunch_ticks (s : State) (die num : Nat) (f : Launch → Launch) : (s.modLaunch die num f).ticks = s.ticks := rfl
@[simp] theorem State.modLaunch_time (s : State) (die num : Nat) (f : Launch → Launch) : (s.modLaunch die num f).time = s.time := rfl
@[simp] theorem State.modLaunch_groups (s : State) (die num : Nat) (f : Launch → Launch) : (s.modLaunch die num f).groups = s.groups := rfl
@[simp] theorem State.modLaunch_teams (s : State) (die num : Nat) (f : Launch → Launch) : (s.modLaunch die num f).teams = s.teams := rfl
@[simp] theorem State.modLaunch_saved (s : State) (die num : Nat) (f : Launch → Launch) : (s.modLaunch die num f).saved = s.saved := rfl
@[simp] theorem State.modLaunch_mem (s : State) (die num : Nat) (f : Launch → Launch) : (s.modLaunch die num f).mem = s.mem := rfl
@[simp] theorem State.modLaunch_vault (s : State) (die num : Nat) (f : Launch → Launch) : (s.modLaunch die num f).vault = s.vault := rfl
@[simp] theorem State.modLaunch_homes (s : State) (die num : Nat) (f : Launch → Launch) : (s.modLaunch die num f).homes = s.homes := rfl
@[simp] theorem State.modLaunch_pages (s : State) (die num : Nat) (f : Launch → Launch) : (s.modLaunch die num f).pages = s.pages := rfl
@[simp] theorem State.modLaunch_l1 (s : State) (die num : Nat) (f : Launch → Launch) : (s.modLaunch die num f).l1 = s.l1 := rfl
@[simp] theorem State.modLaunch_poison (s : State) (die num : Nat) (f : Launch → Launch) : (s.modLaunch die num f).poison = s.poison := rfl
@[simp] theorem State.modLaunch_arrays (s : State) (die num : Nat) (f : Launch → Launch) : (s.modLaunch die num f).arrays = s.arrays := rfl
@[simp] theorem State.modLaunch_copies (s : State) (die num : Nat) (f : Launch → Launch) : (s.modLaunch die num f).copies = s.copies := rfl
@[simp] theorem State.modLaunch_rows (s : State) (die num : Nat) (f : Launch → Launch) : (s.modLaunch die num f).rows = s.rows := rfl
@[simp] theorem State.modLaunch_queues (s : State) (die num : Nat) (f : Launch → Launch) : (s.modLaunch die num f).queues = s.queues := rfl
@[simp] theorem State.modLaunch_faultq (s : State) (die num : Nat) (f : Launch → Launch) : (s.modLaunch die num f).faultq = s.faultq := rfl
@[simp] theorem State.modLaunch_stopped (s : State) (die num : Nat) (f : Launch → Launch) : (s.modLaunch die num f).stopped = s.stopped := rfl
theorem State.modLaunch_only (s : State) (die num : Nat) (f : Launch → Launch) : { s.modLaunch die num f with launches := s.launches } = s := rfl

/-! ### `push` changes `agenda` -/

@[simp] theorem State.push_cur (s : State) (w : List Work) : (s.push w).cur = s.cur := rfl
@[simp] theorem State.push_ev (s : State) (w : List Work) : (s.push w).ev = s.ev := rfl
@[simp] theorem State.push_serial (s : State) (w : List Work) : (s.push w).serial = s.serial := rfl
@[simp] theorem State.push_ticks (s : State) (w : List Work) : (s.push w).ticks = s.ticks := rfl
@[simp] theorem State.push_time (s : State) (w : List Work) : (s.push w).time = s.time := rfl
@[simp] theorem State.push_groups (s : State) (w : List Work) : (s.push w).groups = s.groups := rfl
@[simp] theorem State.push_teams (s : State) (w : List Work) : (s.push w).teams = s.teams := rfl
@[simp] theorem State.push_launches (s : State) (w : List Work) : (s.push w).launches = s.launches := rfl
@[simp] theorem State.push_saved (s : State) (w : List Work) : (s.push w).saved = s.saved := rfl
@[simp] theorem State.push_mem (s : State) (w : List Work) : (s.push w).mem = s.mem := rfl
@[simp] theorem State.push_vault (s : State) (w : List Work) : (s.push w).vault = s.vault := rfl
@[simp] theorem State.push_homes (s : State) (w : List Work) : (s.push w).homes = s.homes := rfl
@[simp] theorem State.push_pages (s : State) (w : List Work) : (s.push w).pages = s.pages := rfl
@[simp] theorem State.push_l1 (s : State) (w : List Work) : (s.push w).l1 = s.l1 := rfl
@[simp] theorem State.push_poison (s : State) (w : List Work) : (s.push w).poison = s.poison := rfl
@[simp] theorem State.push_arrays (s : State) (w : List Work) : (s.push w).arrays = s.arrays := rfl
@[simp] theorem State.push_copies (s : State) (w : List Work) : (s.push w).copies = s.copies := rfl
@[simp] theorem State.push_rows (s : State) (w : List Work) : (s.push w).rows = s.rows := rfl
@[simp] theorem State.push_queues (s : State) (w : List Work) : (s.push w).queues = s.queues := rfl
@[simp] theorem State.push_faultq (s : State) (w : List Work) : (s.push w).faultq = s.faultq := rfl
@[simp] theorem State.push_stopped (s : State) (w : List Work) : (s.push w).stopped = s.stopped := rfl
theorem State.push_only (s : State) (w : List Work) : { s.push w with agenda := s.agenda } = s := rfl

/-! ### `modSeq` changes `teams` -/

@[simp] theorem State.modSeq_agenda (s : State) (id : Nat) (f : Sequencer → Sequencer) : (s.modSeq id f).agenda = s.agenda := rfl
@[simp] theorem State.modSeq_cur (s : State) (id : Nat) (f : Sequencer → Sequencer) : (s.modSeq id f).cur = s.cur := rfl
@[simp] theorem State.modSeq_ev (s : State) (id : Nat) (f : Sequencer → Sequencer) : (s.modSeq id f).ev = s.ev := rfl
@[simp] theorem State.modSeq_serial (s : State) (id : Nat) (f : Sequencer → Sequencer) : (s.modSeq id f).serial = s.serial := rfl
@[simp] theorem State.modSeq_ticks (s : State) (id : Nat) (f : Sequencer → Sequencer) : (s.modSeq id f).ticks = s.ticks := rfl
@[simp] theorem State.modSeq_time (s : State) (id : Nat) (f : Sequencer → Sequencer) : (s.modSeq id f).time = s.time := rfl
@[simp] theorem State.modSeq_groups (s : State) (id : Nat) (f : Sequencer → Sequencer) : (s.modSeq id f).groups = s.groups := rfl
@[simp] theorem State.modSeq_launches (s : State) (id : Nat) (f : Sequencer → Sequencer) : (s.modSeq id f).launches = s.launches := rfl
@[simp] theorem State.modSeq_saved (s : State) (id : Nat) (f : Sequencer → Sequencer) : (s.modSeq id f).saved = s.saved := rfl
@[simp] theorem State.modSeq_mem (s : State) (id : Nat) (f : Sequencer → Sequencer) : (s.modSeq id f).mem = s.mem := rfl
@[simp] theorem State.modSeq_vault (s : State) (id : Nat) (f : Sequencer → Sequencer) : (s.modSeq id f).vault = s.vault := rfl
@[simp] theorem State.modSeq_homes (s : State) (id : Nat) (f : Sequencer → Sequencer) : (s.modSeq id f).homes = s.homes := rfl
@[simp] theorem State.modSeq_pages (s : State) (id : Nat) (f : Sequencer → Sequencer) : (s.modSeq id f).pages = s.pages := rfl
@[simp] theorem State.modSeq_l1 (s : State) (id : Nat) (f : Sequencer → Sequencer) : (s.modSeq id f).l1 = s.l1 := rfl
@[simp] theorem State.modSeq_poison (s : State) (id : Nat) (f : Sequencer → Sequencer) : (s.modSeq id f).poison = s.poison := rfl
@[simp] theorem State.modSeq_arrays (s : State) (id : Nat) (f : Sequencer → Sequencer) : (s.modSeq id f).arrays = s.arrays := rfl
@[simp] theorem State.modSeq_copies (s : State) (id : Nat) (f : Sequencer → Sequencer) : (s.modSeq id f).copies = s.copies := rfl
@[simp] theorem State.modSeq_rows (s : State) (id : Nat) (f : Sequencer → Sequencer) : (s.modSeq id f).rows = s.rows := rfl
@[simp] theorem State.modSeq_queues (s : State) (id : Nat) (f : Sequencer → Sequencer) : (s.modSeq id f).queues = s.queues := rfl
@[simp] theorem State.modSeq_faultq (s : State) (id : Nat) (f : Sequencer → Sequencer) : (s.modSeq id f).faultq = s.faultq := rfl
@[simp] theorem State.modSeq_stopped (s : State) (id : Nat) (f : Sequencer → Sequencer) : (s.modSeq id f).stopped = s.stopped := rfl
theorem State.modSeq_only (s : State) (id : Nat) (f : Sequencer → Sequencer) : { s.modSeq id f with teams := s.teams } = s := rfl

/-! ### `modCopy` changes `copies` -/

@[simp] theorem State.modCopy_agenda (s : State) (id : Nat) (f : Copy → Copy) : (s.modCopy id f).agenda = s.agenda := rfl
@[simp] theorem State.modCopy_cur (s : State) (id : Nat) (f : Copy → Copy) : (s.modCopy id f).cur = s.cur := rfl
@[simp] theorem State.modCopy_ev (s : State) (id : Nat) (f : Copy → Copy) : (s.modCopy id f).ev = s.ev := rfl
@[simp] theorem State.modCopy_serial (s : State) (id : Nat) (f : Copy → Copy) : (s.modCopy id f).serial = s.serial := rfl
@[simp] theorem State.modCopy_ticks (s : State) (id : Nat) (f : Copy → Copy) : (s.modCopy id f).ticks = s.ticks := rfl
@[simp] theorem State.modCopy_time (s : State) (id : Nat) (f : Copy → Copy) : (s.modCopy id f).time = s.time := rfl
@[simp] theorem State.modCopy_groups (s : State) (id : Nat) (f : Copy → Copy) : (s.modCopy id f).groups = s.groups := rfl
@[simp] theorem State.modCopy_teams (s : State) (id : Nat) (f : Copy → Copy) : (s.modCopy id f).teams = s.teams := rfl
@[simp] theorem State.modCopy_launches (s : State) (id : Nat) (f : Copy → Copy) : (s.modCopy id f).launches = s.launches := rfl
@[simp] theorem State.modCopy_saved (s : State) (id : Nat) (f : Copy → Copy) : (s.modCopy id f).saved = s.saved := rfl
@[simp] theorem State.modCopy_mem (s : State) (id : Nat) (f : Copy → Copy) : (s.modCopy id f).mem = s.mem := rfl
@[simp] theorem State.modCopy_vault (s : State) (id : Nat) (f : Copy → Copy) : (s.modCopy id f).vault = s.vault := rfl
@[simp] theorem State.modCopy_homes (s : State) (id : Nat) (f : Copy → Copy) : (s.modCopy id f).homes = s.homes := rfl
@[simp] theorem State.modCopy_pages (s : State) (id : Nat) (f : Copy → Copy) : (s.modCopy id f).pages = s.pages := rfl
@[simp] theorem State.modCopy_l1 (s : State) (id : Nat) (f : Copy → Copy) : (s.modCopy id f).l1 = s.l1 := rfl
@[simp] theorem State.modCopy_poison (s : State) (id : Nat) (f : Copy → Copy) : (s.modCopy id f).poison = s.poison := rfl
@[simp] theorem State.modCopy_arrays (s : State) (id : Nat) (f : Copy → Copy) : (s.modCopy id f).arrays = s.arrays := rfl
@[simp] theorem State.modCopy_rows (s : State) (id : Nat) (f : Copy → Copy) : (s.modCopy id f).rows = s.rows := rfl
@[simp] theorem State.modCopy_queues (s : State) (id : Nat) (f : Copy → Copy) : (s.modCopy id f).queues = s.queues := rfl
@[simp] theorem State.modCopy_faultq (s : State) (id : Nat) (f : Copy → Copy) : (s.modCopy id f).faultq = s.faultq := rfl
@[simp] theorem State.modCopy_stopped (s : State) (id : Nat) (f : Copy → Copy) : (s.modCopy id f).stopped = s.stopped := rfl
theorem State.modCopy_only (s : State) (id : Nat) (f : Copy → Copy) : { s.modCopy id f with copies := s.copies } = s := rfl

/-! ### `modRow` changes `rows` -/

@[simp] theorem State.modRow_agenda (s : State) (id : Nat) (f : RowCmd → RowCmd) : (s.modRow id f).agenda = s.agenda := rfl
@[simp] theorem State.modRow_cur (s : State) (id : Nat) (f : RowCmd → RowCmd) : (s.modRow id f).cur = s.cur := rfl
@[simp] theorem State.modRow_ev (s : State) (id : Nat) (f : RowCmd → RowCmd) : (s.modRow id f).ev = s.ev := rfl
@[simp] theorem State.modRow_serial (s : State) (id : Nat) (f : RowCmd → RowCmd) : (s.modRow id f).serial = s.serial := rfl
@[simp] theorem State.modRow_ticks (s : State) (id : Nat) (f : RowCmd → RowCmd) : (s.modRow id f).ticks = s.ticks := rfl
@[simp] theorem State.modRow_time (s : State) (id : Nat) (f : RowCmd → RowCmd) : (s.modRow id f).time = s.time := rfl
@[simp] theorem State.modRow_groups (s : State) (id : Nat) (f : RowCmd → RowCmd) : (s.modRow id f).groups = s.groups := rfl
@[simp] theorem State.modRow_teams (s : State) (id : Nat) (f : RowCmd → RowCmd) : (s.modRow id f).teams = s.teams := rfl
@[simp] theorem State.modRow_launches (s : State) (id : Nat) (f : RowCmd → RowCmd) : (s.modRow id f).launches = s.launches := rfl
@[simp] theorem State.modRow_saved (s : State) (id : Nat) (f : RowCmd → RowCmd) : (s.modRow id f).saved = s.saved := rfl
@[simp] theorem State.modRow_mem (s : State) (id : Nat) (f : RowCmd → RowCmd) : (s.modRow id f).mem = s.mem := rfl
@[simp] theorem State.modRow_vault (s : State) (id : Nat) (f : RowCmd → RowCmd) : (s.modRow id f).vault = s.vault := rfl
@[simp] theorem State.modRow_homes (s : State) (id : Nat) (f : RowCmd → RowCmd) : (s.modRow id f).homes = s.homes := rfl
@[simp] theorem State.modRow_pages (s : State) (id : Nat) (f : RowCmd → RowCmd) : (s.modRow id f).pages = s.pages := rfl
@[simp] theorem State.modRow_l1 (s : State) (id : Nat) (f : RowCmd → RowCmd) : (s.modRow id f).l1 = s.l1 := rfl
@[simp] theorem State.modRow_poison (s : State) (id : Nat) (f : RowCmd → RowCmd) : (s.modRow id f).poison = s.poison := rfl
@[simp] theorem State.modRow_arrays (s : State) (id : Nat) (f : RowCmd → RowCmd) : (s.modRow id f).arrays = s.arrays := rfl
@[simp] theorem State.modRow_copies (s : State) (id : Nat) (f : RowCmd → RowCmd) : (s.modRow id f).copies = s.copies := rfl
@[simp] theorem State.modRow_queues (s : State) (id : Nat) (f : RowCmd → RowCmd) : (s.modRow id f).queues = s.queues := rfl
@[simp] theorem State.modRow_faultq (s : State) (id : Nat) (f : RowCmd → RowCmd) : (s.modRow id f).faultq = s.faultq := rfl
@[simp] theorem State.modRow_stopped (s : State) (id : Nat) (f : RowCmd → RowCmd) : (s.modRow id f).stopped = s.stopped := rfl
theorem State.modRow_only (s : State) (id : Nat) (f : RowCmd → RowCmd) : { s.modRow id f with rows := s.rows } = s := rfl

/-! ### `setNear` changes `banks` -/

@[simp] theorem State.setNear_agenda (s : State) (b : NearBank) : (s.setNear b).agenda = s.agenda := rfl
@[simp] theorem State.setNear_cur (s : State) (b : NearBank) : (s.setNear b).cur = s.cur := rfl
@[simp] theorem State.setNear_ev (s : State) (b : NearBank) : (s.setNear b).ev = s.ev := rfl
@[simp] theorem State.setNear_serial (s : State) (b : NearBank) : (s.setNear b).serial = s.serial := rfl
@[simp] theorem State.setNear_ticks (s : State) (b : NearBank) : (s.setNear b).ticks = s.ticks := rfl
@[simp] theorem State.setNear_time (s : State) (b : NearBank) : (s.setNear b).time = s.time := rfl
@[simp] theorem State.setNear_groups (s : State) (b : NearBank) : (s.setNear b).groups = s.groups := rfl
@[simp] theorem State.setNear_teams (s : State) (b : NearBank) : (s.setNear b).teams = s.teams := rfl
@[simp] theorem State.setNear_launches (s : State) (b : NearBank) : (s.setNear b).launches = s.launches := rfl
@[simp] theorem State.setNear_saved (s : State) (b : NearBank) : (s.setNear b).saved = s.saved := rfl
@[simp] theorem State.setNear_mem (s : State) (b : NearBank) : (s.setNear b).mem = s.mem := rfl
@[simp] theorem State.setNear_vault (s : State) (b : NearBank) : (s.setNear b).vault = s.vault := rfl
@[simp] theorem State.setNear_homes (s : State) (b : NearBank) : (s.setNear b).homes = s.homes := rfl
@[simp] theorem State.setNear_pages (s : State) (b : NearBank) : (s.setNear b).pages = s.pages := rfl
@[simp] theorem State.setNear_l1 (s : State) (b : NearBank) : (s.setNear b).l1 = s.l1 := rfl
@[simp] theorem State.setNear_poison (s : State) (b : NearBank) : (s.setNear b).poison = s.poison := rfl
@[simp] theorem State.setNear_arrays (s : State) (b : NearBank) : (s.setNear b).arrays = s.arrays := rfl
@[simp] theorem State.setNear_copies (s : State) (b : NearBank) : (s.setNear b).copies = s.copies := rfl
@[simp] theorem State.setNear_rows (s : State) (b : NearBank) : (s.setNear b).rows = s.rows := rfl
@[simp] theorem State.setNear_queues (s : State) (b : NearBank) : (s.setNear b).queues = s.queues := rfl
@[simp] theorem State.setNear_faultq (s : State) (b : NearBank) : (s.setNear b).faultq = s.faultq := rfl
@[simp] theorem State.setNear_stopped (s : State) (b : NearBank) : (s.setNear b).stopped = s.stopped := rfl
theorem State.setNear_only (s : State) (b : NearBank) : { s.setNear b with banks := s.banks } = s := rfl

/-! ### `setTex` changes `tex` -/

@[simp] theorem State.setTex_agenda (s : State) (q : TexReq) : (s.setTex q).agenda = s.agenda := rfl
@[simp] theorem State.setTex_cur (s : State) (q : TexReq) : (s.setTex q).cur = s.cur := rfl
@[simp] theorem State.setTex_ev (s : State) (q : TexReq) : (s.setTex q).ev = s.ev := rfl
@[simp] theorem State.setTex_serial (s : State) (q : TexReq) : (s.setTex q).serial = s.serial := rfl
@[simp] theorem State.setTex_ticks (s : State) (q : TexReq) : (s.setTex q).ticks = s.ticks := rfl
@[simp] theorem State.setTex_time (s : State) (q : TexReq) : (s.setTex q).time = s.time := rfl
@[simp] theorem State.setTex_groups (s : State) (q : TexReq) : (s.setTex q).groups = s.groups := rfl
@[simp] theorem State.setTex_teams (s : State) (q : TexReq) : (s.setTex q).teams = s.teams := rfl
@[simp] theorem State.setTex_launches (s : State) (q : TexReq) : (s.setTex q).launches = s.launches := rfl
@[simp] theorem State.setTex_saved (s : State) (q : TexReq) : (s.setTex q).saved = s.saved := rfl
@[simp] theorem State.setTex_mem (s : State) (q : TexReq) : (s.setTex q).mem = s.mem := rfl
@[simp] theorem State.setTex_vault (s : State) (q : TexReq) : (s.setTex q).vault = s.vault := rfl
@[simp] theorem State.setTex_homes (s : State) (q : TexReq) : (s.setTex q).homes = s.homes := rfl
@[simp] theorem State.setTex_pages (s : State) (q : TexReq) : (s.setTex q).pages = s.pages := rfl
@[simp] theorem State.setTex_l1 (s : State) (q : TexReq) : (s.setTex q).l1 = s.l1 := rfl
@[simp] theorem State.setTex_poison (s : State) (q : TexReq) : (s.setTex q).poison = s.poison := rfl
@[simp] theorem State.setTex_arrays (s : State) (q : TexReq) : (s.setTex q).arrays = s.arrays := rfl
@[simp] theorem State.setTex_copies (s : State) (q : TexReq) : (s.setTex q).copies = s.copies := rfl
@[simp] theorem State.setTex_rows (s : State) (q : TexReq) : (s.setTex q).rows = s.rows := rfl
@[simp] theorem State.setTex_queues (s : State) (q : TexReq) : (s.setTex q).queues = s.queues := rfl
@[simp] theorem State.setTex_faultq (s : State) (q : TexReq) : (s.setTex q).faultq = s.faultq := rfl
@[simp] theorem State.setTex_stopped (s : State) (q : TexReq) : (s.setTex q).stopped = s.stopped := rfl
theorem State.setTex_only (s : State) (q : TexReq) : { s.setTex q with tex := s.tex } = s := rfl

/-! ### `modCamera` changes `cameras` -/

@[simp] theorem State.modCamera_agenda (s : State) (n : Nat) (f : Camera → Camera) : (s.modCamera n f).agenda = s.agenda := rfl
@[simp] theorem State.modCamera_cur (s : State) (n : Nat) (f : Camera → Camera) : (s.modCamera n f).cur = s.cur := rfl
@[simp] theorem State.modCamera_ev (s : State) (n : Nat) (f : Camera → Camera) : (s.modCamera n f).ev = s.ev := rfl
@[simp] theorem State.modCamera_serial (s : State) (n : Nat) (f : Camera → Camera) : (s.modCamera n f).serial = s.serial := rfl
@[simp] theorem State.modCamera_ticks (s : State) (n : Nat) (f : Camera → Camera) : (s.modCamera n f).ticks = s.ticks := rfl
@[simp] theorem State.modCamera_time (s : State) (n : Nat) (f : Camera → Camera) : (s.modCamera n f).time = s.time := rfl
@[simp] theorem State.modCamera_groups (s : State) (n : Nat) (f : Camera → Camera) : (s.modCamera n f).groups = s.groups := rfl
@[simp] theorem State.modCamera_teams (s : State) (n : Nat) (f : Camera → Camera) : (s.modCamera n f).teams = s.teams := rfl
@[simp] theorem State.modCamera_launches (s : State) (n : Nat) (f : Camera → Camera) : (s.modCamera n f).launches = s.launches := rfl
@[simp] theorem State.modCamera_saved (s : State) (n : Nat) (f : Camera → Camera) : (s.modCamera n f).saved = s.saved := rfl
@[simp] theorem State.modCamera_mem (s : State) (n : Nat) (f : Camera → Camera) : (s.modCamera n f).mem = s.mem := rfl
@[simp] theorem State.modCamera_vault (s : State) (n : Nat) (f : Camera → Camera) : (s.modCamera n f).vault = s.vault := rfl
@[simp] theorem State.modCamera_homes (s : State) (n : Nat) (f : Camera → Camera) : (s.modCamera n f).homes = s.homes := rfl
@[simp] theorem State.modCamera_pages (s : State) (n : Nat) (f : Camera → Camera) : (s.modCamera n f).pages = s.pages := rfl
@[simp] theorem State.modCamera_l1 (s : State) (n : Nat) (f : Camera → Camera) : (s.modCamera n f).l1 = s.l1 := rfl
@[simp] theorem State.modCamera_poison (s : State) (n : Nat) (f : Camera → Camera) : (s.modCamera n f).poison = s.poison := rfl
@[simp] theorem State.modCamera_arrays (s : State) (n : Nat) (f : Camera → Camera) : (s.modCamera n f).arrays = s.arrays := rfl
@[simp] theorem State.modCamera_copies (s : State) (n : Nat) (f : Camera → Camera) : (s.modCamera n f).copies = s.copies := rfl
@[simp] theorem State.modCamera_rows (s : State) (n : Nat) (f : Camera → Camera) : (s.modCamera n f).rows = s.rows := rfl
@[simp] theorem State.modCamera_queues (s : State) (n : Nat) (f : Camera → Camera) : (s.modCamera n f).queues = s.queues := rfl
@[simp] theorem State.modCamera_faultq (s : State) (n : Nat) (f : Camera → Camera) : (s.modCamera n f).faultq = s.faultq := rfl
@[simp] theorem State.modCamera_stopped (s : State) (n : Nat) (f : Camera → Camera) : (s.modCamera n f).stopped = s.stopped := rfl
theorem State.modCamera_only (s : State) (n : Nat) (f : Camera → Camera) : { s.modCamera n f with cameras := s.cameras } = s := rfl

/-! ### `modSession` changes `sessions` -/

@[simp] theorem State.modSession_agenda (s : State) (n : Nat) (f : Session → Session) : (s.modSession n f).agenda = s.agenda := rfl
@[simp] theorem State.modSession_cur (s : State) (n : Nat) (f : Session → Session) : (s.modSession n f).cur = s.cur := rfl
@[simp] theorem State.modSession_ev (s : State) (n : Nat) (f : Session → Session) : (s.modSession n f).ev = s.ev := rfl
@[simp] theorem State.modSession_serial (s : State) (n : Nat) (f : Session → Session) : (s.modSession n f).serial = s.serial := rfl
@[simp] theorem State.modSession_ticks (s : State) (n : Nat) (f : Session → Session) : (s.modSession n f).ticks = s.ticks := rfl
@[simp] theorem State.modSession_time (s : State) (n : Nat) (f : Session → Session) : (s.modSession n f).time = s.time := rfl
@[simp] theorem State.modSession_groups (s : State) (n : Nat) (f : Session → Session) : (s.modSession n f).groups = s.groups := rfl
@[simp] theorem State.modSession_teams (s : State) (n : Nat) (f : Session → Session) : (s.modSession n f).teams = s.teams := rfl
@[simp] theorem State.modSession_launches (s : State) (n : Nat) (f : Session → Session) : (s.modSession n f).launches = s.launches := rfl
@[simp] theorem State.modSession_saved (s : State) (n : Nat) (f : Session → Session) : (s.modSession n f).saved = s.saved := rfl
@[simp] theorem State.modSession_mem (s : State) (n : Nat) (f : Session → Session) : (s.modSession n f).mem = s.mem := rfl
@[simp] theorem State.modSession_vault (s : State) (n : Nat) (f : Session → Session) : (s.modSession n f).vault = s.vault := rfl
@[simp] theorem State.modSession_homes (s : State) (n : Nat) (f : Session → Session) : (s.modSession n f).homes = s.homes := rfl
@[simp] theorem State.modSession_pages (s : State) (n : Nat) (f : Session → Session) : (s.modSession n f).pages = s.pages := rfl
@[simp] theorem State.modSession_l1 (s : State) (n : Nat) (f : Session → Session) : (s.modSession n f).l1 = s.l1 := rfl
@[simp] theorem State.modSession_poison (s : State) (n : Nat) (f : Session → Session) : (s.modSession n f).poison = s.poison := rfl
@[simp] theorem State.modSession_arrays (s : State) (n : Nat) (f : Session → Session) : (s.modSession n f).arrays = s.arrays := rfl
@[simp] theorem State.modSession_copies (s : State) (n : Nat) (f : Session → Session) : (s.modSession n f).copies = s.copies := rfl
@[simp] theorem State.modSession_rows (s : State) (n : Nat) (f : Session → Session) : (s.modSession n f).rows = s.rows := rfl
@[simp] theorem State.modSession_queues (s : State) (n : Nat) (f : Session → Session) : (s.modSession n f).queues = s.queues := rfl
@[simp] theorem State.modSession_faultq (s : State) (n : Nat) (f : Session → Session) : (s.modSession n f).faultq = s.faultq := rfl
@[simp] theorem State.modSession_stopped (s : State) (n : Nat) (f : Session → Session) : (s.modSession n f).stopped = s.stopped := rfl
theorem State.modSession_only (s : State) (n : Nat) (f : Session → Session) : { s.modSession n f with sessions := s.sessions } = s := rfl

/-! ### `modQueue` changes `queues` -/

@[simp] theorem State.modQueue_agenda (s : State) (n : Nat) (f : HostQueue → HostQueue) : (s.modQueue n f).agenda = s.agenda := rfl
@[simp] theorem State.modQueue_cur (s : State) (n : Nat) (f : HostQueue → HostQueue) : (s.modQueue n f).cur = s.cur := rfl
@[simp] theorem State.modQueue_ev (s : State) (n : Nat) (f : HostQueue → HostQueue) : (s.modQueue n f).ev = s.ev := rfl
@[simp] theorem State.modQueue_serial (s : State) (n : Nat) (f : HostQueue → HostQueue) : (s.modQueue n f).serial = s.serial := rfl
@[simp] theorem State.modQueue_ticks (s : State) (n : Nat) (f : HostQueue → HostQueue) : (s.modQueue n f).ticks = s.ticks := rfl
@[simp] theorem State.modQueue_time (s : State) (n : Nat) (f : HostQueue → HostQueue) : (s.modQueue n f).time = s.time := rfl
@[simp] theorem State.modQueue_groups (s : State) (n : Nat) (f : HostQueue → HostQueue) : (s.modQueue n f).groups = s.groups := rfl
@[simp] theorem State.modQueue_teams (s : State) (n : Nat) (f : HostQueue → HostQueue) : (s.modQueue n f).teams = s.teams := rfl
@[simp] theorem State.modQueue_launches (s : State) (n : Nat) (f : HostQueue → HostQueue) : (s.modQueue n f).launches = s.launches := rfl
@[simp] theorem State.modQueue_saved (s : State) (n : Nat) (f : HostQueue → HostQueue) : (s.modQueue n f).saved = s.saved := rfl
@[simp] theorem State.modQueue_mem (s : State) (n : Nat) (f : HostQueue → HostQueue) : (s.modQueue n f).mem = s.mem := rfl
@[simp] theorem State.modQueue_vault (s : State) (n : Nat) (f : HostQueue → HostQueue) : (s.modQueue n f).vault = s.vault := rfl
@[simp] theorem State.modQueue_homes (s : State) (n : Nat) (f : HostQueue → HostQueue) : (s.modQueue n f).homes = s.homes := rfl
@[simp] theorem State.modQueue_pages (s : State) (n : Nat) (f : HostQueue → HostQueue) : (s.modQueue n f).pages = s.pages := rfl
@[simp] theorem State.modQueue_l1 (s : State) (n : Nat) (f : HostQueue → HostQueue) : (s.modQueue n f).l1 = s.l1 := rfl
@[simp] theorem State.modQueue_poison (s : State) (n : Nat) (f : HostQueue → HostQueue) : (s.modQueue n f).poison = s.poison := rfl
@[simp] theorem State.modQueue_arrays (s : State) (n : Nat) (f : HostQueue → HostQueue) : (s.modQueue n f).arrays = s.arrays := rfl
@[simp] theorem State.modQueue_copies (s : State) (n : Nat) (f : HostQueue → HostQueue) : (s.modQueue n f).copies = s.copies := rfl
@[simp] theorem State.modQueue_rows (s : State) (n : Nat) (f : HostQueue → HostQueue) : (s.modQueue n f).rows = s.rows := rfl
@[simp] theorem State.modQueue_faultq (s : State) (n : Nat) (f : HostQueue → HostQueue) : (s.modQueue n f).faultq = s.faultq := rfl
@[simp] theorem State.modQueue_stopped (s : State) (n : Nat) (f : HostQueue → HostQueue) : (s.modQueue n f).stopped = s.stopped := rfl
theorem State.modQueue_only (s : State) (n : Nat) (f : HostQueue → HostQueue) : { s.modQueue n f with queues := s.queues } = s := rfl

/-! ### `modEhp` changes `ehp` -/

@[simp] theorem State.modEhp_agenda (s : State) (n : Nat) (f : Ehps → Ehps) : (s.modEhp n f).agenda = s.agenda := rfl
@[simp] theorem State.modEhp_cur (s : State) (n : Nat) (f : Ehps → Ehps) : (s.modEhp n f).cur = s.cur := rfl
@[simp] theorem State.modEhp_ev (s : State) (n : Nat) (f : Ehps → Ehps) : (s.modEhp n f).ev = s.ev := rfl
@[simp] theorem State.modEhp_serial (s : State) (n : Nat) (f : Ehps → Ehps) : (s.modEhp n f).serial = s.serial := rfl
@[simp] theorem State.modEhp_ticks (s : State) (n : Nat) (f : Ehps → Ehps) : (s.modEhp n f).ticks = s.ticks := rfl
@[simp] theorem State.modEhp_time (s : State) (n : Nat) (f : Ehps → Ehps) : (s.modEhp n f).time = s.time := rfl
@[simp] theorem State.modEhp_groups (s : State) (n : Nat) (f : Ehps → Ehps) : (s.modEhp n f).groups = s.groups := rfl
@[simp] theorem State.modEhp_teams (s : State) (n : Nat) (f : Ehps → Ehps) : (s.modEhp n f).teams = s.teams := rfl
@[simp] theorem State.modEhp_launches (s : State) (n : Nat) (f : Ehps → Ehps) : (s.modEhp n f).launches = s.launches := rfl
@[simp] theorem State.modEhp_saved (s : State) (n : Nat) (f : Ehps → Ehps) : (s.modEhp n f).saved = s.saved := rfl
@[simp] theorem State.modEhp_mem (s : State) (n : Nat) (f : Ehps → Ehps) : (s.modEhp n f).mem = s.mem := rfl
@[simp] theorem State.modEhp_vault (s : State) (n : Nat) (f : Ehps → Ehps) : (s.modEhp n f).vault = s.vault := rfl
@[simp] theorem State.modEhp_homes (s : State) (n : Nat) (f : Ehps → Ehps) : (s.modEhp n f).homes = s.homes := rfl
@[simp] theorem State.modEhp_pages (s : State) (n : Nat) (f : Ehps → Ehps) : (s.modEhp n f).pages = s.pages := rfl
@[simp] theorem State.modEhp_l1 (s : State) (n : Nat) (f : Ehps → Ehps) : (s.modEhp n f).l1 = s.l1 := rfl
@[simp] theorem State.modEhp_poison (s : State) (n : Nat) (f : Ehps → Ehps) : (s.modEhp n f).poison = s.poison := rfl
@[simp] theorem State.modEhp_arrays (s : State) (n : Nat) (f : Ehps → Ehps) : (s.modEhp n f).arrays = s.arrays := rfl
@[simp] theorem State.modEhp_copies (s : State) (n : Nat) (f : Ehps → Ehps) : (s.modEhp n f).copies = s.copies := rfl
@[simp] theorem State.modEhp_rows (s : State) (n : Nat) (f : Ehps → Ehps) : (s.modEhp n f).rows = s.rows := rfl
@[simp] theorem State.modEhp_queues (s : State) (n : Nat) (f : Ehps → Ehps) : (s.modEhp n f).queues = s.queues := rfl
@[simp] theorem State.modEhp_faultq (s : State) (n : Nat) (f : Ehps → Ehps) : (s.modEhp n f).faultq = s.faultq := rfl
@[simp] theorem State.modEhp_stopped (s : State) (n : Nat) (f : Ehps → Ehps) : (s.modEhp n f).stopped = s.stopped := rfl
theorem State.modEhp_only (s : State) (n : Nat) (f : Ehps → Ehps) : { s.modEhp n f with ehp := s.ehp } = s := rfl

/-! ### `modPort` changes `ports` -/

@[simp] theorem State.modPort_agenda (s : State) (n : Nat) (f : Port → Port) : (s.modPort n f).agenda = s.agenda := rfl
@[simp] theorem State.modPort_cur (s : State) (n : Nat) (f : Port → Port) : (s.modPort n f).cur = s.cur := rfl
@[simp] theorem State.modPort_ev (s : State) (n : Nat) (f : Port → Port) : (s.modPort n f).ev = s.ev := rfl
@[simp] theorem State.modPort_serial (s : State) (n : Nat) (f : Port → Port) : (s.modPort n f).serial = s.serial := rfl
@[simp] theorem State.modPort_ticks (s : State) (n : Nat) (f : Port → Port) : (s.modPort n f).ticks = s.ticks := rfl
@[simp] theorem State.modPort_time (s : State) (n : Nat) (f : Port → Port) : (s.modPort n f).time = s.time := rfl
@[simp] theorem State.modPort_groups (s : State) (n : Nat) (f : Port → Port) : (s.modPort n f).groups = s.groups := rfl
@[simp] theorem State.modPort_teams (s : State) (n : Nat) (f : Port → Port) : (s.modPort n f).teams = s.teams := rfl
@[simp] theorem State.modPort_launches (s : State) (n : Nat) (f : Port → Port) : (s.modPort n f).launches = s.launches := rfl
@[simp] theorem State.modPort_saved (s : State) (n : Nat) (f : Port → Port) : (s.modPort n f).saved = s.saved := rfl
@[simp] theorem State.modPort_mem (s : State) (n : Nat) (f : Port → Port) : (s.modPort n f).mem = s.mem := rfl
@[simp] theorem State.modPort_vault (s : State) (n : Nat) (f : Port → Port) : (s.modPort n f).vault = s.vault := rfl
@[simp] theorem State.modPort_homes (s : State) (n : Nat) (f : Port → Port) : (s.modPort n f).homes = s.homes := rfl
@[simp] theorem State.modPort_pages (s : State) (n : Nat) (f : Port → Port) : (s.modPort n f).pages = s.pages := rfl
@[simp] theorem State.modPort_l1 (s : State) (n : Nat) (f : Port → Port) : (s.modPort n f).l1 = s.l1 := rfl
@[simp] theorem State.modPort_poison (s : State) (n : Nat) (f : Port → Port) : (s.modPort n f).poison = s.poison := rfl
@[simp] theorem State.modPort_arrays (s : State) (n : Nat) (f : Port → Port) : (s.modPort n f).arrays = s.arrays := rfl
@[simp] theorem State.modPort_copies (s : State) (n : Nat) (f : Port → Port) : (s.modPort n f).copies = s.copies := rfl
@[simp] theorem State.modPort_rows (s : State) (n : Nat) (f : Port → Port) : (s.modPort n f).rows = s.rows := rfl
@[simp] theorem State.modPort_queues (s : State) (n : Nat) (f : Port → Port) : (s.modPort n f).queues = s.queues := rfl
@[simp] theorem State.modPort_faultq (s : State) (n : Nat) (f : Port → Port) : (s.modPort n f).faultq = s.faultq := rfl
@[simp] theorem State.modPort_stopped (s : State) (n : Nat) (f : Port → Port) : (s.modPort n f).stopped = s.stopped := rfl
theorem State.modPort_only (s : State) (n : Nat) (f : Port → Port) : { s.modPort n f with ports := s.ports } = s := rfl

/-! ### `modDir` changes `ports` -/

@[simp] theorem State.modDir_agenda (s : State) (n : Nat) (tx : Bool) (f : LinkDir → LinkDir) : (s.modDir n tx f).agenda = s.agenda := rfl
@[simp] theorem State.modDir_cur (s : State) (n : Nat) (tx : Bool) (f : LinkDir → LinkDir) : (s.modDir n tx f).cur = s.cur := rfl
@[simp] theorem State.modDir_ev (s : State) (n : Nat) (tx : Bool) (f : LinkDir → LinkDir) : (s.modDir n tx f).ev = s.ev := rfl
@[simp] theorem State.modDir_serial (s : State) (n : Nat) (tx : Bool) (f : LinkDir → LinkDir) : (s.modDir n tx f).serial = s.serial := rfl
@[simp] theorem State.modDir_ticks (s : State) (n : Nat) (tx : Bool) (f : LinkDir → LinkDir) : (s.modDir n tx f).ticks = s.ticks := rfl
@[simp] theorem State.modDir_time (s : State) (n : Nat) (tx : Bool) (f : LinkDir → LinkDir) : (s.modDir n tx f).time = s.time := rfl
@[simp] theorem State.modDir_groups (s : State) (n : Nat) (tx : Bool) (f : LinkDir → LinkDir) : (s.modDir n tx f).groups = s.groups := rfl
@[simp] theorem State.modDir_teams (s : State) (n : Nat) (tx : Bool) (f : LinkDir → LinkDir) : (s.modDir n tx f).teams = s.teams := rfl
@[simp] theorem State.modDir_launches (s : State) (n : Nat) (tx : Bool) (f : LinkDir → LinkDir) : (s.modDir n tx f).launches = s.launches := rfl
@[simp] theorem State.modDir_saved (s : State) (n : Nat) (tx : Bool) (f : LinkDir → LinkDir) : (s.modDir n tx f).saved = s.saved := rfl
@[simp] theorem State.modDir_mem (s : State) (n : Nat) (tx : Bool) (f : LinkDir → LinkDir) : (s.modDir n tx f).mem = s.mem := rfl
@[simp] theorem State.modDir_vault (s : State) (n : Nat) (tx : Bool) (f : LinkDir → LinkDir) : (s.modDir n tx f).vault = s.vault := rfl
@[simp] theorem State.modDir_homes (s : State) (n : Nat) (tx : Bool) (f : LinkDir → LinkDir) : (s.modDir n tx f).homes = s.homes := rfl
@[simp] theorem State.modDir_pages (s : State) (n : Nat) (tx : Bool) (f : LinkDir → LinkDir) : (s.modDir n tx f).pages = s.pages := rfl
@[simp] theorem State.modDir_l1 (s : State) (n : Nat) (tx : Bool) (f : LinkDir → LinkDir) : (s.modDir n tx f).l1 = s.l1 := rfl
@[simp] theorem State.modDir_poison (s : State) (n : Nat) (tx : Bool) (f : LinkDir → LinkDir) : (s.modDir n tx f).poison = s.poison := rfl
@[simp] theorem State.modDir_arrays (s : State) (n : Nat) (tx : Bool) (f : LinkDir → LinkDir) : (s.modDir n tx f).arrays = s.arrays := rfl
@[simp] theorem State.modDir_copies (s : State) (n : Nat) (tx : Bool) (f : LinkDir → LinkDir) : (s.modDir n tx f).copies = s.copies := rfl
@[simp] theorem State.modDir_rows (s : State) (n : Nat) (tx : Bool) (f : LinkDir → LinkDir) : (s.modDir n tx f).rows = s.rows := rfl
@[simp] theorem State.modDir_queues (s : State) (n : Nat) (tx : Bool) (f : LinkDir → LinkDir) : (s.modDir n tx f).queues = s.queues := rfl
@[simp] theorem State.modDir_faultq (s : State) (n : Nat) (tx : Bool) (f : LinkDir → LinkDir) : (s.modDir n tx f).faultq = s.faultq := rfl
@[simp] theorem State.modDir_stopped (s : State) (n : Nat) (tx : Bool) (f : LinkDir → LinkDir) : (s.modDir n tx f).stopped = s.stopped := rfl
theorem State.modDir_only (s : State) (n : Nat) (tx : Bool) (f : LinkDir → LinkDir) : { s.modDir n tx f with ports := s.ports } = s := rfl

/-! ### `modQp` changes `qps` -/

@[simp] theorem State.modQp_agenda (s : State) (n : Nat) (f : QueuePair → QueuePair) : (s.modQp n f).agenda = s.agenda := rfl
@[simp] theorem State.modQp_cur (s : State) (n : Nat) (f : QueuePair → QueuePair) : (s.modQp n f).cur = s.cur := rfl
@[simp] theorem State.modQp_ev (s : State) (n : Nat) (f : QueuePair → QueuePair) : (s.modQp n f).ev = s.ev := rfl
@[simp] theorem State.modQp_serial (s : State) (n : Nat) (f : QueuePair → QueuePair) : (s.modQp n f).serial = s.serial := rfl
@[simp] theorem State.modQp_ticks (s : State) (n : Nat) (f : QueuePair → QueuePair) : (s.modQp n f).ticks = s.ticks := rfl
@[simp] theorem State.modQp_time (s : State) (n : Nat) (f : QueuePair → QueuePair) : (s.modQp n f).time = s.time := rfl
@[simp] theorem State.modQp_groups (s : State) (n : Nat) (f : QueuePair → QueuePair) : (s.modQp n f).groups = s.groups := rfl
@[simp] theorem State.modQp_teams (s : State) (n : Nat) (f : QueuePair → QueuePair) : (s.modQp n f).teams = s.teams := rfl
@[simp] theorem State.modQp_launches (s : State) (n : Nat) (f : QueuePair → QueuePair) : (s.modQp n f).launches = s.launches := rfl
@[simp] theorem State.modQp_saved (s : State) (n : Nat) (f : QueuePair → QueuePair) : (s.modQp n f).saved = s.saved := rfl
@[simp] theorem State.modQp_mem (s : State) (n : Nat) (f : QueuePair → QueuePair) : (s.modQp n f).mem = s.mem := rfl
@[simp] theorem State.modQp_vault (s : State) (n : Nat) (f : QueuePair → QueuePair) : (s.modQp n f).vault = s.vault := rfl
@[simp] theorem State.modQp_homes (s : State) (n : Nat) (f : QueuePair → QueuePair) : (s.modQp n f).homes = s.homes := rfl
@[simp] theorem State.modQp_pages (s : State) (n : Nat) (f : QueuePair → QueuePair) : (s.modQp n f).pages = s.pages := rfl
@[simp] theorem State.modQp_l1 (s : State) (n : Nat) (f : QueuePair → QueuePair) : (s.modQp n f).l1 = s.l1 := rfl
@[simp] theorem State.modQp_poison (s : State) (n : Nat) (f : QueuePair → QueuePair) : (s.modQp n f).poison = s.poison := rfl
@[simp] theorem State.modQp_arrays (s : State) (n : Nat) (f : QueuePair → QueuePair) : (s.modQp n f).arrays = s.arrays := rfl
@[simp] theorem State.modQp_copies (s : State) (n : Nat) (f : QueuePair → QueuePair) : (s.modQp n f).copies = s.copies := rfl
@[simp] theorem State.modQp_rows (s : State) (n : Nat) (f : QueuePair → QueuePair) : (s.modQp n f).rows = s.rows := rfl
@[simp] theorem State.modQp_queues (s : State) (n : Nat) (f : QueuePair → QueuePair) : (s.modQp n f).queues = s.queues := rfl
@[simp] theorem State.modQp_faultq (s : State) (n : Nat) (f : QueuePair → QueuePair) : (s.modQp n f).faultq = s.faultq := rfl
@[simp] theorem State.modQp_stopped (s : State) (n : Nat) (f : QueuePair → QueuePair) : (s.modQp n f).stopped = s.stopped := rfl
theorem State.modQp_only (s : State) (n : Nat) (f : QueuePair → QueuePair) : { s.modQp n f with qps := s.qps } = s := rfl

/-! ### `modBudget` changes `budgets` -/

@[simp] theorem State.modBudget_agenda (s : State) (die tenant : Nat) (f : Budget → Budget) : (s.modBudget die tenant f).agenda = s.agenda := rfl
@[simp] theorem State.modBudget_cur (s : State) (die tenant : Nat) (f : Budget → Budget) : (s.modBudget die tenant f).cur = s.cur := rfl
@[simp] theorem State.modBudget_ev (s : State) (die tenant : Nat) (f : Budget → Budget) : (s.modBudget die tenant f).ev = s.ev := rfl
@[simp] theorem State.modBudget_serial (s : State) (die tenant : Nat) (f : Budget → Budget) : (s.modBudget die tenant f).serial = s.serial := rfl
@[simp] theorem State.modBudget_ticks (s : State) (die tenant : Nat) (f : Budget → Budget) : (s.modBudget die tenant f).ticks = s.ticks := rfl
@[simp] theorem State.modBudget_time (s : State) (die tenant : Nat) (f : Budget → Budget) : (s.modBudget die tenant f).time = s.time := rfl
@[simp] theorem State.modBudget_groups (s : State) (die tenant : Nat) (f : Budget → Budget) : (s.modBudget die tenant f).groups = s.groups := rfl
@[simp] theorem State.modBudget_teams (s : State) (die tenant : Nat) (f : Budget → Budget) : (s.modBudget die tenant f).teams = s.teams := rfl
@[simp] theorem State.modBudget_launches (s : State) (die tenant : Nat) (f : Budget → Budget) : (s.modBudget die tenant f).launches = s.launches := rfl
@[simp] theorem State.modBudget_saved (s : State) (die tenant : Nat) (f : Budget → Budget) : (s.modBudget die tenant f).saved = s.saved := rfl
@[simp] theorem State.modBudget_mem (s : State) (die tenant : Nat) (f : Budget → Budget) : (s.modBudget die tenant f).mem = s.mem := rfl
@[simp] theorem State.modBudget_vault (s : State) (die tenant : Nat) (f : Budget → Budget) : (s.modBudget die tenant f).vault = s.vault := rfl
@[simp] theorem State.modBudget_homes (s : State) (die tenant : Nat) (f : Budget → Budget) : (s.modBudget die tenant f).homes = s.homes := rfl
@[simp] theorem State.modBudget_pages (s : State) (die tenant : Nat) (f : Budget → Budget) : (s.modBudget die tenant f).pages = s.pages := rfl
@[simp] theorem State.modBudget_l1 (s : State) (die tenant : Nat) (f : Budget → Budget) : (s.modBudget die tenant f).l1 = s.l1 := rfl
@[simp] theorem State.modBudget_poison (s : State) (die tenant : Nat) (f : Budget → Budget) : (s.modBudget die tenant f).poison = s.poison := rfl
@[simp] theorem State.modBudget_arrays (s : State) (die tenant : Nat) (f : Budget → Budget) : (s.modBudget die tenant f).arrays = s.arrays := rfl
@[simp] theorem State.modBudget_copies (s : State) (die tenant : Nat) (f : Budget → Budget) : (s.modBudget die tenant f).copies = s.copies := rfl
@[simp] theorem State.modBudget_rows (s : State) (die tenant : Nat) (f : Budget → Budget) : (s.modBudget die tenant f).rows = s.rows := rfl
@[simp] theorem State.modBudget_queues (s : State) (die tenant : Nat) (f : Budget → Budget) : (s.modBudget die tenant f).queues = s.queues := rfl
@[simp] theorem State.modBudget_faultq (s : State) (die tenant : Nat) (f : Budget → Budget) : (s.modBudget die tenant f).faultq = s.faultq := rfl
@[simp] theorem State.modBudget_stopped (s : State) (die tenant : Nat) (f : Budget → Budget) : (s.modBudget die tenant f).stopped = s.stopped := rfl
theorem State.modBudget_only (s : State) (die tenant : Nat) (f : Budget → Budget) : { s.modBudget die tenant f with budgets := s.budgets } = s := rfl

/-! ### `setHome` changes `homes` -/

@[simp] theorem State.setHome_agenda (s : State) (h : Home) : (s.setHome h).agenda = s.agenda := rfl
@[simp] theorem State.setHome_cur (s : State) (h : Home) : (s.setHome h).cur = s.cur := rfl
@[simp] theorem State.setHome_ev (s : State) (h : Home) : (s.setHome h).ev = s.ev := rfl
@[simp] theorem State.setHome_serial (s : State) (h : Home) : (s.setHome h).serial = s.serial := rfl
@[simp] theorem State.setHome_ticks (s : State) (h : Home) : (s.setHome h).ticks = s.ticks := rfl
@[simp] theorem State.setHome_time (s : State) (h : Home) : (s.setHome h).time = s.time := rfl
@[simp] theorem State.setHome_groups (s : State) (h : Home) : (s.setHome h).groups = s.groups := rfl
@[simp] theorem State.setHome_teams (s : State) (h : Home) : (s.setHome h).teams = s.teams := rfl
@[simp] theorem State.setHome_launches (s : State) (h : Home) : (s.setHome h).launches = s.launches := rfl
@[simp] theorem State.setHome_saved (s : State) (h : Home) : (s.setHome h).saved = s.saved := rfl
@[simp] theorem State.setHome_mem (s : State) (h : Home) : (s.setHome h).mem = s.mem := rfl
@[simp] theorem State.setHome_vault (s : State) (h : Home) : (s.setHome h).vault = s.vault := rfl
@[simp] theorem State.setHome_pages (s : State) (h : Home) : (s.setHome h).pages = s.pages := rfl
@[simp] theorem State.setHome_l1 (s : State) (h : Home) : (s.setHome h).l1 = s.l1 := rfl
@[simp] theorem State.setHome_poison (s : State) (h : Home) : (s.setHome h).poison = s.poison := rfl
@[simp] theorem State.setHome_arrays (s : State) (h : Home) : (s.setHome h).arrays = s.arrays := rfl
@[simp] theorem State.setHome_copies (s : State) (h : Home) : (s.setHome h).copies = s.copies := rfl
@[simp] theorem State.setHome_rows (s : State) (h : Home) : (s.setHome h).rows = s.rows := rfl
@[simp] theorem State.setHome_queues (s : State) (h : Home) : (s.setHome h).queues = s.queues := rfl
@[simp] theorem State.setHome_faultq (s : State) (h : Home) : (s.setHome h).faultq = s.faultq := rfl
@[simp] theorem State.setHome_stopped (s : State) (h : Home) : (s.setHome h).stopped = s.stopped := rfl
theorem State.setHome_only (s : State) (h : Home) : { s.setHome h with homes := s.homes } = s := rfl

/-! ### `setRetention` changes `arrays` -/

@[simp] theorem State.setRetention_agenda (s : State) (a : Nat) (r : Retention) : (s.setRetention a r).agenda = s.agenda := rfl
@[simp] theorem State.setRetention_cur (s : State) (a : Nat) (r : Retention) : (s.setRetention a r).cur = s.cur := rfl
@[simp] theorem State.setRetention_ev (s : State) (a : Nat) (r : Retention) : (s.setRetention a r).ev = s.ev := rfl
@[simp] theorem State.setRetention_serial (s : State) (a : Nat) (r : Retention) : (s.setRetention a r).serial = s.serial := rfl
@[simp] theorem State.setRetention_ticks (s : State) (a : Nat) (r : Retention) : (s.setRetention a r).ticks = s.ticks := rfl
@[simp] theorem State.setRetention_time (s : State) (a : Nat) (r : Retention) : (s.setRetention a r).time = s.time := rfl
@[simp] theorem State.setRetention_groups (s : State) (a : Nat) (r : Retention) : (s.setRetention a r).groups = s.groups := rfl
@[simp] theorem State.setRetention_teams (s : State) (a : Nat) (r : Retention) : (s.setRetention a r).teams = s.teams := rfl
@[simp] theorem State.setRetention_launches (s : State) (a : Nat) (r : Retention) : (s.setRetention a r).launches = s.launches := rfl
@[simp] theorem State.setRetention_saved (s : State) (a : Nat) (r : Retention) : (s.setRetention a r).saved = s.saved := rfl
@[simp] theorem State.setRetention_mem (s : State) (a : Nat) (r : Retention) : (s.setRetention a r).mem = s.mem := rfl
@[simp] theorem State.setRetention_vault (s : State) (a : Nat) (r : Retention) : (s.setRetention a r).vault = s.vault := rfl
@[simp] theorem State.setRetention_homes (s : State) (a : Nat) (r : Retention) : (s.setRetention a r).homes = s.homes := rfl
@[simp] theorem State.setRetention_pages (s : State) (a : Nat) (r : Retention) : (s.setRetention a r).pages = s.pages := rfl
@[simp] theorem State.setRetention_l1 (s : State) (a : Nat) (r : Retention) : (s.setRetention a r).l1 = s.l1 := rfl
@[simp] theorem State.setRetention_poison (s : State) (a : Nat) (r : Retention) : (s.setRetention a r).poison = s.poison := rfl
@[simp] theorem State.setRetention_copies (s : State) (a : Nat) (r : Retention) : (s.setRetention a r).copies = s.copies := rfl
@[simp] theorem State.setRetention_rows (s : State) (a : Nat) (r : Retention) : (s.setRetention a r).rows = s.rows := rfl
@[simp] theorem State.setRetention_queues (s : State) (a : Nat) (r : Retention) : (s.setRetention a r).queues = s.queues := rfl
@[simp] theorem State.setRetention_faultq (s : State) (a : Nat) (r : Retention) : (s.setRetention a r).faultq = s.faultq := rfl
@[simp] theorem State.setRetention_stopped (s : State) (a : Nat) (r : Retention) : (s.setRetention a r).stopped = s.stopped := rfl
theorem State.setRetention_only (s : State) (a : Nat) (r : Retention) : { s.setRetention a r with arrays := s.arrays } = s := rfl

end Sys2Proof.Machine
end

