-- ==== Sys2Proof/Tests/Slice0.lean ====
section
/-! SUPPORT. Small tests: words of the spec decoded, ill-formed terms refused, single steps with results from the spec's own
examples, and a witness for the hypotheses of each statement. -/

namespace Sys2Proof.Tests

open Sys2Proof Sys2Proof.Machine

/-! ### A small machine -/

/-- A vault window of 8 blocks at the bottom of the vault, readable and writable. -/
def win : W64 := 0x0000000800000001

/-- A group of 32 lanes at 0x1000. -/
def group7 : Group :=
  { id := 7, team := 3, n := 256, m := 32, jenf := true, tenant := 1, lanes := List.replicate 32 { pc := 0x1000 },
    vwin := [win, 0, 0, 0] }

/-- Its team. -/
def team3 : Team := { id := 3, launch := 1, tenant := 1, lsBytes := 4096, vwin := [win, 0, 0, 0] }

/-- A page of the tenant at 16 KiB, at the same physical address. -/
def page1 : Page := { tenant := 1, va := 16384, pa := 16384, x := true }

/-- The machine with the group at an instruction of 8 bytes on some of its lanes. -/
def on (lanes : W32) : State :=
  { State.reset with
    groups := [group7]
    teams := [team3]
    pages := [page1]
    cur := { gid := 7, pc := 0x1000, size := 8, lanes := lanes, words := [2, 0], team := 3 } }

/-- The machine with its group changed. -/
def onG (lanes : W32) (f : Group → Group) : State := { on lanes with groups := [f group7] }

/-- Whether an issue is ready, as a test. -/
def readyB (s : State) (op : Op) (f : Full) : Bool :=
  (s.group? s.cur.gid).isSome &&
  (List.range 32).all (fun i => !inMask s.cur.lanes i ||
    (!((s.group s.cur.gid).lane i).ended && ((s.group s.cur.gid).lane i).pend == [])) &&
  (s.group s.cur.gid).tx.all (fun x => x.dead.isNone) && !s.unsafeIssue op f && (f.illegal op).isNone &&
  (f.named op).all (fun r => !r.outside (s.group s.cur.gid).n (s.group s.cur.gid).m) &&
  (s.group s.cur.gid).n ≤ 256 && (s.group s.cur.gid).m ≤ 32

theorem ready_of_readyB {s : State} {op : Op} {f : Full} (h : readyB s op f = true) : Ready s op f := by
  simp only [readyB, Bool.and_eq_true, List.all_eq_true, decide_eq_true_eq, Bool.not_eq_true', Option.isNone_iff_eq_none] at h
  obtain ⟨⟨⟨⟨⟨⟨⟨h1, h2⟩, h3⟩, h4⟩, h5⟩, h6⟩, h7⟩, h8⟩ := h
  refine ⟨h1, ?_, ?_, h4, h5, ?_, h7, h8⟩
  · intro i hi
    have hlt : i < 32 := by
      apply Classical.byContradiction
      intro hge
      simp only [inMask] at hi
      rw [BitVec.getLsbD_of_ge _ _ (by omega)] at hi
      exact absurd hi (by simp)
    have := h2 i (List.mem_range.mpr hlt)
    simpa [hi] using this
  · intro x hx
    rw [hx] at h3
    simpa using h3
  · intro r hr
    exact h6 r hr

/-- Whether no operand names a queue, as a test. -/
def plainB (op : Op) (f : Full) : Bool := (popQueueOf op f).isNone && (destQueue op f).isNone

theorem noQueue_of_plainB {op : Op} {f : Full} (h : plainB op f = true) : noQueue op f := by
  simpa [plainB, noQueue] using h

/-- Operands with `FAM` and the rest of the modifier. -/
def full (dst sa sb sc : Nat) (mod : Nat := 0) (lit : Option W32 := none) : Full :=
  { as := false, dst := BitVec.ofNat 8 dst, sa := BitVec.ofNat 8 sa, sb := BitVec.ofNat 8 sb, sc := BitVec.ofNat 8 sc,
    gp := 0, gn := false, la := 0, mod := BitVec.ofNat 6 mod, lit := lit }

/-- Operands of the compact form. -/
def comp : Comp := { as := false, dst := 4, src := 8, gp := 0, gn := false, mod := 0 }

/-- Whether a list of operations with operands meets what `Computes` asks, on the machine with every lane. -/
def computesAll (l : List (Op × Full)) : Bool :=
  l.all (fun x => readyB (on 0xFFFFFFFF) x.1 x.2 && plainB x.1 x.2 && x.2.la == 0)

/-! ### Witnesses: every lane instruction that computes has an issue that is ready (hypotheses of `Computes`) -/

/-- `IntegerArithmeticWritesFittedValue`, at the saturating code of `.SAT.I16` and at 0. -/
theorem witness_integer : computesAll [(.iadd, full 4 8 12 0 12), (.isub, full 4 8 12 0), (.imul, full 4 8 12 0 1),
    (.imulh, full 4 8 12 0), (.imin, full 4 8 12 0 1), (.imax, full 4 8 12 0), (.iabs, full 4 8 0 0), (.ineg, full 4 8 0 0),
    (.iadd, comp.expand), (.isub, comp.expand), (.imul, comp.expand), (.imin, comp.expand), (.imax, comp.expand)] = true := by
  decide

/-- `DivisionAndMultiplyAddValues`. -/
theorem witness_division : computesAll [(.idiv, full 4 8 12 0), (.irem, full 4 8 12 0 1), (.imad, full 4 8 12 16),
    (.imadw, full 4 8 12 16)] = true := by decide

/-- `ShiftAndLogicResults`. -/
theorem witness_shift : computesAll [(.shl, full 4 8 12 0 2), (.shr, full 4 8 12 0), (.sar, full 4 8 12 0), (.rol, full 4 8 12 0),
    (.and, full 4 8 12 0), (.or, full 4 8 12 0), (.xor, full 4 8 12 0), (.andn, full 4 8 12 0), (.not, full 4 8 0 0),
    (.shl, comp.expand), (.shr, comp.expand), (.sar, comp.expand), (.rol, comp.expand), (.and, comp.expand),
    (.or, comp.expand), (.xor, comp.expand), (.andn, comp.expand)] = true := by decide

/-- `MovesBitCountsAndAddresses`, with and without a literal. -/
theorem witness_moves : computesAll [(.clz, full 4 8 0 0), (.popc, full 4 8 0 0), (.brev, full 4 8 0 0), (.mov, full 4 8 0 0),
    (.movi, full 4 0 12 0), (.movi, full 4 0 0 0 0 (some 0x80000000)), (.sel, full 4 8 12 16), (.lea, full 4 8 12 16)]
    = true := by decide

/-- `ComparesAndPredicateLogic`. -/
theorem witness_compares : computesAll [(.icmp, full 4 8 12 0 12), (.pset, full 4 0 1 0), (.pand, full 4 8 12 0),
    (.por, full 4 8 12 0), (.pxor, full 4 8 12 0), (.pnot, full 4 8 0 0), (.pmov, full 4 8 0 0), (.pand, comp.expand),
    (.por, comp.expand), (.pxor, comp.expand)] = true := by decide

/-- `ScalarFloatResults`. -/
theorem witness_float : computesAll [(.fadd, full 4 8 12 0), (.fsub, full 4 8 12 0), (.fmul, full 4 8 12 0),
    (.ffma, full 4 8 12 16), (.fmin, full 4 8 12 0), (.fmax, full 4 8 12 0), (.fcmp, full 4 8 12 0), (.fclass, full 4 8 0 0),
    (.frnd, full 4 8 0 0), (.cvt, full 4 8 0 16), (.fadd, comp.expand), (.fsub, comp.expand), (.fmul, comp.expand),
    (.fmin, comp.expand), (.fmax, comp.expand)] = true := by decide

/-- `TranscendentalResults`. -/
theorem witness_transcendental : computesAll [(.frcp, full 4 8 0 0), (.frsq, full 4 8 0 0), (.fsqrt, full 4 8 0 0),
    (.fexp2, full 4 8 0 0), (.flog2, full 4 8 0 0), (.fsin, full 4 8 0 0), (.fcos, full 4 8 0 0)] = true := by decide

/-- `PackedFloatResults`. -/
theorem witness_packed : computesAll [(.hadd2, full 4 8 12 0), (.hfma2, full 4 8 12 16), (.badd2, full 4 8 12 0),
    (.bfma2, full 4 8 12 16), (.qadd4, full 4 8 12 0), (.qmul4, full 4 8 12 0), (.qcvt, full 4 8 12 0), (.hadd2, comp.expand),
    (.badd2, comp.expand), (.qadd4, comp.expand), (.qmul4, comp.expand)] = true := by decide

/-- `BitFieldResults` and `CrossLaneResults`. -/
theorem witness_bits : computesAll [(.bmm8, full 4 8 12 0), (.bmo8, full 4 8 12 0), (.bscat, full 4 8 12 0),
    (.bgath, full 4 8 12 0), (.bperm, full 4 8 12 0), (.bfx, full 4 8 12 16), (.bfi, full 4 8 12 16), (.fshl, full 4 8 12 16),
    (.fshr, full 4 8 12 16), (.matchLanes, full 4 8 0 0), (.vote, full 4 8 12 0), (.voteMc, full 4 8 0 0),
    (.shfl, full 4 8 12 0), (.redux, full 4 8 0 0)] = true := by decide

/-- `SpectralElementwiseResults` and `SpectralReductionAndMuellerResults`. -/
theorem witness_spectral : computesAll [(.wadd, full 4 8 12 0), (.wsub, full 4 8 12 0), (.wmul, full 4 8 12 0),
    (.wmin, full 4 8 12 0), (.wmax, full 4 8 12 0), (.wfma, full 4 8 12 16), (.wexp, full 4 8 0 0), (.wscl, full 4 8 12 0),
    (.wbcst, full 4 8 0 0), (.wset, full 4 8 12 0), (.wsel, full 4 8 12 16), (.wcvt, full 4 8 0 0), (.wadd, comp.expand),
    (.wsub, comp.expand), (.wmul, comp.expand), (.wmin, comp.expand), (.wmax, comp.expand), (.wget, full 4 8 0 0),
    (.wlen, full 4 0 0 0), (.wsum, full 4 8 0 0), (.wcmp, full 4 8 12 0), (.wpack, full 4 8 0 0), (.wfres, full 4 8 12 0),
    (.muelF, full 4 8 12 0), (.muelG, full 4 0 12 0), (.muelRot, full 4 8 12 0)] = true := by decide

/-- The instructions of `NopYieldNapExit`, `SystemRegisterReads` and `CopiesAndBarrierObjects` that only compute; the
system register read is `TIME`. -/
theorem witness_reads : computesAll [(.nop, full 0 0 0 0), (.clock, full 4 0 0 0), (.txstat, full 4 0 0 0),
    (.qstat, full 4 0 12 0), (.rdsr, full 4 0 0x20 0), (.tcstat, full 4 8 0 0)] = true ∧
    ((on 0xFFFFFFFF).readSr group7 0 (full 4 0 0x20 0).sr).isSome = true := by decide

/-- The clauses on forms that are not allowed: a literal of `IMADW`, a modifier or `p0` of a predicate operation, a count of
funnel shifts, a quorum of 35, and the boundary values of each. -/
theorem witness_illegal_forms : (full 4 8 12 16 0 (some 1)).lit.isSome = true ∧ (full 4 8 12 0 1).mod ≠ 0 ∧
    (full 0 8 12 0).dst = 0 ∧ 2 ≤ (full 4 0 2 0).sb.toNat ∧ ({ comp with dst := 0x40 } : Comp).dst.toNat = 64 ∧
    (full 4 8 12 16 0x3F).fam ≠ 0 ∧ (35 ≤ (full 4 8 35 0).sb.toNat ∧ (full 4 8 0 0).illegal .vote = none) ∧
    2 ≤ (full 4 8 0 0 0x3C).fam := by decide

/-! ### Witnesses: control and synchronisation (09) -/

/-- A ready issue without queue operands, on lanes that are enabled. -/
def readyPlain (s : State) (op : Op) (f : Full) : Bool := readyB s op f && plainB op f && !(s.enabledFor f).isEmpty

/-- `BranchesAndCallsTransfer`: the clauses of `BRA`, `CALL`, `BRX` and `RET`, in order. -/
theorem witness_branches : (readyPlain (on 0xFFFFFFFF) .bra (full 0 0 12 16) = true ∧
      (branchTarget (full 0 0 12 16) 0x1000).toNat % 4 = 0) ∧
    (readyPlain (on 0xFFFFFFFF) .call (full 4 0 12 16) = true ∧ (branchTarget (full 4 0 12 16) 0x1000).toNat % 4 = 0) ∧
    (readyPlain (on 0xFFFFFFFF) .brx (full 0 8 0 0) = true ∧
      ∀ i ∈ (on 0xFFFFFFFF).enabledFor (full 0 8 0 0), (srcA .brx (full 0 8 0 0) group7 i 0).toNat % 4 = 0) ∧
    (readyPlain (on 0xFFFFFFFF) .ret (full 0 8 0 0) = true ∧
      ∀ i ∈ (on 0xFFFFFFFF).enabledFor (full 0 8 0 0), (srcA .ret (full 0 8 0 0) group7 i 0).toNat % 4 = 0) := by decide

/-- The machine with a rejoin mask of its group. -/
def onMask (lanes mask : W32) : State := onG lanes (fun g => { g with j := [(8, mask)] })

/-- `RejoinMaskInstructions`: `JENR`, `JSTR`, `JCLR`; `JARR` with an enrolled lane still to come, as the last arrival, and
with enforcement off. -/
theorem witness_rejoin : readyPlain (on 1) .jenr (full 4 0 0 0) = true ∧ readyPlain (on 1) .jstr (full 4 0 0 0) = true ∧
    readyPlain (on 1) .jclr (full 4 0 0 0) = true ∧
    (readyPlain (onMask 1 3) .jarr (full 0 8 0 0) = true ∧
      (onMask 1 3).enabledFor (full 0 8 0 0) = [0] ∧ ((onMask 1 3).group 7).readJ 8 &&& ~~~1#32 ≠ 0) ∧
    (readyPlain (onMask 1 1) .jarr (full 0 8 0 0) = true ∧ ((onMask 1 1).group 7).readJ 8 &&& ~~~1#32 = 0) ∧
    readyPlain (onG 1 (fun g => { g with jenf := false })) .jarr (full 0 8 0 0) = true := by decide

/-- `NopYieldNapExit`, with another address at which the group is ready. -/
theorem witness_yield : readyPlain (on 1) .yield (full 0 0 0 0) = true ∧
    (let s := onG 1 (fun g => g.modLane 5 (fun l => { l with pc := 0x2000 }))
     readyPlain s .yield (full 0 0 0 0) = true ∧ ((s.readySets (s.group 7)).any (fun x => x.1 == 0x2000)) = true) ∧
    readyPlain (on 1) .nap (full 0 8 0 0) = true ∧ readyPlain (on 1) .exit (full 0 0 0 0) = true := by decide

/-- A group of a pool launch whose lane 0 has a record with an address in `g8:g9`. -/
def inPool : State :=
  { onG 1 (fun g => { g with pool := true }) with
    launches := [{ die := 0, num := 1, tenant := 1, desc := { kind := 1, ringLog2 := 2 } }] }

/-- The machine on lane 0, with 16,384 in `g8`. -/
def atPage : State := onG 1 (fun g => { g with g := [(8, 16384)] })

/-- `ContinuationsEnterTheRing`. -/
theorem witness_continuations : (readyPlain inPool .spawn (full 0 8 0 0) = true ∧ readyPlain inPool .cont (full 0 8 0 0) = true ∧
      inPool.enabledFor (full 0 8 0 0) = [0] ∧ inPool.drained 7 = true ∧
      spawnTrap (inPool.group 7) (recordOf (inPool.group 7) 0 8 0) = none ∧
      ((inPool.launch? 0 1).map (fun l => l.ring.length)) = some 0) ∧
    (readyPlain atPage .join (full 0 8 0 0) = true ∧ atPage.enabledFor (full 0 8 0 0) = [0] ∧ atPage.drained 7 = true ∧
      (srcA .join (full 0 8 0 0) (atPage.group 7) 0 0).toNat = 16384 ∧
      atPage.place (atPage.group 7) .global 16384 8 .write = .ok 16384) := by
  refine ⟨by decide, by decide, by decide, by decide, by decide, rfl⟩

/-- A team with a sequencer, a route tag, and room in a barrier. -/
def teamSeq : Team := { team3 with tag := some 0, seq := some {} }

/-- The machine with that team. -/
def onSeq : State := { on 1 with teams := [teamSeq] }

/-- `BarrierArrivals`. -/
theorem witness_barriers : readyPlain (on 1) .barTeam (full 0 0 0 0) = true ∧ readyPlain (on 1) .barNum (full 0 0 12 16) = true ∧
    (readyPlain onSeq .barTree (full 0 0 0 0) = true ∧ (onSeq.tag? 0 0).isSome = true ∧ (onSeq.team 3).tag = some 0) ∧
    (readyPlain onSeq .mbar (full 0 8 12 0) = true ∧ (onSeq.team 3).seq = some {} ∧ onSeq.drained 7 = true ∧
      (∀ i ∈ onSeq.enabledFor (full 0 8 12 0), low32 (srcA .mbar (full 0 8 12 0) group7 i 0) = 0) ∧
      ((onSeq.team 3).bar 12).latch = none) := by decide

/-- `LastTeamArrivalReleases`: the only group of the team has arrived, and its lane 0 waits. -/
theorem witness_team_release : let s := { onG 1 (fun g => g.modLane 0 (fun l => { l with wait := .team })) with
      teams := [{ team3 with barSet := 1 }] }
    s.team? 3 = some { team3 with barSet := 1 } ∧ (∀ n ∈ ({ team3 with barSet := 1 } : Team).liveNums, inMask 1 n = true) ∧
    ((s.group? 7).map (fun g => (g.team, (g.lane 0).wait))) = some (3, .team) := by decide

/-- `TakingATrapLoadsTheTrapRegisters`: two lanes trap, and the lower is reported. -/
theorem witness_trap : (on 1).group? 7 = some group7 ∧
    reportTrap [(0, { cause := 0x05, addr := 2 }), (31, { cause := 0x05, addr := 6 })] = some { cause := 0x05, addr := 2 } ∧
    ((on 1).faultq.getD (dieOfCore group7.core) []).length < 1024 ∧ dieOfCore group7.core < (on 1).faultq.length := by decide

/-- `SoftwareTrapsAndFirmwareCalls`: `TRAP` and `BKPT` with a session attached to the tenant, `BKPT` with none, `FWCALL`. -/
theorem witness_software_traps : (readyPlain (on 1) .trap (full 0 0 12 0) = true ∧ (on 1).launch? 0 1 = none) ∧
    (readyPlain { on 1 with debugs := [(1, 1)] } .bkpt (full 0 0 12 0) = true) ∧
    (readyPlain (on 1) .bkpt (full 0 0 12 0) = true ∧ (on 1).debugs = []) ∧
    (readyPlain (on 1) .fwcall (full 4 8 12 0) = true ∧ (on 1).writeBackGroup 7 = on 1 ∧
      ((on 1).group 7).wait = .none) := ⟨by decide, by decide, by decide, by decide, rfl, by decide⟩

/-- Operands that name a system register. -/
def sysReg (n : Nat) : Full := full 0 8 (n % 256) (n / 256)

/-- `SystemRegisterWrites`: the registers of its clauses, an unassigned number, and reserved bits. -/
theorem witness_system_writes : ([0x001, 0x002, 0x054, 0x058, 0x050, 0x010, 0x040].all (fun n =>
      readyPlain onSeq .wrsr (sysReg n) && (sysReg n).sr == n && onSeq.enabledFor (sysReg n) == [0])) = true ∧
    (onSeq.team? 3).bind (·.seq) = some {} ∧ onSeq.readSr group7 0 0x0FF = none ∧
    (readyPlain onSeq .wrsr (sysReg 0x0FF) = true ∧ (sysReg 0x0FF).sr = 0x0FF) ∧
    (onSeq.readSr group7 0 0x001).isSome = true ∧ srReserved 0x001 ≠ 0 := by decide

/-- `QueueBindingAndFlushing`: a flush of an unbound queue, a descriptor that binds a port, and the same binding again. -/
theorem witness_queue_binding : (readyPlain (on 1) .qflush (full 0 0 12 0) = true ∧
      ((on 1).flushQueue 7 [0] 12).isSome = true) ∧
    (let s := onG 1 (fun g => { g with g := [(8, 8)] })
     readyPlain s .qbind (full 0 8 12 0) = true ∧ s.bindOk (s.group 7) 12 8 = true ∧
       ((s.team 3).queue 12).port ≠ field 8 7 0 ∧ (s.flushQueue 7 [0] 12).isSome = true) ∧
    (readyPlain (on 1) .qbind (full 0 8 12 0) = true ∧ (on 1).bindOk group7 12 0 = true ∧
      (((on 1).team 3).queue 12).port = field 0 7 0) := by decide

/-- The machine with queue 2 of the team bound to a port, with entries. -/
def withQueue (port : Nat) (es : List QEntry) : State :=
  { on 1 with teams := [team3.modQueue 2 (fun _ => { port := port, entries := es })] }

/-- `QueueOperandsPushAndPop`: a `MOV` into queue 2 on the splat port with one place left, and one from the texture
result port. -/
theorem witness_queue_operands :
    (let f : Full := full 0x42 8 0 0 0x20
     let s := withQueue 8 (List.replicate 31 { val := 1 })
     readyB s .mov f = true ∧ popQueueOf .mov f = none ∧ destQueue .mov f = some 2 ∧ s.enabledFor f = [0] ∧
       ((s.team 3).queue 2).entries.length < portDepth 8) ∧
    (let f : Full := full 4 0x42 0 0 0x10
     let s := withQueue 6 [{ val := 9 }]
     readyB s .mov f = true ∧ popQueueOf .mov f = some 2 ∧ destQueue .mov f = none ∧ s.enabledFor f = [0]) := by decide

/-- `LookaheadKeepsTheOldValue`, at the longest window. -/
theorem witness_lookahead : let f : Full := { full 4 8 0 0 with la := 7 }
    readyPlain (on 1) .frcp f = true ∧ (on 1).enabledFor f = [0] := by decide

/-- `PairHalvesReadBeforeEitherWrites`: a swap of `g8` and `g1`. -/
theorem witness_pair : let h0 : Half := { op := .iadd, dst := 8, src := 1, gp := 0, gn := false, mod := 0 }
    let h1 : Half := { op := .and, dst := 14, src := 7, gp := 0, gn := false, mod := 0 }
    (Instr.p64Pair false h0 h1).wellFormed = true ∧ rangeTrap (.p64Pair false h0 h1) 256 32 = none ∧
    (∀ i, i < 32 → ((group7.lane i).ended = false ∧ (group7.lane i).pend = [])) := by decide

/-! ### Witnesses: memory (07, 11, 13, 17) -/

/-- Operands of an access of lane 0 to the page, with `f.dst` = 4 and the address in `g8:g9`. -/
def toPage (mod : Nat) : Full := full 4 8 0 0 mod

/-- Operands of an access to the local store, or to the vault, through `SPC` where the opcode has it. -/
def toAddr (addr mod : Nat) : Full := full 4 8 addr 0 mod

/-- A load that a space grants gives its bytes and keeps the group's registers. -/
def grants (s : State) (op : Op) (f : Full) (n : Nat) : Prop :=
  ∃ bs s1, s.load (s.group 7) 0 (spaceOf op f) (effAddr f (s.group 7) 0) n (hintOf (spaceOf op f) f) = .bytes bs s1 ∧
    AccessKeeps s s1

/-- A store that a space takes keeps the group's registers. -/
def takes (s : State) (op : Op) (f : Full) (n : Nat) : Prop :=
  ∃ s1, s.store (s.group 7) 0 (spaceOf op f) (effAddr f (s.group 7) 0) (storeData op f (s.group 7) 0 0 n)
      (hintOf (spaceOf op f) f) = .done s1 ∧ AccessKeeps s s1

/-- `LoadsWriteTheBytesRead`: the six loads, in global, local and vault space. -/
theorem witness_loads :
    (readyPlain atPage .ldG (toPage 4) = true ∧ grants atPage .ldG (toPage 4) 4) ∧
    (readyPlain (on 1) .ldL (toAddr 0 1) = true ∧ grants (on 1) .ldL (toAddr 0 1) 1) ∧
    (readyPlain (on 1) .ldV (toAddr 0 5) = true ∧ grants (on 1) .ldV (toAddr 0 5) 8) ∧
    (readyPlain atPage .ldv (full 4 8 0 0 1) = true ∧ grants atPage .ldv (full 4 8 0 0 1) (4 * runLen (full 4 8 0 0 1))) ∧
    (readyPlain atPage .tld (full 4 8 0 0) = true ∧ grants atPage .tld (full 4 8 0 0) (4 * runLen (full 4 8 0 0))) ∧
    (readyPlain atPage .ldw (full 4 8 0 0) = true ∧ grants atPage .ldw (full 4 8 0 0) 16) := by
  refine ⟨⟨by decide, ?_⟩, ⟨by decide, ?_⟩, ⟨by decide, ?_⟩, ⟨by decide, ?_⟩, ⟨by decide, ?_⟩, by decide, ?_⟩ <;>
    exact ⟨_, _, rfl, rfl, _, rfl⟩

/-- `StoresGiveTheirDataToTheSpace`: the six stores. -/
theorem witness_stores :
    (readyPlain atPage .stG (toPage 4) = true ∧ takes atPage .stG (toPage 4) 4) ∧
    (readyPlain (on 1) .stL (toAddr 0 0) = true ∧ takes (on 1) .stL (toAddr 0 0) 1) ∧
    (readyPlain (on 1) .stV (toAddr 0 5) = true ∧ takes (on 1) .stV (toAddr 0 5) 8) ∧
    (readyPlain atPage .stv (full 4 8 0 0 1) = true ∧ takes atPage .stv (full 4 8 0 0 1) (4 * runLen (full 4 8 0 0 1))) ∧
    (readyPlain atPage .tst (full 4 8 0 0) = true ∧ takes atPage .tst (full 4 8 0 0) (4 * runLen (full 4 8 0 0))) ∧
    (readyPlain atPage .stw (full 4 8 0 0) = true ∧ takes atPage .stw (full 4 8 0 0) 16) := by
  refine ⟨⟨by decide, ?_⟩, ⟨by decide, ?_⟩, ⟨by decide, ?_⟩, ⟨by decide, ?_⟩, ⟨by decide, ?_⟩, by decide, ?_⟩ <;>
    exact ⟨_, rfl, rfl, _, rfl⟩

/-- `LocalAndVaultAccessesAreExact`: the last word of the local store, and the last word of the window's first block. -/
theorem witness_local_vault : (let s := on 1
     s.team? 3 = some team3 ∧ 4092 % 4 = 0 ∧ 4092 + 4 ≤ team3.lsBytes ∧ team3.present 4092 = true ∧
       s.retention (localArray 0) = .active 0 ∧ s.poison = [] ∧ s.tests = []) ∧
    (vaultRange group7.vwin 65532 4 true = true ∧ (on 1).retention (arrayOf 0 65532) = .active 0 ∧ (on 1).vheld = [] ∧
      (on 1).pinned 0 (65532 / 128) none = false) := by decide

/-- `GlobalAccessesMeetTheirHome`: the first word of the page, read and written. -/
theorem witness_global : (on 1).group? 7 = some group7 ∧ (on 1).isRemote 16384 = false ∧ 16384 % 64 + 4 ≤ 64 ∧
    (on 1).poison = [] ∧ (on 1).tests = [] ∧ group7.tx = none ∧ (on 1).l1 = [] ∧ (on 1).homes = [] ∧ (on 1).msc = [] ∧ (on 1).mscB = [] ∧
    (on 1).rows = [] ∧ ((on 1).cores.getD 0 {}).l1ways = [] ∧
    (on 1).place group7 .global 16384 4 .read = .ok 16384 ∧ (on 1).place group7 .global 16384 4 .write = .ok 16384 :=
  ⟨by decide, by decide, by decide, by decide, by decide, by decide, by decide, by decide, by decide, by decide, by decide, by decide, rfl, rfl⟩

/-- `MisalignedAddressesTrap`: `RET` and `BRX` to 2, and an odd address. -/
theorem witness_misaligned : (let s := onG 1 (fun g => { g with g := [(8, 2)] })
     readyPlain s .ret (full 0 8 0 0) = true ∧ readyPlain s .brx (full 0 8 0 0) = true ∧
       s.enabledFor (full 0 8 0 0) = [0] ∧ (srcA .ret (full 0 8 0 0) (s.group 7) 0 0).toNat % 4 ≠ 0) ∧ 16385 % 4 ≠ 0 := by
  decide

/-- `AtomicsReturnTheOldValueAndWriteTheirs`: an atomic performed at once, one that a lease holds back, a compare and
swap; the compare value equal and not equal. -/
theorem witness_atomics : (readyPlain atPage .atom (toPage 0) = true ∧ ∃ v s1,
      atPage.atomic (atPage.group 7) 0 (spaceOf .atom (toPage 0)) (effAddr (toPage 0) (atPage.group 7) 0) 4 false
        (fun p => .atom p 0 0 0) = .old v s1 ∧ AccessKeeps atPage s1) ∧
    (let s := { atPage with homes := [{ line := 128, emax := 5 }] }
     readyPlain s .atom (toPage 0) = true ∧ ∃ n s1,
      s.atomic (s.group 7) 0 (spaceOf .atom (toPage 0)) (effAddr (toPage 0) (s.group 7) 0) 4 false
        (fun p => .atom p 0 0 0) = .owed n s1 ∧ AccessKeeps s s1) ∧
    (readyPlain atPage .atomCas (toPage 1) = true ∧ (toPage 1).xd = false ∧ ∃ v s1,
      atPage.atomic (atPage.group 7) 0 (spaceOf .atomCas (toPage 1)) (effAddr (toPage 1) (atPage.group 7) 0) 8 false
        (fun p => .cas p true 0 0) = .old v s1 ∧ AccessKeeps atPage s1) ∧
    BitVec.ofNat 64 (leVal (Memory.bytes [] 0 8)) = 0#64 ∧ BitVec.ofNat 64 (leVal (Memory.bytes [] 0 8)) ≠ 1#64 := by
  refine ⟨⟨by decide, _, _, rfl, rfl, _, rfl⟩, ⟨by decide, _, _, rfl, rfl, _, rfl⟩,
    ⟨by decide, by decide, _, _, rfl, rfl, _, rfl⟩, by decide, by decide⟩

/-- `CacheOperations`: on a line that the tenant may read, on one that it may not, and `LSPRES` at the last byte. -/
theorem witness_cache : (readyPlain atPage .cwb (full 0 8 0 0) = true ∧ readyPlain atPage .cinv (full 0 8 0 0) = true ∧
      readyPlain atPage .pref (full 0 8 0 0) = true ∧ spaceOf .cwb (full 0 8 0 0) = .global ∧
      atPage.translate 1 (effAddr (full 0 8 0 0) (atPage.group 7) 0) .read = .ok 16384 ∧
      atPage.remoteRefusal 16384 0 = none ∧ atPage.fetchHeld 16384 = false ∧ atPage.bankHeld 16384 = false) ∧
    (AccessKeeps atPage (atPage.writeBack 0 128 [(224, 1)]) ∧ AccessKeeps atPage ((atPage.writeBack 0 128 [(224, 1)]).dropL1 0 128) ∧
      AccessKeeps atPage ((atPage.l1Fetch 0 128 0 0).l1Fetch 0 128 1 0)) ∧
    (readyPlain (on 1) .cwb (full 0 8 0 0) = true ∧ ∃ e, (on 1).translate 1 (effAddr (full 0 8 0 0) group7 0) .read = .error e) ∧
    (readyPlain (on 1) .lspres (full 4 8 0 0 0 (some 4095)) = true ∧
      effAddr (full 4 8 0 0 0 (some 4095)) group7 0 < ((on 1).team 3).lsBytes) := by
  refine ⟨⟨by decide, by decide, by decide, by decide, rfl, rfl, by decide, by decide⟩, ⟨⟨rfl, _, rfl⟩, ⟨rfl, _, rfl⟩, rfl, _, rfl⟩,
    ⟨by decide, _, rfl⟩, by decide⟩

/-- The group at a wide fence of a domain, its completion time at 5. -/
def fenced (time : Nat) : State :=
  { onG 1 (fun g => { g with wait := .fence true true, wctime := 5 }) with
    time := time
    tstat := .locked }

/-- `FenceStallsTheGroup`: an issue; and the group at the last time at which its fence holds and at the first at which it is
over, at a domain and, with a row command's completion time of 5, at a narrow scope. -/
theorem witness_fence : (readyPlain (on 1) .fence (full 0 0 0 0 6) = true ∧ (on 1).unsafeIssue .fence (full 0 0 0 0 6) = false) ∧
    (((fenced 55).groups.map (fun (x : Group) => x.id)).Nodup ∧ (fenced 55).unperformed 7 = false ∧ (fenced 55).engineOwes 7 = false ∧
      (∀ l ∈ ((fenced 55).group 7).lanes, l.back ≤ (fenced 55).ticks) ∧ 5 + 50 ≤ (fenced 55).time ∧ ¬5 + 50 ≤ (fenced 54).time) ∧
    (let s := { onG 1 (fun g => { g with wait := .fence false false, rowtime := 5 }) with time := 5 }
     s.unreturned 7 = false ∧ (∀ l ∈ (s.group 7).lanes, l.back ≤ s.ticks) ∧ ((s.group 7).rowtime ≤ s.time) ∧ ¬5 ≤ 4) := by
  decide

/-- A transaction of lane 0 that has read and written nothing. -/
def inTx : State := onG 1 (fun g => { g with tx := some { lanes := 1, pd := 5, resume := 0x900 } })

/-- `TransactionsBeginCommitAndAbort`. -/
theorem witness_transactions : (readyPlain (on 1) .txbegin (full 4 0 0 0) = true ∧ group7.tx = none) ∧
    (readyPlain inTx .txcommit (full 4 0 0 0) = true ∧ maskOf (inTx.enabledFor (full 4 0 0 0)).contains = 1#32) ∧
    inTx.writeBackGroup 7 = inTx ∧
    (readyPlain inTx .txabort (full 0 8 0 0) = true ∧ inTx.enabledFor (full 0 8 0 0) = [0]) :=
  ⟨by decide, by decide, rfl, by decide⟩

/-! ### Witnesses: engines (10, 11, 13, 18, 20) -/

/-- The bytes of a list by their addresses, a zero byte unlisted. -/
def placed (a : Nat) (bs : List Byte) : List Host.Cell :=
  (List.range bs.length).filterMap (fun i => let b := bs.getD i 0; if b == 0 then none else some (a + i, b))

/-- A texture descriptor of one texel of a kind, or of three for kind 3. -/
def texBytes (kind : Nat) : List Byte :=
  leOf 8 16448 ++ leOf 2 (if kind == 3 then 3 else 1) ++ leOf 2 1 ++ leOf 2 1 ++ leOf 2 kind ++ leOf 4 0 ++ leOf 4 0x3F800000 ++
    leOf 8 16 ++ leOf 8 16 ++ leOf 24 0

/-- The machine on lane 0 with a texture of a kind at the page, and `g8:g9` zero. -/
def withTex (kind : Nat) : State :=
  { on 1 with
    teams := [{ team3 with texbase := 16384 }]
    mem := placed 16384 (texBytes kind) }

/-- `AccessKeeps`, as a test. -/
def keepsB (s s1 : State) : Bool := decide (s1.cur = s.cur) && (match s1.group? s.cur.gid with
  | some g => decide (g = { s.group s.cur.gid with wctime := g.wctime })
  | none => false)

theorem accessKeeps_of_keepsB {s s1 : State} (h : keepsB s s1 = true) : AccessKeeps s s1 := by
  unfold keepsB at h
  rw [Bool.and_eq_true, decide_eq_true_eq] at h
  refine ⟨h.1, ?_⟩
  split at h
  · rename_i g hg
    exact ⟨g.wctime, by rw [hg, ← of_decide_eq_true h.2]⟩
  · exact absurd h.2 (by simp)

/-- A texture instruction's descriptor and texels can be read, and reading them keeps the group's registers. -/
def texReads (s : State) (op : Op) (o : TexOp) (f : Full) (n : Nat) (lams : List W32) : Bool :=
  match s.descriptor (s.group 7) 0 n o.allows with
  | .ok d s1 =>
    let x := srcA op f (s.group 7) 0 0
    match s1.loadTexels (s.group 7) 0 d.size (texPlan o d (s.envFor f) (x.setWidth 32) (x.extractLsb' 32 32)
        (lams.take (s.group 7).width)).addrs with
    | .bits _ s2 => keepsB s s2
    | _ => false
  | _ => false

/-- `TextureAndSplatInstructions`: `TSMP.W`, `TUPS`, `TSMP.F`, `TFET` and `TQRY`. -/
theorem witness_textures :
    (readyPlain (withTex 1) .tsmpW (full 4 8 12 0) && texReads (withTex 1) .tsmpW .w (full 4 8 12 0) 0 (List.replicate 8 0)) = true ∧
    (readyPlain (withTex 3) .tups (full 4 8 0 0) && texReads (withTex 3) .tups .ups (full 4 8 0 0) 0 (List.replicate 8 0)) = true ∧
    (readyPlain (withTex 2) .tsmpF (full 4 8 0 0) && texReads (withTex 2) .tsmpF .f (full 4 8 0 0) 0 []) = true ∧
    (readyPlain (withTex 2) .tfet (full 4 8 0 0) && texReads (withTex 2) .tfet .fet (full 4 8 0 0) 0 []) = true ∧
    (readyPlain (withTex 2) .tqry (full 4 0 0 0) && (match (withTex 2).descriptor ((withTex 2).group 7) 0 0 (fun _ => true) with
      | .ok _ s2 => keepsB (withTex 2) s2
      | _ => false)) = true := by decide +kernel

/-- `TextureAndSplatInstructions`: a splat to camera 0 of the tenant, and one to camera 256. -/
theorem witness_splats : (let s := { on 1 with cameras := [{ num := 0, tenant := 1, cen := true }] }
     readyPlain s .fsplatW (full 0 8 12 16) = true ∧ s.cameraOk 0 1 0 = true ∧ ((s.group 7).readG 0 12).toNat < 256) ∧
    (let s := onG 1 (fun g => { g with g := [(12, 256)] })
     readyPlain s .fsplatW (full 0 8 12 16) = true ∧ 256 ≤ ((s.group 7).readG 0 12).toNat) := by decide

/-- `CopiesAndBarrierObjects`: an object at the start of the window with the counts 1 and 65,535, an arrival at it, a wait
that stalls and one that goes on, and the slices of both copies. -/
theorem witness_objects :
    (let s := onG 1 (fun g => { g with g := [(12, 65535)] })
     readyPlain s .bobjInit (full 0 8 12 0) = true ∧ vaultRange (s.group 7).vwin 0 64 true = true ∧
       s.retention (arrayOf 0 0) = .active 0 ∧ s.drained 7 = true ∧
       (srcB .bobjInit (full 0 8 12 0) (s.group 7) 0).toNat % 2 ^ 32 = 65535) ∧
    (let s := { on 1 with vault := placed 0 (objInit 2) }
     readyPlain s .bobjExpect (full 0 8 12 0) = true ∧
       ((s.setRetention (arrayOf 0 0) (.active s.time)).objOp 0 0 .arrive 0).isSome = true) ∧
    (readyPlain (on 1) .bobjWait (full 0 8 0 0) = true ∧ (on 1).phaseBit 0 0 = ((full 0 8 0 0).fam % 2 == 1)) ∧
    (readyPlain (on 1) .bobjWait (full 0 8 0 0 1) = true ∧ (on 1).phaseBit 0 0 ≠ ((full 0 8 0 0 1).fam % 2 == 1)) ∧
    (readyPlain (on 1) .tcopy (full 4 8 12 0) = true ∧ readyPlain (on 1) .tcopy2d (full 4 8 12 0) = true ∧
      (srcB .tcopy (full 4 8 12 0) group7 0) &&& 0x0000000300000003#64 = 0) ∧ (on 1).writeBackGroup 7 = on 1 :=
  ⟨by decide, by decide, by decide, by decide, by decide, rfl⟩

/-- `RowInstructionsSubmitCommands`: each command instruction with its descriptor at the page, and `ROW.WAIT` with none
and with one command of the team entered. -/
theorem witness_rows :
    (([.rowCopy, .rowFill, .rowAnd, .rowOr, .rowXor, .rowNot, .rowMaj, .rowAllb, .rowBcst, .rowMac, .rowSadd, .rowRdacc,
      .rowProg] : List Op).all (fun op => readyPlain atPage op (full 4 8 0 0) &&
        (srcA op (full 4 8 0 0) (atPage.group 7) 0 0).toNat == 16384)) = true ∧
    atPage.translate 1 16384 .read = .ok 16384 ∧ atPage.remoteRefusal 16384 16384 = none ∧ atPage.fetchHeld 16384 = false ∧
    AccessKeeps atPage (atPage.loadGlobal 0 16384 64 0 (some 7) (some 0)).2 ∧
    (let s := { on 1 with rows := [{ id := 9, team := 3, op := 0 }] }
     readyPlain s .rowWait (full 0 8 0 0) = true ∧ (on 1).rowsLive 3 ≤ 0 ∧ 0 < s.rowsLive 3) :=
  ⟨by decide, rfl, rfl, by decide, ⟨rfl, _, rfl⟩, by decide⟩

/-- The machine at an instruction of the team's sequencer. -/
def atSeq (q : Sequencer) : State :=
  { on 0 with
    teams := [{ team3 with seq := some q }]
    cur := { team := 3, size := 4 } }

/-- A sequencer that runs, its format set. -/
def running : Sequencer := { st := .running, fset := true }

theorem seqHere (q : Sequencer) : SeqHere (atSeq q) { team3 with seq := some q } q := ⟨rfl, rfl⟩

/-- A team with queue 2 bound to a port. -/
def seqQueue (port : Nat) (es : List QEntry) : State :=
  { atSeq running with teams := [{ team3 with seq := some running }.modQueue 2 (fun _ => { port := port, entries := es })] }

/-- `SequencerScalarAndControl`: the clauses with hypotheses of their own, in order: `MSET.Q` with an entry, with none and
unbound; `MSET.R`; `MLOOP` to a last and to a further turn; `STOP` with nothing and with an `MMA` pending; `MSIG` and `MWAIT`
at the largest count. -/
theorem witness_sequencer_control :
    (((seqQueue 3 [{ val := 5 }]).team 3).bound? 3 = some 2 ∧ ((seqQueue 3 [{ val := 5 }]).engineTake 3 2 false).isSome = true) ∧
    (((seqQueue 3 []).team 3).bound? 3 = some 2 ∧ ((seqQueue 3 []).engineTake 3 2 false).isSome = false) ∧
    (((seqQueue 4 []).team 3).bound? 4 = some 2 ∧ ((seqQueue 4 []).enginePush 3 2 0).isSome = true) ∧
    ((atSeq running).team 3).bound? 3 = none ∧
    (running.rx 4 ≠ 1 ∧ ({ running with x := [(4, 1)] } : Sequencer).rx 4 = 1) ∧
    (running.mma = [] ∧ (atSeq running).mstsDone 3 = true) ∧ (33#6).toNat ≤ 33 := by decide

/-- A sequencer with full slots and a running `MMA`'s operands: `x5` holds the stride 128. -/
def loaded : Sequencer :=
  { running with
    x := [(5, 256)]
    a := List.replicate 4 { full := true }
    b := List.replicate 4 { full := true } }

/-- `SequencerBlocksAndTiles`: a load of an empty slot, `MUNPIN`, an `MMA` of full slots, `MZERO`, `MSPARSE`, both stores
with no object, and a push of a tile. -/
theorem witness_sequencer_blocks :
    (let q := { running with x := [(5, 256)] }
     q.slotBusy 1 = false ∧ (q.slotAt 1).full = false ∧ (q.slotAt 5).full = false ∧ (q.rx 4).toNat % 32 = 0 ∧
       (q.rx 5).toNat % 32 = 0 ∧ rowLen q.mfmt ≤ (q.rx 5).toNat ∧
       (rowStarts 0 256).all (fun x => vaultRange team3.vwin x (rowLen q.mfmt) false) = true) ∧
    (loaded.tileBusy 2 = false ∧ loaded.slotBusy 1 = false ∧ loaded.slotBusy 5 = false ∧ (loaded.tile 2).valid = true ∧
      (loaded.slotAt 1).full = true ∧ (loaded.slotAt 5).full = true ∧ (loaded.slotAt 1).fmt = loaded.mfmt ∧
      (loaded.slotAt 5).fmt = loaded.mfmt ∧ (atSeq loaded).poison = [] ∧ loaded.mma = []) ∧
    ((rowStarts 0 256).all (fun x => vaultRange team3.vwin x 256 true) = true ∧
      (linesOf (rowStarts 0 256) 256).any (fun ln => (loaded.a ++ loaded.b).any (fun sl => sl.pins.contains ln)) = false ∧
      (loaded.rx 6).toNat = 0) ∧
    ((seqQueue 4 []).team 3).bound? 4 = some 2 := by decide

/-- A row program that runs step 0 of 32, its row open at row 0 of 2. -/
def program (open_ : Bool) : RowCmd :=
  { id := 9, team := 3, op := 12, rows := 2, st := .run, isOpen := open_, next := if open_ then 1 else 0, steps := List.replicate 32 0 }

/-- The machine at a step of it. -/
def atStep (c : RowCmd) (rpc rp : Nat) : State :=
  { on 0 with
    rows := [c]
    banks := [{ stack := 0, pch := 0, rpc := rpc, rp := rp }]
    cur := { team := 3, cmd := 9, size := 4 } }

/-- `RowProgramSteps`: `OPEN` before and at the last row, `CLR` and `LOOP` inside the list, a `MAC` of 1 and of 16 chunks, and
one that stops the program. -/
theorem witness_row_program : ((atStep (program false) 0 1).row? 9 = some (program false) ∧ 1 < (program false).rows ∧
      ((program false).steps.getD 1 0).extractLsb' 28 4 ≠ 1#4 ∧ (atStep (program false) 0 1).poison = [] ∧
      (atStep (program false) 0 1).tests = []) ∧
    (program false).rows ≤ ((atStep (program false) 0 2).near 0 0).rp ∧
    (30 + 1 ≤ 31 ∧ ((program false).steps.getD 31 0).extractLsb' 28 4 ≠ 1#4) ∧
    (1 ≤ (16#5).toNat ∧ (16#5).toNat ≤ 16 ∧ (48#6).toNat + (16#5).toNat ≤ 64 ∧ (program true).next ≠ 0 ∧
      (program true).chunks + 16 ≤ 64) ∧ 64 < (49#6).toNat + (16#5).toNat := by decide

/-! ### Witnesses: events of lanes, time, memory and engines -/

/-- The machine with an event about `obj` and `sub`. -/
def about (s : State) (obj : Nat) (sub : Nat := 0) (val : W64 := 0) : State :=
  { s with ev := { s.ev with obj := obj, sub := sub, val := val } }

/-- The machine with lane 0 changed and an event about it. -/
def lane0 (f : Lane → Lane) : State := about (onG 1 (fun g => g.modLane 0 f)) 7

/-- The machine with its group changed and an event about it. -/
def group0 (f : Group → Group) : State := about (onG 1 f) 7

/-- Lane 31 of the group, parked by a trap of lanes 0 and 31. -/
def trapped (g : Group) : Group :=
  { g.modLane 31 (fun l => { l with park := 5 }) with
    trapMask := 0x80000001
    trapCause := 0x0A
    trapAddr := 16384
    stopped := true }

/-- A transaction whose lanes are to abort. -/
def dying : Tx := { lanes := 3, pd := 5, resume := 0x900, dead := some (2, 7) }

/-- A pending result of `g4`. -/
def owing : Pend := { serial := 3, window := 0, cells := [(.g 4, some 5)] }

/-- The reset state in a state of the time base. -/
def timed (t : TimeState) (time : Nat) (src : W64) : State :=
  { State.reset with
    tstat := t
    time := time
    source := t == .locked
    ev := { val := src } }

/-- A line with queued writes, its performing time 5. -/
def holdHome (tx : Bool) : Home :=
  { line := 128, pt := some 5, queue := [{ gid := some 7, op := .store [(16384, 1)], tx := tx }] }

/-- The machine with that line held, at time 5, with an event about `obj`. -/
def withHome (obj : Nat) (tx : Bool) : State :=
  { about atPage obj with
    homes := [holdHome tx]
    time := 5 }

/-- An array of the core's vault in a retention state. -/
def withArray (r : Retention) : State :=
  { about (on 1) 3 with
    arrays := [(3, r)]
    time := 20000 }

/-- A running `MMA` of tile 2. -/
def mma1 : MmaOp := { t := 2, a := 1, b := 1, ka := true, kb := false, mode := 0, ftz := false }

/-- The machine with a sequencer and an event about its team. -/
def seqEvent (q : Sequencer) (sub : Nat) : State := about (atSeq q) 3 sub

/-- The array holds the team's oldest `MMA`. -/
def mmaDone : State :=
  let s := seqEvent { loaded with mma := [mma1] } 0
  { s with cores := modAt (fun (c : Core) => { c with array := some (3, 0) }) s.cores 0 }

/-- A block load of slot 1 that the vault has not performed. -/
def blockLoad : State := seqEvent (running.modSlot 1 (fun sl => { sl with full := true, loading := some (0, 256) })) 1

/-- An `MST` whose byte count is to be added to an object. -/
def mstDue (object : Nat) : State :=
  { seqEvent running 0 with
    msts := [{ num := 1, team := 3, die := 0, object := object, bytes := 5 }]
    vault := placed 1024 (objInit 2) }

/-- The slice of the group for the team's next copy. -/
def slice7 : Slice := { gid := 7, num := 0, two := false, desc := 0, word := 0, lanes := 1, here := 1, serial := 4 }

/-- The machine at the forming of that copy. -/
def forming (s : State) : State := { about s 3 with teams := [{ team3 with slices := [slice7] }] }

/-- A copy of two words that has moved both. -/
def copy9 (object status : Nat) : Copy :=
  { id := 9, cluster := 0, team := 3, rowBytes := 8, rows := 1, moved := 2, object := object, status := status,
    vwin := [win, 0, 0, 0], count := 8, slices := [slice7] }

/-- The machine at that copy's end. -/
def ending (object status : Nat) : State :=
  { about (on 1) 9 with
    copies := [copy9 object status]
    vault := placed 1024 (objInit 2) }

/-- A route tag of die 0 in the machine, with its holder and the time its phase ends. -/
def tagged (holder : Option (Nat × Option Nat)) (due : Option Nat) : State :=
  { about (on 1) 0 2 with
    tags := [{ die := 0, tag := 2, holder := holder, arrived := [3], due := due }]
    launches := [{ die := 0, num := 1, tenant := 1 }] }

/-- A launch of one team of one group. -/
def launch1 : Launch := { die := 0, num := 1, tenant := 1, desc := { count := 1 } }

/-- The reset state with launches and an event about die 0. -/
def launching (l : List Launch) (sub : Nat := 0) : State :=
  { about State.reset 0 sub with
    launches := l
    pages := [page1] }

/-- A record of the pool at 0x1000. -/
def record1 : Record := { code := 0x1000, frame := 1, join := 2, flags := 0, time := 0 }

/-- A pool launch with records in its ring. -/
def pool1 (rs : List Record) : Launch :=
  { die := 0, num := 1, tenant := 1, desc := { kind := 1, ringLog2 := 2 }, ring := rs }

/-- An object with one kernel, whose pool table declares the entry at text offset 0x1000. -/
def poolFile : List Byte :=
  leOf 4 0x00465757 ++ leOf 4 1 ++ leOf 4 0 ++ leOf 4 1 ++ leOf 16 0 ++ leOf 8 64 ++ leOf 8 80 ++ leOf 16 0 ++ leOf 8 0x1000 ++ leOf 8 0

/-- The pool launch with bin 0 of die 0. -/
def binned (rs : List Record) (b : Bin) : State :=
  { launching [pool1 rs] 1 with
    bins := [b :: List.replicate 63 .free, []]
    tables := [{ tenant := 1, kdesc := 0, file := poolFile }] }

/-- A pair whose members' descriptors stand one after the other. -/
def pairAt : State :=
  { about atPage 0 1 16384 with mem := placed 16384 (leOf 8 16512 ++ leOf 8 16640) }

/-- Every core but core 0 fenced, and core 0's local store held by the team of another launch. -/
def crowded : State :=
  { launching [{ die := 0, num := 2, tenant := 1, desc := { count := 1, lsBytes := 262144, opts := 0x20 } }] with
    teams := [team3]
    groups := [group7]
    cores := {} :: List.replicate 191 { fenced := [0, 1, 2, 3] } }

/-- A saved team of the launch, whose groups have all ended but for its record. -/
def saved3 : Saved := team3.toSaved [] 0

/-- A copy command with a state. -/
def copyCmd (st : RowState) : RowCmd :=
  { id := 9, team := 3, tenant := 1, gid := 7, op := 0, d := 16384, s0 := 18432, rows := 1, st := st }

/-- The machine at an event about that command. -/
def rowEvent (st : RowState) : State := { about atPage 9 with rows := [copyCmd st] }

/-- `WaitsOfLanesEnd`: its clauses, in order. -/
theorem witness_lane_waits :
    (let s := lane0 (fun l => { l with yield := 1 })
     ∃ g, s.group? s.ev.obj = some g ∧ s.ev.sub < g.lanes.length ∧ (g.lane 0).yield = 1) ∧
    (let s := lane0 (fun l => { l with park := 4 })
     ∃ g, s.group? s.ev.obj = some g ∧ (g.lane 0).park = 4 ∧ (g.lane 0).napEnd ≤ s.time) ∧
    (let s := lane0 (fun l => { l with pend := [owing] })
     ∃ g, s.group? s.ev.obj = some g ∧ (g.lane 0).pend = [{ serial := 3, window := 0, cells := [(.g 4, some 5)] }]) ∧
    (group0 trapped).faultPending 7 = false ∧
    (∃ g, (group0 (fun g => { g with tx := some dying })).group? 7 = some g ∧ g.tx = some dying ∧
      dying.dead = some (2, 7) ∧ ∀ j, j < 32 → inMask dying.lanes j = true → (g.lane j).ended = false ∧ (g.lane j).pend = []) := by
  refine ⟨⟨_, rfl, by decide, by decide⟩, ⟨_, rfl, by decide, by decide⟩, ⟨_, rfl, by decide⟩, by decide, ⟨_, rfl, rfl, rfl, by decide⟩⟩

/-- `TimeBaseMovesAsItsSourceAllows`: a count that follows a source and one that runs on, a first lock ahead of the count
and behind it, a holdover at both ends of the 20 ns, its end, and a return to lock. -/
theorem witness_time_base :
    (let s := timed .locked 50 0
     s.hold = 0 ∧ s.source = true ∧ s.time + (s.sub + 25005) / 40000 < 2 ^ 64) ∧
    (let s := timed .holdover 50 0
     s.hold = 0 ∧ s.source = false ∧ s.time + (s.sub + 24995 + s.rate) / 40000 < 2 ^ 64) ∧
    (timed .unlocked 50 50).time ≤ (50#64).toNat ∧ (49#64).toNat < (timed .unlocked 50 49).time ∧
    (timed .holdover 50 70).time + 20 = (70#64).toNat ∧
    (let s := { timed .holdover 50 0 with ticks := 800000000 }
     s.since + 800000000 ≤ s.ticks) ∧
    (let s := { timed .unsynced 50 30 with source := true }
     s.time ≤ s.ev.val.toNat + 20 ∧ s.ev.val.toNat ≤ s.time + 20) := by decide

/-- `MemoryEvents`: its clauses with hypotheses, in order. -/
theorem witness_memory_events : (about atPage 0 16384).fetchHeld 16384 = false ∧
    (let s := { about atPage 0 with ev := { sub := 16380, bytes := [1, 0, 3, 4] } }
     s.isRemote s.ev.sub = false ∧ s.ev.sub % 64 + s.ev.bytes.length = 64 ∧ s.homes = [] ∧ s.msc = [] ∧ s.mscB = [] ∧ s.tests = []) ∧
    (let s := withHome 128 false
     s.home s.ev.obj = holdHome false ∧ (holdHome false).pt = some 5 ∧ 5 ≤ s.time ∧ (holdHome false).queue = [{ gid := some 7, op := .store [(16384, 1)] }]) ∧
    (withHome 7 true).txLines 7 = [holdHome true] ∧
    (let s := about atPage 0 1 16384
     s.page? s.ev.sub s.ev.val.toNat = some page1 ∧ s.tlb.contains (s.ev.obj, page1) = false ∧
       s.tlb1.contains (s.ev.obj, page1) = false ∧ { s with tlb := [(0, page1)] }.tlb.contains (0, page1) = true) ∧
    (let s := about atPage 1 0 16384
     s.page? s.ev.obj s.ev.val.toNat = some page1 ∧ s.l1 = [] ∧ s.pageInUse page1 = false) ∧
    ((withArray (.active 0)).retention 3 = .active 0 ∧ (withArray (.active 0)).arrayBusy 3 = false ∧
      0 + (withArray (.active 0)).idle ≤ (withArray (.active 0)).time) ∧
    ((withArray (.entering 0 false)).retention 3 = .entering 0 false ∧ (withArray (.entering 0 true)).retention 3 = .entering 0 true ∧
      (withArray (.leaving 0)).retention 3 = .leaving 0 ∧ 0 ≤ (withArray (.leaving 0)).ticks) ∧ (on 1).meshDown.contains (1, 8, 9) = false := by decide

/-- `EngineEvents`: its clauses with hypotheses, in order. -/
theorem witness_engine_events :
    ((mmaDone.cores.getD 0 {}).array = some (3, 0) ∧ 0 ≤ mmaDone.ticks ∧ (mmaDone.seq? 3).map (fun q => q.mma) = some [mma1]) ∧
    ((blockLoad.seq? 3).map (fun q => (q.slotAt 1).loading) = some (some (0, 256)) ∧
      ((linesOf (rowStarts 0 256) 256).map (fun ln => arrayOf 0 (ln * 128))).eraseDups = [0] ∧
      blockLoad.retention 0 = .active 0 ∧ blockLoad.poison = [] ∧ blockLoad.tests = []) ∧
    ((mstDue 1024).msts.find? (fun (m : MstCount) => m.team == 3 && !(mstDue 1024).mstHeldBy m.num) =
        some { num := 1, team := 3, die := 0, object := 1024, bytes := 5 } ∧ (mstDue 0).msts.map (fun m => m.object) = [0]) ∧
    ((forming (on 1)).copies = [] ∧ ((forming (on 1)).team? 3).map (fun t => (forming (on 1)).canForm t) = some true) ∧
    ((ending 1024 0).copy? 9 = some (copy9 1024 0) ∧ (ending 1024 0).copyOver (copy9 1024 0) = true ∧
      (ending 1024 0).copies.filter (fun (x : Copy) => x.spilled) = []) ∧
    ((tagged none (some 0)).tag? 0 2).bind (fun x => x.due) = some 0 ∧ ((tagged none none).tag? 0 2).bind (fun x => x.holder) = none ∧
    ((tagged (some (1, none)) none).tag? 0 2).bind (fun x => x.holder) = some (1, none) := by decide +kernel

/-- `FrontEndEvents`: its clauses with hypotheses, in order. -/
theorem witness_front_end :
    (let s := about atPage 0 1 16384
     ∃ bs s1, s.tenantRead s.ev.sub s.ev.val.toNat 128 = (some bs, s1)) ∧
    (∃ pr pb cb s1 s2 s3, pairAt.tenantRead 1 16384 64 = (some pr, s1) ∧ s1.tenantRead 1 (fieldAt pr 0 8) 128 = (some pb, s2) ∧
      s2.tenantRead 1 (fieldAt pr 8 8) 128 = (some cb, s3) ∧ fieldAt pr 0 8 = 16512 ∧ fieldAt pr 8 8 = 16640) ∧
    ((launching [launch1]).hasUnit launch1 = true ∧ ((launching [launch1]).serve (launch1, (launching [launch1]).nextDeadline launch1)).isSome = true ∧
      (launching [launch1]).exhausted 0 1 = false) ∧
    (let s := binned [record1] (.bound false 1 0x1000 false [record1])
     (s.poolEntries (pool1 [])).any (fun o => (pool1 []).desc.code + w64 o == record1.code) = true ∧
       (List.range 64).find? (fun k => ((s.bins.getD 0 []).getD k .free).keyed 1 record1) = some 0 ∧
       (((s.bins.getD 0 []).getD 0 .free).store 1 record1).isSome = true) ∧
    (let s := { binned [] (.bound false 1 0x1000 false [record1]) with time := 2000, ev := {} }
     (s.bins.getD 0 []).getD 0 .free = .bound false 1 0x1000 false [record1] ∧ record1.time + s.poolAge 0 ≤ s.time) ∧
    (let s := binned [] (.bound true 1 0x1000 false [record1])
     (s.dueBins 0).map (fun c => (c.k, (s.pickCore 0 c.l.need (s.closedTo (s.binUnit c))).map (fun x => x.1))) = [(0, some 0)] ∧ (s.coresAwake [0]).1 = true ∧
       s.exhausted 0 1 = false) ∧
    (∃ l, crowded.launches = [l] ∧ l.die = 0 ∧ crowded.atRisk l = true ∧ crowded.reserves = [] ∧
      crowded.victimSet l [] = some ([0], [team3])) ∧
    (let s := launching [{ launch1 with desc := {} }] 1
     s.launchIdle { launch1 with desc := {} } = true ∧ s.launchQuiet { launch1 with desc := {} } = true) ∧
    (let s := launching [{ launch1 with after := some (0, 9) }] 1
     s.awaitsProducer { launch1 with after := some (0, 9) } = false) ∧
    (((on 1).groups.map (fun g => g.id)).foldl State.stopGroup (on 1)).team? 3 = some team3 ∧
    (let s := { launching [{ launch1 with next := 1 }] with saved := [saved3] }
     s.savedOk saved3 { launch1 with next := 1 } = true ∧ (s.pickCore 0 (saved3.need launch1) []).map (fun x => x.1) = some 0 ∧
       (s.coresAwake [0]).1 = true) := by
  refine ⟨⟨_, _, rfl⟩, ⟨_, _, _, _, _, _, rfl, rfl, rfl, by decide +kernel, by decide +kernel⟩, by decide +kernel, by decide +kernel,
    by decide, by decide +kernel, ⟨_, rfl, rfl, by decide +kernel, by decide +kernel⟩, by decide, by decide, rfl,
    by decide +kernel⟩

/-- `RowCommandEvents`: the states that its clauses name; a refresh of a bank that a running command holds, and of
another; a descriptor's address in the queue bound to port 7. -/
theorem witness_row_events :
    (let s := rowEvent .reading
     s.row? 9 = some (copyCmd .reading) ∧ s.canEnter (copyCmd .reading) = true ∧
       (s.modRow 9 (fun (c : RowCmd) => { c with st := RowState.entered })).row? 9 = some (copyCmd .entered)) ∧
    ((rowEvent .entered).row? 9 = some (copyCmd .entered) ∧ (rowEvent .entered).canStart (copyCmd .entered) = true) ∧
    (isRowOp (copyCmd .run).op = true ∧ isRowOp 12 = false ∧ (copyCmd .run).worked = false ∧
      (let c := { copyCmd .run with worked := true, held := [128] }
       { rowEvent .run with rows := [c] }.row? 9 = some c ∧ c.endsAs = none ∧ c.next + 1 = c.rows) ∧
      (let c := { copyCmd .run with op := 12, worked := true, endsAs := some 7 }
       { rowEvent .run with rows := [c] }.row? 9 = some c ∧ isRowOp c.op = false ∧ c.endsAs = some 7)) ∧
    ((rowEvent (.yield 6)).row? 9 = some (copyCmd (.yield 6)) ∧ (rowEvent (.yield 5)).askedFor (copyCmd (.yield 5)) = false ∧
      (let c := { copyCmd (.yield 5) with held := [128] }
       { rowEvent (.yield 5) with bankAsks := [(128, 1)] }.askedFor c = true)) ∧
    (rowEvent .refresh).row? 9 = some (copyCmd .refresh) ∧
    ((rowEvent .run).heldBanks (copyCmd .run) = [128, 144, 160, 176, 192, 208, 224, 240, 0, 16, 32, 48, 64, 80, 96, 112] ∧ (rowEvent .run).rowStack (copyCmd .run) = some 0 ∧
      (on 1).rows = [] ∧ (let c := { copyCmd .run with worked := true, held := [128] }
        [c].any (fun c => c.st == .run && c.worked && c.held.contains 128) = true)) ∧
    (let s := withQueue 7 [{ val := 5 }]
     s.preempting 3 = false ∧ s.portHeld (s.team 3) = false ∧ (s.team 3).bound? 7 = some 2 ∧ ((s.team 3).queue 2).entries = [{ val := 5 }] ∧
       ((s.team 3).queue 2).waiters = []) := by decide +kernel

/-! ### Witnesses: textures of the port, cameras, the host, firmware and the fabric -/

/-- A texture request of the team. -/
def texReq (stat : Option W64) : TexReq := { team := 3, queue := 2, val := 0, pkt8 := false, tenant := 1, stat := stat }

/-- A camera of one pixel with 100 ns frames, exposed for 10 ns. -/
def camera0 (frame : Nat) : Camera :=
  { num := 0, tenant := 1, cen := true, frame := frame,
    desc := { w := 1, h := 1, c := 1, epoch := 0, period := 100, expo := 10, frec := 16384, devdesc := 16896 } }

/-- The machine with that camera, at a time after the close of frame 1. -/
def withCamera (c : Camera) : State :=
  { about (on 1) 0 with
    cameras := [c]
    time := 250 }

/-- A splat to the camera. -/
def splat0 : Splat := { die := 0, gid := some 7, camera := 0, x := 0, y := 0, elems := [(0x3F800000, 0x40000000)] }

/-- An encode session of a frame of 8 × 2 pixels. -/
def session4 : Session := { num := 4, tenant := 1, w := 8, h := 2 }

/-- A fold of frame 0 that is due. -/
def fold0 (dev : Nat) : Fold := { frame := 0, at_ := 200, desc := { (camera0 1).desc with devdesc := dev } }

/-- A capability over the page. -/
def cap1 : Capability := { tag := true, otype := 0, perm := 3, len := 16384, base := 16384 }

/-- The bytes of a packet: opcode, and words at offsets 8, 16 and 24. -/
def packetBytes (op : Nat) (a b c : Nat) : List Byte := leOf 8 op ++ leOf 8 a ++ leOf 8 b ++ leOf 8 c

/-- A capability of firmware to what it says of a queue or a session (21 Table 21-2). -/
def capTo (otype : Nat) : Capability := { cap1 with otype := BitVec.ofNat _ otype }

/-- A host queue of tenant 1 whose ring stands at 16,384, with one packet to take. -/
def queue9 : HostQueue :=
  { num := 9, st := .run, tenant := 1, ringCap := capTo 1, stateCap := capTo 2, log2 := 4, wi := 1, qdata := cap1 }

/-- The machine with a packet at the head of that queue. -/
def packeted (bs : List Byte) : State := { about atPage 9 with queues := [queue9], mem := placed 16384 bs }

/-- An operator's session with no message taken. -/
def session1 : Ehps := { num := 1, keyed := true, key := capTo 5 }

/-- The machine with a message of that session about `obj`. -/
def message (obj : Nat) (f : Subject → Subject := id) : State :=
  { on 1 with
    ehp := [session1]
    ev := f { obj := obj, ehp := { session := 1, seq := 5, tagOk := true, clean := true } } }

/-- The machine with the group's fault at the head of a die's queue. -/
def faulted : State :=
  { about (onG 1 (fun g => { g with stopped := true, trapCause := 5 })) 0 with
    launches := [launch1]
    faultq := [[.group 7], []] }

/-- The group at a firmware call of lane 3. -/
def calling (svc : Nat) : State := group0 (fun g => { g with wait := .fwcall 8 svc 4 false 0 [5] })

/-- A port that is up. -/
def port5 : Port := { num := 5, up := true, tx := { fseq := 9 }, rx := { bank1 := true } }

/-- The machine with that port. -/
def ported (p : Port) (f : Subject → Subject := id) : State := { on 1 with ports := [p], ev := f { obj := 5 } }

/-- A request of module 2. -/
def request2 : RemoteReq := { src := 2, tag := 6, tenant := 1, addr := 16384, op := .load 8 }

/-- A queue pair with requests started and not completed. -/
def pair8 : QueuePair := { num := 8, tenant := 1, ring := 16384, log2 := 4, door := 24576, prod := 1,
                           started := [{ bytes := leOf 64 1 }] }

/-- A launch descriptor whose record address the capability covers. -/
def descBytes : List Byte := leOf 96 0 ++ leOf 8 20480 ++ leOf 24 0

/-- A packet, zeros to 64 bytes, and what stands after it in memory. -/
def packetThen (op a b c : Nat) (rest : List Byte) : State := packeted (packetBytes op a b c ++ leOf 32 0 ++ rest)

/-- A camera's descriptor: one pixel, one response value at 20,480, frames of 1,000 ns. -/
def cameraBytes : List Byte :=
  leOf 2 1 ++ leOf 2 1 ++ leOf 1 1 ++ leOf 1 0 ++ leOf 2 1 ++ leOf 8 0 ++ leOf 8 1000 ++ leOf 8 10 ++ leOf 8 0 ++ leOf 4 0 ++
    leOf 4 0x3F800000 ++ leOf 8 1 ++ leOf 8 20480 ++ leOf 40 0

/-- The packet that sets up session 4: 8 × 2 pixels, its ring at 20,480 of 1 MiB. -/
def sessionPacket : List Byte :=
  leOf 8 7 ++ leOf 8 4 ++ leOf 2 8 ++ leOf 2 2 ++ leOf 4 0 ++ leOf 8 0 ++ leOf 8 20480 ++ leOf 8 1048576

/-- `TexturePortCamerasAndSessions`: its clauses, in order. -/
theorem witness_cameras :
    (let s := { about (on 1) 3 with tex := [texReq (some 5)] }
     s.team? 3 = some team3 ∧ s.tex.find? (fun (x : TexReq) => x.team == 3) = some (texReq (some 5))) ∧
    ((texReq none).wait = false ∧ (texReq none).failed = 0 ∧ team3.texbase = 0) ∧
    ({ withCamera (camera0 1) with splats := [splat0] }.splats.find? (fun (x : Splat) => x.die == 0)) = some splat0 ∧
    (let s := withQueue 8 [{ val := 5 }]
     s.preempting 3 = false ∧ (s.team 3).bound? 8 = some 2 ∧ (s.engineTake 3 2 false).isSome = true ∧ (s.team 3).splat = []) ∧
    ((camera0 1).desc.lastClose 1 = 110 ∧
      (withCamera { camera0 2 with folds := [{ fold0 0 with at_ := 900 }] }).developing { camera0 2 with folds := [{ fold0 0 with at_ := 900 }] }
        (2 - 2) = true ∧ (camera0 2).desc.lastClose 2 ≤ 250) ∧
    ((fold0 0).at_ ≤ 250 ∧ (withCamera (camera0 1)).originQueued (foldMark 0 0) = false ∧
      (((on 1).tenantWrite 1 16384 ((fold0 0).record 0 250)).2).homeRead 1 0 128 = none ∧
      ((((on 1).tenantWrite 1 16384 ((fold0 0).record 0 250)).2).homeRead 1 16896 128).isSome = true) ∧
    (let s := { on 1 with teams := [team3.modQueue 2 (fun _ => { port := 9, inst := 4, entries := [{ val := 7 }] })] }
     s.encSource 4 = some (3, 2) ∧ (s.engineTake 3 2 false).isSome = true ∧ 0 + 1 < session4.frameEntries) := by decide +kernel

/-- Whether a packet of an opcode stands at the head of queue 9. -/
def packetB (s : State) (q : HostQueue) (op : Nat) : Bool :=
  s.queue? s.ev.obj == some q && (q.live && q.now.isNone && q.busy.isNone) && fieldAt (s.packet q) 0 1 == op &&
    (match packetUses op with
     | some u => packetReservedOk op u (s.packet q)
     | none => false)

theorem packetHere_of_packetB {s : State} {q : HostQueue} {op : Nat} (h : packetB s q op = true) :
    ∃ u, PacketHere s q op u := by
  unfold packetB at h
  split at h
  · rename_i u hu
    simp only [Bool.and_eq_true, beq_iff_eq, Option.isNone_iff_eq_none] at h
    exact ⟨u, ⟨h.1.1.1, ⟨h.1.1.2.1.1, h.1.1.2.1.2, h.1.1.2.2⟩, ⟨h.1.2, hu⟩, h.2⟩⟩
  · simp at h

/-- `HostPacketsTakeEffect`: its clauses, in order. -/
theorem witness_packets :
    (let s := packetThen 1 16448 0 0 descBytes
     packetB s queue9 1 = true ∧ (s.checkDesc queue9 16448).1 = none ∧ s.barred queue9 (s.packet queue9) = false) ∧
    (let q := { queue9 with launches := [(0, 1)] }
     let s := { packetThen 257 16448 0 0 descBytes with queues := [q], launches := [launch1] }
     packetB s q 1 = true ∧ (s.checkDesc q 16448).1 = none ∧ s.barred q (s.packet q) = true) ∧
    (let s := packetThen 1 16456 0 0 (leOf 8 0 ++ descBytes)
     packetB s queue9 1 = true ∧ (s.checkDesc queue9 16456).1 = some .argBad) ∧
    (let s := packetThen 2 16448 0 0 (leOf 8 16512 ++ leOf 8 16640 ++ leOf 48 0 ++ descBytes ++ descBytes)
     packetB s queue9 2 = true ∧ capAllows cap1 1 16448 64 = true ∧ (s.tenantRead 1 16448 64).1.isSome = true ∧
       (s.checkDesc queue9 16512).1 = none ∧ (s.checkDesc queue9 16640).1 = none) ∧
    (let s := packetThen 3 24576 7 0 []
     packetB s queue9 3 = true ∧ capAllows cap1 2 24576 8 = true ∧ (s.resolveAccess 1 24576 true).1 = true ∧
       s.translate 1 24576 .write = .ok 24576 ∧ (s.home 192).queue = []) ∧
    (let q := { queue9 with now := some [3], busy := some 192 }
     { packetThen 3 24576 7 0 [] with queues := [q] }.queue? 9 = some q ∧ q.busy = some 192 ∧ q.now = some [3]) ∧
    (let s := packetThen 4 24576 0 0 []
     packetB s queue9 4 = true ∧ capAllows cap1 1 24576 8 = true ∧ (s.resolveAccess 1 24576 false).1 = true ∧
       (s.tenantRead 1 24576 8).1.isSome = true ∧ s.barred queue9 (s.packet queue9) = false ∧
       s.barred { queue9 with launches := [(0, 1)] } (s.packet queue9) = false) ∧
    (let q := { queue9 with launches := [(0, 1)] }
     let s := { packetThen 260 24576 0 0 [] with queues := [q], launches := [launch1] }
     packetB s q 4 = true ∧ (s.resolveAccess 1 24576 false).1 = true ∧ s.barred q (s.packet q) = true) ∧
    (let s := { packetThen 5 1 0 0 [] with launches := [launch1] }
     packetB s queue9 5 = true ∧ s.launch? 0 1 = some launch1 ∧ launch1.spliced = false ∧ launch1.tenant = queue9.tenant ∧ launch1.ended = false ∧ s.endsNow launch1 = false) ∧
    (packetThen 5 1 0 0 []).launch? 0 1 = none ∧
    (let s := { packetThen 6 0 16448 0 cameraBytes with cameras := [camera0 1], grants := [(0, 2)] }
     packetB s queue9 6 = true ∧ capAllows cap1 1 16448 104 = true ∧ (s.tenantRead 1 16448 104).1 = some cameraBytes ∧
       cameraDescOk 1 cameraBytes = true ∧ (s.tenantRead 1 20480 4).1.isSome = true ∧ (camera0 1).cen = true ∧
       Sparse.get 0 s.grants 0 = queue9.tenant + 1 ∧ (s.cameraPacket queue9 (s.packet queue9)).1.isSome = true ∧
       s.barred queue9 (s.packet queue9) = false ∧ s.camera? 0 = some (camera0 1)) ∧
    (let s := packetThen 6 0 16448 0 cameraBytes
     packetB s queue9 6 = true ∧ (s.cameraPacket queue9 (s.packet queue9)).1.isNone = true) ∧
    (let q := { queue9 with qdata := { cap1 with len := 2097152 } }
     let s := { packeted sessionPacket with queues := [q], sessions := [session4], grants := [(260, 2)] }
     packetB s q 7 = true ∧ capAllows q.qdata 2 20480 1048576 = true ∧ sessionOk 8 2 1048576 = true ∧
       Sparse.get 0 s.grants 260 = q.tenant + 1 ∧ s.barred q (s.packet q) = false) ∧
    (0 + 8 * State.reset.qwdog ≤ 80000000000 ∧ State.reset.qwdog ≠ 0 ∧ packetUses 99 = none ∧ queue9.live = true ∧
      (let s := packetThen 1049089 16448 0 0 []
       fieldAt (s.packet queue9) 0 1 = 1 ∧ packetReservedOk 1 [(8, 8)] (s.packet queue9) = false)) := by
  refine ⟨by decide +kernel, by decide +kernel, by decide +kernel, by decide +kernel,
    ⟨by decide +kernel, by decide +kernel, by decide +kernel, rfl, by decide⟩, by decide +kernel, by decide +kernel,
    by decide +kernel, by decide +kernel, by decide +kernel, by decide +kernel, by decide +kernel, by decide +kernel,
    by decide +kernel⟩

/-- `OperatorMessages`: an accepted message, and what its clauses ask beside it. -/
theorem witness_messages : (∃ x, Accepted (message 9) x ∧ x.role = .operator ∧ (message 9).step = .ready) ∧
    ((67108864#64).toNat % (64 * 2 ^ 20) = 0 ∧ (message 9).queue? 9 = none) ∧
    ({ message 9 with queues := [queue9] }.queue? 9 = some queue9 ∧ queue9.ri ≤ (16#64).toNat ∧ 16 ≤ queue9.ri + 2 ^ queue9.log2 ∧
      queue9.ri + 2 ^ queue9.log2 < (17#64).toNat) ∧
    (portAt 0x4178 = some 47 ∧ portReserved &&& portReserved ≠ 0 ∧ 0#64 &&& portReserved = 0) ∧
    (let s := { message 0 with trialAt := some 0, slots := [{ st := .trial }, { st := .current }], ticks := 4800000000000 }
     s.running = some 0 ∧ (s.slots.getD 0 {}).st = .trial ∧ s.ticks ≤ 0 + 4800000000000) ∧
    ({ message 7 with delivered := [7] }.delivered.contains 7 = true ∧ (message 7).delivered = []) ∧
    ((message 7).debugOf 7 = none ∧ { message 7 with debugs := [(2, 7)] }.debugOf 7 = some 2 ∧
      { message 7 with debugs := [(2, 7)] }.debugs.contains (1, 7) = false) := by
  refine ⟨⟨session1, ⟨by decide, by decide, by decide, by decide⟩, rfl, rfl⟩, by decide, by decide, by decide, by decide, by decide, by decide⟩

/-- `HostLinkAndSpdm`: its clauses with hypotheses, in order. -/
theorem witness_host_link : (message 9).session? 2 = none ∧
    (({ session := 1, seq := 3, sent := 64 } : Event).last + 8000000 ≤ 8000000 ∧ (64 : Nat) < 65) ∧
    (let s := { about atPage 2 4 16384 with
                regions := [{ num := 2, tenant := 1, base := 16384, len := 16 }]
                hostQps := [0] }
     (s.region? 2 16384 2 true).isSome = true ∧ (s.region? 2 16384 4 false).isSome = true ∧
       (s.tenantWrite 1 16384 [1, 2]).1.isSome = true ∧ (s.tenantRead 1 16384 4).1.isSome = true ∧
       s.region? 2 16384 17 true = none ∧ s.hostQps.contains s.ev.aux = true) ∧
    (let s := { message 1 with events := [{ session := 1, seq := 5 }] }
     s.session? 1 = some session1 ∧ session1.admits s.ev.ehp s.ev.bytes = true) ∧
    (let s := message 1 (fun y => { y with bytes := [0x10, 0x84] })
     s.session? 1 = some session1 ∧ session1.top < 5 + 1024 ∧ spdmRequest (fieldAt s.ev.bytes 1 1) = some .getVersion) ∧
    (let s := { message 1 (fun y => { y with flag := true }) with ehp := [{ session1 with keyed := false }] }
     s.session? 1 = some { session1 with keyed := false } ∧ s.ev.flag = true ∧ { session1 with version := true }.version = true ∧
       { session1 with caps := true }.caps = true ∧ { session1 with algs := true }.algs = true ∧ session1.version = false) ∧
    (let s := { message 2 with ehp := [{ num := 0, algs := true }] }
     s.session? 2 = none ∧ (s.ehp.any (fun (x : Ehps) => x.num == 0 && x.algs)) = true) := by decide +kernel

/-- `FirmwareEvents`: its clauses, in order. -/
theorem witness_firmware :
    (faulted.faultq.getD 0 [] = [.group 7] ∧ faulted.faultWait.getD 0 [] = [] ∧ faulted.debugs = [] ∧
      (faulted.group? 7).map (fun g => (g.stopped, g.cause)) = some (true, 5)) ∧
    (let s := { about (group0 trapped) 7 with held := [(7, 0)], ticks := 80000000000 }
     s.held.find? (fun x => x.1 == 7) = some (7, 0) ∧ ((s.anyGroup? 7).map (fun g => s.resynced g)) = some false) ∧
    (((calling 5).group? 7).map (fun g => g.wait) = some (.fwcall (1#32 <<< 3) 5 4 false 0 [5]) ∧ (calling 5).drained 7 = true ∧
      (calling 5).services.contains 5 = false) ∧
    (((calling 0).group? 7).map (fun g => g.wait) = some (.fwcall (1#32 <<< 3) 0 4 false 0 [5]) ∧ (calling 0).drained 7 = true) ∧
    ((on 1).teams = [team3] ∧ team3.core = 0 ∧ (on 1).tests = [] ∧ State.reset.teams = []) ∧
    (let s := { State.reset with tests := [{ num := 4, kind := 1, loc := 3 }], ev := { obj := 4, flag := true } }
     (s.tests.find? (fun (x : PendingTest) => x.num == 4)).any (fun x => !x.lasting) = true) := by decide +kernel

/-- `StartsAndPower`: a start that waits, a trial that ran out, samples whose mean stands at the limit. -/
theorem witness_starts :
    ({ on 1 with step := .starting 0 false }.step = .starting 0 false ∧ bootOrder (on 1).slots = [0]) ∧
    (0 + 4800000000000 ≤ { on 1 with trialAt := some 0, ticks := 4800000000000 }.ticks) ∧
    ((on 1).avg.length < 100 ∧ (∀ d, ([105, 104] : List Nat).getD d 0 ≤ 105) ∧
      (on 1).plim * 1000 * ((on 1).avg.length + 1) ≥ ((on 1).avg ++ [2600000]).sum ∧ (on 1).gate = [0, 0]) := by
  refine ⟨by decide, by decide, by decide, ?_, by decide, by decide⟩
  intro d
  match d with
  | 0 => decide
  | 1 => decide
  | d + 2 => simp

/-- `FabricEvents`: its clauses with hypotheses, in order. -/
theorem witness_fabric :
    ((ported port5).port? 5 = some port5 ∧ port5.up = true ∧ port5.rx.holds true = true ∧ ({} : LinkDir).holds true = false) ∧
    (let p := { port5 with tx := { st := .installed, bank1 := true }, rx := { st := .switched, retry := some 0 } }
     (p.dir true).st = .installed ∧ (p.dir false).st = .switched ∧ (port5.dir true).st = .steady ∧ (p.dir false).retry = some 0) ∧
    (let s := { on 1 with ev := { reqs := [request2] }, tstat := .locked }
     s.tagsSeen = [] ∧ s.synced = true ∧ s.exported request2 = false) ∧ 799999 < 0 + 800000 ∧
    (let b : Backlog := { port := 5, target := 7, since := 0 }
     let s := { ported port5 (fun x => { x with sub := 7 }) with ticks := 16000, backlogs := [b] }
     s.backlogs.find? (fun (b : Backlog) => b.port == s.ev.obj && b.target == s.ev.sub) = some b ∧ b.since + 16000 ≤ s.ticks ∧
       b.hint.all (fun t => t + 40000 ≤ s.ticks) = true ∧ 15999 < b.since + 16000) ∧
    (let s := { about atPage 8 0 17 with qps := [pair8], mem := placed 16384 (leOf 8 1), outPorts := List.replicate 6 true }
     s.qps.find? (fun (q : QueuePair) => q.num == 8) = some pair8 ∧ (17#64).toNat - pair8.prod ≤ 2 ^ pair8.log2 ∧
       pair8.error = false ∧ pair8.started = [{ bytes := leOf 64 1 }] ∧ s.qpPort pair8.num = some 2 ∧
       { s with outPorts := [] }.qpPort pair8.num = none ∧ fieldAt (leOf 64 1) 0 8 = 1) := by decide +kernel

/-! ### Witnesses: the machine -/

/-- The machine with words of code at the page, lane 0 at the first, and its issue on the agenda. -/
def atCode (ws : List W32) (f : Group → Group := id) : State :=
  { onG 0 (fun g => f (g.modLane 0 (fun l => { l with pc := 16384 }))) with
    mem := placed 16384 (ws.flatMap (fun w => leOf 4 w.toNat))
    agenda := [.lane 7 16384 0xFFFFFFFF] }

/-- The machine with a sequencer whose code stands at the page. -/
def atSeqCode (w : W32) : State :=
  { seqEvent { running with pc := 16384 } 0 with
    mem := placed 16384 (leOf 4 w.toNat)
    agenda := [.seq 3] }

/-- `StepRunsDecodedInstruction`: an issue of a lane, of a sequencer, and of a row program's step. -/
theorem witness_step :
    (let s := { atCode [0xA080600A, 0x0C000000] with agenda := [] }
     ∃ g, s.group? 7 = some g ∧ g.canIssue s.time = true ∧ (s.readyAt g true 16384).filter (inMask 0xFFFFFFFF) ≠ [] ∧
       s.fetchWord g.core g.tenant 16384 = .ok 0xA080600A ∧ s.fetchWords g.core g.tenant 16388 1 = ([0x0C000000], none) ∧
       decodeWords [0xA080600A, 0x0C000000] = .ok (.iadd (full 3 4 5 0 12)) ∧
       rangeTrap (.iadd (full 3 4 5 0 12)) g.n g.m = none ∧ g.eccDetail ((s.readyAt g true 16384).filter (inMask 0xFFFFFFFF)) (.iadd (full 3 4 5 0 12)) = none) ∧
    (let s := { atSeqCode 0x30000800 with agenda := [] }
     ∃ t q, s.team? 3 = some t ∧ t.seq = some q ∧ q.st = .running ∧ s.preempting 3 = false ∧ s.underTest 6 (t.core * 4 + q.slot) = false ∧ s.textHeld t.tenant q.pc = false ∧
       (match s.fetchSeq t q.pc.toNat with
        | .ok x => x.1 == 0x30000800
        | .error _ => false) = true ∧ decodeSeq 0x30000800 = .ok (.mwait 0 2)) ∧
    (let s := atStep { program true with steps := List.replicate 32 0x20008000 } 0 1
     ∃ c, s.row? 9 = some c ∧ c.st = .run ∧ decodeStep (c.steps.getD (s.near c.stack c.pch).rpc 0) = some (.macb 0 0 2)) := by
  refine ⟨⟨_, rfl, rfl, ?_, rfl, rfl, ?_, ?_, ?_⟩, ⟨_, _, rfl, rfl, rfl, rfl, ?_, ?_, ?_, ?_⟩, ⟨_, rfl, rfl, ?_⟩⟩ <;> decide +kernel

/-- `StepsKeepGlobalAndVaultMemoryCanonical`: memory at reset, and memory with bytes listed. -/
theorem witness_canonical : State.reset.canonical ∧ (packeted (packetBytes 3 24576 7 0)).canonical :=
  ⟨⟨by decide, by decide⟩, ⟨by decide +kernel, by decide⟩⟩

/-- `DecodeInvertsEncode`: an instruction of each stream. -/
theorem witness_round_trip : (Instr.wellFormed (.iadd (full 3 4 5 0 12)) = true ∧ (Instr.iadd (full 3 4 5 0 12)).stream = .lane) ∧
    (Instr.wellFormed (.mwait 0 33) = true ∧ (Instr.mwait 0 33).stream = .sequencer) ∧
    (Instr.wellFormed (.macb 7 48 16) = true ∧ (Instr.macb 7 48 16).stream = .rowProgram) := by decide

/-! ### Decoding: words written out from the tables of the spec -/

/-- Whether words of 8 bytes decode to what stands beside them. -/
def reads (l : List (W32 × W32 × Instr)) : Bool := l.all (fun x => decodeWords [x.1, x.2.1] == .ok x.2.2)

/-- Whether words of 4 bytes decode to what stands beside them. -/
def readsCompact (l : List (W32 × Instr)) : Bool := l.all (fun x => decodeWords [x.1] == .ok x.2)

/-- 03 Table 3-2: integer, address and predicate, by the words of each. -/
theorem decode_integer : reads
    ([(0xA141000A, 0x00000001, .iadd (full 8 10 13 0)), (0xA1410012, 0x00000001, .isub (full 8 10 13 0)),
      (0xA141001A, 0x00000001, .imul (full 8 10 13 0)), (0xA1410022, 0x00000001, .imulh (full 8 10 13 0)),
      (0xA141002A, 0x000001E1, .imad (full 8 10 13 15)), (0xA1410032, 0x000001C1, .imadw (full 8 10 13 14)),
      (0xA141003A, 0x00000001, .idiv (full 8 10 13 0)), (0xA1410042, 0x00000001, .irem (full 8 10 13 0)),
      (0xA141004A, 0x00000001, .imin (full 8 10 13 0)), (0xA1410052, 0x00000001, .imax (full 8 10 13 0))]) = true ∧ reads
    ([(0x0141005A, 0x00000000, .iabs (full 8 10 0 0)), (0x01410062, 0x00000000, .ineg (full 8 10 0 0)),
      (0xA1410082, 0x00000001, .shl (full 8 10 13 0)), (0xA141008A, 0x00000001, .shr (full 8 10 13 0)),
      (0xA1410092, 0x00000001, .sar (full 8 10 13 0)), (0xA141009A, 0x00000001, .rol (full 8 10 13 0)),
      (0xA14100C2, 0x00000001, .and (full 8 10 13 0)), (0xA14100CA, 0x00000001, .or (full 8 10 13 0)),
      (0xA14100D2, 0x00000001, .xor (full 8 10 13 0)), (0xA14100DA, 0x00000001, .andn (full 8 10 13 0))]) = true ∧ reads
    ([(0x014100E2, 0x00000000, .not (full 8 10 0 0)), (0x01410102, 0x00000002, .lea (full 8 10 16 0)),
      (0xA141010A, 0x00000041, .sel (full 8 10 13 2)), (0x01410112, 0x00000000, .mov (full 8 10 0 0)),
      (0x0001011A, 0x00000000, .movi (full 8 0 0 0)), (0x01410142, 0x00000000, .clz (full 8 10 0 0)),
      (0x0141014A, 0x00000000, .popc (full 8 10 0 0)), (0x01410152, 0x00000000, .brev (full 8 10 0 0)),
      (0xA1406182, 0x00000001, .icmp (full 3 10 13 0)), (0x0000618A, 0x00000000, .pset (full 3 0 0 0))]) = true ∧ reads
    ([(0xC0A06192, 0x00000000, .pand (full 3 5 6 0)), (0xC0A0619A, 0x00000000, .por (full 3 5 6 0)),
      (0xC0A061A2, 0x00000000, .pxor (full 3 5 6 0)), (0x00A061AA, 0x00000000, .pnot (full 3 5 0 0)),
      (0x00A061B2, 0x00000000, .pmov (full 3 5 0 0)), (0x014101C2, 0x00000000, .cvt (full 8 10 0 0))]) = true := by decide +kernel

/-- 03 Table 3-3: scalar and packed floating point, by the words of each. -/
theorem decode_float : reads
    ([(0xA1410802, 0x00000001, .fadd (full 8 10 13 0)), (0xA141080A, 0x00000001, .fsub (full 8 10 13 0)),
      (0xA1410812, 0x00000001, .fmul (full 8 10 13 0)), (0xA141081A, 0x000001E1, .ffma (full 8 10 13 15)),
      (0xA1410822, 0x00000001, .fmin (full 8 10 13 0)), (0xA141082A, 0x00000001, .fmax (full 8 10 13 0)),
      (0xA1406832, 0x00000001, .fcmp (full 3 10 13 0)), (0x01410842, 0x00000000, .frcp (full 8 10 0 0)),
      (0x0141084A, 0x00000000, .frsq (full 8 10 0 0)), (0x01410852, 0x00000000, .fsqrt (full 8 10 0 0))]) = true ∧ reads
    ([(0x0141085A, 0x00000000, .fexp2 (full 8 10 0 0)), (0x01410862, 0x00000000, .flog2 (full 8 10 0 0)),
      (0x0141086A, 0x00000000, .fsin (full 8 10 0 0)), (0x01410872, 0x00000000, .fcos (full 8 10 0 0)),
      (0x01410882, 0x00000000, .fclass (full 8 10 0 0)), (0x0141088A, 0x00000000, .frnd (full 8 10 0 0)),
      (0xA1410C02, 0x00000001, .hadd2 (full 8 10 13 0)), (0xA1410C0A, 0x000001E1, .hfma2 (full 8 10 13 15)),
      (0xA1410C12, 0x00000001, .badd2 (full 8 10 13 0)), (0xA1410C1A, 0x000001E1, .bfma2 (full 8 10 13 15))]) = true ∧ reads
    ([(0xA1410C22, 0x00000001, .qadd4 (full 8 10 13 0)), (0xA1410C2A, 0x00000001, .qmul4 (full 8 10 13 0)),
      (0xA1410C32, 0x00000001, .qcvt (full 8 10 13 0))]) = true := by decide +kernel

/-- 03 Table 3-4: bits, match and spectral, by the words of each. -/
theorem decode_spectral : reads
    ([(0x81410E02, 0x00000001, .bmm8 (full 8 10 12 0)), (0x81410E0A, 0x00000001, .bmo8 (full 8 10 12 0)),
      (0x81410E12, 0x00000001, .bscat (full 8 10 12 0)), (0x81410E1A, 0x00000001, .bgath (full 8 10 12 0)),
      (0x81410E22, 0x00000002, .bperm (full 8 10 20 0)), (0xA1410E42, 0x000001E1, .bfx (full 8 10 13 15)),
      (0xA1410E4A, 0x000001E1, .bfi (full 8 10 13 15)), (0xA1410E52, 0x000001E1, .fshl (full 8 10 13 15)),
      (0xA1410E5A, 0x000001E1, .fshr (full 8 10 13 15)), (0x01410E82, 0x00000000, .matchLanes (full 8 10 0 0))]) = true ∧ reads
    ([(0x00A06E8A, 0x00000000, .vote (full 3 5 0 0)), (0x00A10E92, 0x00000000, .voteMask (full 8 5 0 0)),
      (0x00A10E92, 0x01000000, .voteCnt (full 8 5 0 0 1)), (0xA1410EA2, 0x00000001, .shfl (full 8 10 13 0)),
      (0x01410EAA, 0x00000000, .redux (full 8 10 0 0)), (0x41209002, 0x00000000, .wadd (full 4 9 2 0)),
      (0x4120900A, 0x00000000, .wsub (full 4 9 2 0)), (0x41209012, 0x00000000, .wmul (full 4 9 2 0)),
      (0x4120901A, 0x00000020, .wfma (full 4 9 2 1)), (0x41209022, 0x00000000, .wmin (full 4 9 2 0))]) = true ∧ reads
    ([(0x4120902A, 0x00000000, .wmax (full 4 9 2 0)), (0x01209032, 0x00000000, .wexp (full 4 9 0 0)),
      (0xA120903A, 0x00000001, .wscl (full 4 9 13 0)), (0x01409042, 0x00000000, .wbcst (full 4 10 0 0)),
      (0xA120904A, 0x00000001, .wset (full 4 9 13 0)), (0x01211052, 0x00000000, .wget (full 8 9 0 0)),
      (0x01211062, 0x00000000, .wsum (full 8 9 0 0)), (0x4121106A, 0x00000000, .wcmp (full 8 9 2 0)),
      (0x41209072, 0x000001E0, .wsel (full 4 9 2 15)), (0x01209082, 0x00000000, .wcvt (full 4 9 0 0))]) = true ∧ reads
    ([(0x4121108A, 0x00000000, .wfres (full 8 9 2 0)), (0x01221092, 0x00000000, .wpack (full 16 9 0 0)),
      (0x0001109A, 0x00000000, .wlen (full 8 0 0 0)), (0x818110C2, 0x00000000, .muelF (full 8 12 4 0)),
      (0x820110CA, 0x00000000, .muelG (full 8 16 4 0)), (0x418110D2, 0x00000000, .muelRot (full 8 12 2 0)),
      (0x81001102, 0x00000201, .fsplatW (full 0 8 12 16))]) = true := by decide +kernel

/-- 03 Table 3-5: memory, atomics, tiles and transactions, by the words of each. -/
theorem decode_memory : reads
    ([(0x01411402, 0x00000002, .ldG (full 8 10 16 0)), (0x0141140A, 0x00000002, .ldL (full 8 10 16 0)),
      (0x01411412, 0x00000002, .ldV (full 8 10 16 0)), (0x01411422, 0x00000002, .stG (full 8 10 16 0)),
      (0x0141142A, 0x00000002, .stL (full 8 10 16 0)), (0x01411432, 0x00000002, .stV (full 8 10 16 0)),
      (0x01421442, 0x01000002, .ldv (full 16 10 16 0 1)), (0x0142144A, 0x01000002, .stv (full 16 10 16 0 1)),
      (0x01409452, 0x00000002, .ldw (full 4 10 16 0)), (0x0140945A, 0x00000002, .stw (full 4 10 16 0))]) = true ∧ reads
    ([(0x01421462, 0x00000002, .tld (full 16 10 16 0)), (0x0142146A, 0x00000002, .tst (full 16 10 16 0)),
      (0x01411482, 0x00000002, .atom (full 8 10 16 0)), (0x0141148A, 0x00000002, .atomCas (full 8 10 16 0)),
      (0x014014C2, 0x00000002, .cwb (full 0 10 16 0)), (0x014014CA, 0x00000002, .cinv (full 0 10 16 0)),
      (0x014014D2, 0x00000002, .pref (full 0 10 16 0)), (0x000014E2, 0x00000000, .fence (full 0 0 0 0)),
      (0x00007502, 0x00000000, .txbegin (full 3 0 0 0)), (0x0000750A, 0x00000000, .txcommit (full 3 0 0 0))]) = true ∧ reads
    ([(0x01401512, 0x00000000, .txabort (full 0 10 0 0)), (0x0001151A, 0x00000000, .txstat (full 8 0 0 0))]) = true := by decide +kernel

/-- 03 Table 3-6: control, queues, group-side matrix and texture, by the words of each. -/
theorem decode_control : reads
    ([(0xE0001802, 0x00001FBF, .bra (full 0 0 255 253)), (0x0140180A, 0x00000000, .brx (full 0 10 0 0)),
      (0xE0011812, 0x00001FBF, .call (full 8 0 255 253)), (0x0140181A, 0x00000000, .ret (full 0 10 0 0)),
      (0x00011842, 0x00000000, .jenr (full 8 0 0 0)), (0x0140184A, 0x00000000, .jarr (full 0 10 0 0)),
      (0x00011852, 0x00000000, .jstr (full 8 0 0 0)), (0x0001185A, 0x00000000, .jclr (full 8 0 0 0)),
      (0x00001862, 0x00000000, .yield (full 0 0 0 0)), (0x0140186A, 0x00000000, .nap (full 0 10 0 0))]) = true ∧ reads
    ([(0x00001872, 0x00000000, .exit (full 0 0 0 0)), (0x03001882, 0x00000000, .spawn (full 0 24 0 0)),
      (0x0300188A, 0x00000000, .cont (full 0 24 0 0)), (0x01401892, 0x00000000, .join (full 0 10 0 0)),
      (0x000018C2, 0x00000000, .barTeam (full 0 0 0 0)), (0xA00018CA, 0x00000040, .barNumMeet (full 0 0 5 2)),
      (0xA00018CA, 0x01000040, .barNumPost (full 0 0 5 2 1)), (0xA00018CA, 0x02000000, .barNumWait (full 0 0 5 0 2)),
      (0x000018D2, 0x00000000, .barTree (full 0 0 0 0)), (0x00001902, 0x00000000, .trap (full 0 0 0 0))]) = true ∧ reads
    ([(0x0141190A, 0x00000000, .fwcall (full 8 10 0 0)), (0x00011912, 0x00000000, .rdsr (full 8 0 0 0)),
      (0x2140191A, 0x00000000, .wrsr (full 0 10 1 0)), (0x0140191A, 0x0000000A, .wrsrMseqpc (full 0 10 80 0)),
      (0x0140191A, 0x0000000B, .wrsrTexbase (full 0 10 88 0)), (0x00011922, 0x00000000, .clockTime (full 8 0 0 0)),
      (0x00011922, 0x01000000, .clockCyc (full 8 0 0 0 1)), (0x0000192A, 0x00000000, .bkpt (full 0 0 0 0)),
      (0x000019FA, 0x00000000, .nop (full 0 0 0 0)), (0x01401A02, 0x00000000, .qbind (full 0 10 0 0))]) = true ∧ reads
    ([(0x00011A0A, 0x00000000, .qstat (full 8 0 0 0)), (0x00001A12, 0x00000000, .qflush (full 0 0 0 0)),
      (0x01401B02, 0x00000000, .mbar (full 0 10 0 0)), (0x41409B42, 0x00000000, .tsmpW (full 4 10 2 0)),
      (0x01409B4A, 0x00000000, .tups (full 4 10 0 0)), (0x01411B52, 0x00000000, .tsmpF (full 8 10 0 0)),
      (0x01411B5A, 0x00000000, .tfet (full 8 10 0 0)), (0x00011B62, 0x00000000, .tqry (full 8 0 0 0)),
      (0x01407B6A, 0x00000002, .lspres (full 3 10 16 0))]) = true := by decide +kernel

/-- 03 Table 3-7: copy, barrier objects and row engine, by the words of each. -/
theorem decode_engine : reads
    ([(0x81411C02, 0x00000001, .tcopy (full 8 10 12 0)), (0x81411C0A, 0x00000001, .tcopy2d (full 8 10 12 0)),
      (0x01411C12, 0x00000000, .tcstat (full 8 10 0 0)), (0xA1401C42, 0x00000001, .bobjInit (full 0 10 13 0)),
      (0xA1401C4A, 0x00000001, .bobjExpect (full 0 10 13 0)), (0x01401C52, 0x00000000, .bobjWait (full 0 10 0 0)),
      (0x01411D02, 0x00000000, .rowCopy (full 8 10 0 0)), (0x01411D0A, 0x00000000, .rowFill (full 8 10 0 0)),
      (0x01411D12, 0x00000000, .rowAnd (full 8 10 0 0)), (0x01411D1A, 0x00000000, .rowOr (full 8 10 0 0))]) = true ∧ reads
    ([(0x01411D22, 0x00000000, .rowXor (full 8 10 0 0)), (0x01411D2A, 0x00000000, .rowNot (full 8 10 0 0)),
      (0x01411D32, 0x00000000, .rowMaj (full 8 10 0 0)), (0x01411D3A, 0x00000000, .rowAllb (full 8 10 0 0)),
      (0x01411D42, 0x00000000, .rowBcst (full 8 10 0 0)), (0x01411D4A, 0x00000000, .rowMac (full 8 10 0 0)),
      (0x01411D52, 0x00000000, .rowSadd (full 8 10 0 0)), (0x01411D5A, 0x00000000, .rowRdacc (full 8 10 0 0)),
      (0x01411D62, 0x00000000, .rowProg (full 8 10 0 0)), (0x01401D6A, 0x00000000, .rowWait (full 0 10 0 0))]) = true := by decide +kernel

/-- 03 R55: the compact opcodes, under `p3`. -/
theorem decode_compact : readsCompact
    ([(0x0C282008, .iaddC32 { as := false, dst := 8, src := 10, gp := 3, gn := false, mod := 0 }),
      (0x0C282010, .isubC32 { as := false, dst := 8, src := 10, gp := 3, gn := false, mod := 0 }),
      (0x0C282018, .imulC32 { as := false, dst := 8, src := 10, gp := 3, gn := false, mod := 0 }),
      (0x0C282020, .iminC32 { as := false, dst := 8, src := 10, gp := 3, gn := false, mod := 0 }),
      (0x0C282028, .imaxC32 { as := false, dst := 8, src := 10, gp := 3, gn := false, mod := 0 }),
      (0x0C282030, .shlC32 { as := false, dst := 8, src := 10, gp := 3, gn := false, mod := 0 }),
      (0x0C282038, .shrC32 { as := false, dst := 8, src := 10, gp := 3, gn := false, mod := 0 }),
      (0x0C282040, .sarC32 { as := false, dst := 8, src := 10, gp := 3, gn := false, mod := 0 }),
      (0x0C282068, .rolC32 { as := false, dst := 8, src := 10, gp := 3, gn := false, mod := 0 }),
      (0x0C282048, .andC32 { as := false, dst := 8, src := 10, gp := 3, gn := false, mod := 0 }),
      (0x0C282050, .orC32 { as := false, dst := 8, src := 10, gp := 3, gn := false, mod := 0 }),
      (0x0C282058, .xorC32 { as := false, dst := 8, src := 10, gp := 3, gn := false, mod := 0 }),
      (0x0C282060, .andnC32 { as := false, dst := 8, src := 10, gp := 3, gn := false, mod := 0 }),
      (0x0C140D00, .pandC32 { as := false, dst := 3, src := 5, gp := 3, gn := false, mod := 0 }),
      (0x0C140D08, .porC32 { as := false, dst := 3, src := 5, gp := 3, gn := false, mod := 0 })]) = true ∧ readsCompact
    ([(0x0C140D10, .pxorC32 { as := false, dst := 3, src := 5, gp := 3, gn := false, mod := 0 }),
      (0x0C282080, .faddC32 { as := false, dst := 8, src := 10, gp := 3, gn := false, mod := 0 }),
      (0x0C282088, .fsubC32 { as := false, dst := 8, src := 10, gp := 3, gn := false, mod := 0 }),
      (0x0C282090, .fmulC32 { as := false, dst := 8, src := 10, gp := 3, gn := false, mod := 0 }),
      (0x0C282098, .fminC32 { as := false, dst := 8, src := 10, gp := 3, gn := false, mod := 0 }),
      (0x0C2820A0, .fmaxC32 { as := false, dst := 8, src := 10, gp := 3, gn := false, mod := 0 }),
      (0x0C2820C0, .hadd2C32 { as := false, dst := 8, src := 10, gp := 3, gn := false, mod := 0 }),
      (0x0C2820C8, .badd2C32 { as := false, dst := 8, src := 10, gp := 3, gn := false, mod := 0 }),
      (0x0C2820D0, .qadd4C32 { as := false, dst := 8, src := 10, gp := 3, gn := false, mod := 0 }),
      (0x0C2820D8, .qmul4C32 { as := false, dst := 8, src := 10, gp := 3, gn := false, mod := 0 }),
      (0x0C241140, .waddC32 { as := false, dst := 4, src := 9, gp := 3, gn := false, mod := 0 }),
      (0x0C241148, .wsubC32 { as := false, dst := 4, src := 9, gp := 3, gn := false, mod := 0 }),
      (0x0C241150, .wmulC32 { as := false, dst := 4, src := 9, gp := 3, gn := false, mod := 0 }),
      (0x0C241158, .wminC32 { as := false, dst := 4, src := 9, gp := 3, gn := false, mod := 0 }),
      (0x0C241160, .wmaxC32 { as := false, dst := 4, src := 9, gp := 3, gn := false, mod := 0 })]) = true := by decide +kernel

/-- 10 Table 10-8: every word of the sequencer. -/
theorem decode_sequencer : ([(0x04411801, .mma 2 1 3 true false), (0x08400000, .mzero 2), (0x0C011800, .mlda 0 1 3),
      (0x10453000, .mldb 2 5 6), (0x14600000, .munpin 3), (0x18221804, .mstF32 1 2 3 4), (0x18221844, .mstB16 1 2 3 4),
      (0x18200020, .mstQ 1), (0x1CE00000, .msparse 7), (0x2080FFFC, .mloop 4 0xFFFC)] ++
    [(0x24000008, .mbraAl 8), (0x24810008, .mbraZ 4 8), (0x24820008, .mbraNz 4 8), (0x24030000, .mbraStop),
      (0x28A21234, .msetI 5 1 0x1234), (0x28A80000, .msetQ 5), (0x28B00000, .msetR 5), (0x2C221805, .maddx 1 2 3 5),
      (0x30000800, .mwait 0 2), (0x34038400, .msig 3 33)] : List (W32 × Instr)).all
    (fun x => decodeSeq x.1 == .ok x.2) = true := by decide +kernel

/-- 18 Table 18-7: every step of a row program. -/
theorem decode_row_program : ([(0x00000000, .stepEnd), (0x10000000, .stepOpen), (0x20008000, .macb 0 0 2),
      (0x3210C000, .mace 1 2 3), (0x40000000, .stepClr), (0x50000005, .stepLoop 5)] : List (W32 × Instr)).all
    (fun x => decodeStep x.1 == some x.2) = true := by decide +kernel

/-- Words of the spec's examples: 05 line of `CVT`, 05 of the pair, 06 of `BMM8`, 07 of `ATOM`, 09 of `BRA`, 10 of `MBAR`,
18 of `ROW.WAIT`, 20 of `FSPLAT.W`, 22 of `ATOM.FADD`. -/
theorem decode_examples :
    decodeWords [0x00E0C1C2, 0x02000500] = .ok (.cvt (full 6 7 0 0x28 2)) ∧
    decodeWords [0x8141_0E02, 0x0000_0001] = .ok (.bmm8 (full 8 10 12 0)) ∧
    decodeWords [0x8040_D482, 0x0000_1A00] = .ok (.atom (full 6 2 4 0xD0)) ∧
    decodeWords [0xE0001802, 0x03005FBF] = .ok (.bra { full 0 0 0xFF 0xFD 3 with gp := 2 }) ∧
    decodeWords [0x60C01B02, 0x00000000] = .ok (.mbar (full 0 6 3 0)) ∧
    decodeWords [0xC0801102, 0x000000E0] = .ok (.fsplatW (full 0 4 6 7)) ∧
    decodeWords [0x0080D482, 0x0F000000] = .ok (.atom (full 6 4 0 0 15)) ∧
    decodeWords [0x2140_9B42, 0x0030_00A0] = .ok (.tsmpW { full 4 10 1 5 with la := 3 }) ∧
    decodeWords [0x00241081, 0x00060342] = .ok (.p64Pair false
      { op := .fadd, dst := 4, src := 9, gp := 0, gn := false, mod := 0 }
      { op := .por, dst := 3, src := 6, gp := 0, gn := false, mod := 0 }) ∧
    decodeWords [0x00001510] = .ok (.pxorC32 { as := false, dst := 5, src := 0, gp := 0, gn := false, mod := 0 }) := by
  decide +kernel

/-- The traps that the spec names for words it writes out: 02 R39 and 03 R55 (pairs), 03 R50 (unassigned), 03 R57. -/
theorem decode_refuses : decodeWords [0x00042009, 0x00060D12] = .illegalPair 0x82 ∧
    decodeWords [0x00000002, 0x00000000] = .illegal 0x02 ∧ decodeWords [0x00001E02, 0x00000000] = .illegal 0x02 ∧
    decodeWords [0xA080600A, 0x00200000] = .illegal 0x04 ∧ decodeSeq 0x00000000 = .halt 0x01 ∧
    decodeSeq 0x20000000 = .ok (.mloop 0 0) ∧ decodeStep 0x60000000 = none := by decide +kernel

/-! ### Ill-formed terms, one for each check -/

/-- 02 Table 2-8 and 03 R57: a literal where none may stand, a window on a short opcode, a marker on a barrier, a
modifier, each operand field, each placement of a literal, and a form that its field does not name. -/
theorem ill_formed_full : ([.not (full 8 10 0 0 0 (some 1)), .iadd { full 8 10 13 0 with la := 2 },
      .mbar { full 0 6 3 0 with as := true }, .fadd (full 8 10 13 0 5), .bmm8 (full 9 10 12 0), .bmm8 (full 8 11 12 0),
      .bmm8 (full 8 10 13 0), .not (full 8 10 0 1), .fadd (full 8 10 13 0 0 (some 1)), .ffma (full 8 10 13 15 0 (some 1)),
      .bra (full 0 0 1 0 0 (some 4)), .ldG (full 8 10 16 0 4 (some 4)), .voteMask (full 8 5 0 0 1), .clockCyc (full 8 0 0 0),
      .wrsr (full 0 10 0x50 0)] : List Instr).all (fun i => !i.wellFormed) = true := by decide +kernel

/-- 02 R37 to R39, 10 R203, R208, R210, 18 R342: compact operands, pairs, counts, ranges. -/
theorem ill_formed_others : ([.waddC32 { as := false, dst := 40, src := 2, gp := 0, gn := false, mod := 0 },
      .p64Pair false { op := .iadd, dst := 8, src := 1, gp := 0, gn := false, mod := 0 }
        { op := .and, dst := 13, src := 6, gp := 0, gn := false, mod := 0 },
      .p64Pair false { op := .pand, dst := 80, src := 1, gp := 0, gn := false, mod := 0 }
        { op := .and, dst := 14, src := 7, gp := 0, gn := false, mod := 0 },
      .p64Pair false { op := .iadd, dst := 8, src := 1, gp := 0, gn := false, mod := 0 }
        { op := .pand, dst := 80, src := 7, gp := 0, gn := false, mod := 0 },
      .mloop 0 4, .mwait 0 34, .msig 0 0, .msig 0 34, .macb 0 0 0, .mace 0 0 17, .macb 0 49 16] : List Instr).all
    (fun i => !i.wellFormed) = true := by decide +kernel

/-! ### Single steps, with the results of the spec's own examples -/

/-- The group after an instruction. -/
def after (i : Instr) (s : State) : Group :=
  match exec i s with
  | .next t => t.group 7
  | _ => { group7 with id := 0 }

/-- Lane 0's registers from a list. -/
def regs (l : List (Nat × W32)) : State := onG 1 (fun g => { g with g := l })

/-- Registers with `FMODE` (04 R60). -/
def regsMode (m : W64) (l : List (Nat × W32)) : State := { regs l with teams := [{ team3 with fmode := m }] }

/-- A register of lane 0 and the lane's flags after an instruction. -/
def got (i : Instr) (s : State) (r : Nat) : W32 × BitVec 5 := ((after i s).readG 0 r, ((after i s).lane 0).fflags)

/-- 02 R37 and 05 R76, by a step on the words of the example of 05: 32,752 + 32 saturates to 32,767, and wraps to −32,752. -/
theorem test_iadd_sat_i16 : (match step (atCode [0xA080600A, 0x0C000000] (fun g => { g with g := [(4, 0xDEAD7FF0), (5, 0x20)] })) with
      | .next t => ((t.group 7).readG 0 3, ((t.group 7).lane 0).pc)
      | _ => (0, 0)) = (0x00007FFF, 16392) ∧
    (got (.iadd (full 3 4 5 0 4)) (regs [(4, 0xDEAD7FF0), (5, 0x20)]) 3).1 = 0xFFFF8010 := by decide +kernel

/-- 05 R79: the quotients and remainders of its example. -/
theorem test_idiv_irem : (got (.idiv (full 3 4 5 0)) (regs [(4, 0x80000000), (5, 0xFFFFFFFF)]) 3).1 = 0x80000000 ∧
    (got (.irem (full 3 4 5 0)) (regs [(4, 0x80000000), (5, 0xFFFFFFFF)]) 3).1 = 0 ∧
    (got (.idiv (full 3 4 5 0)) (regs [(4, 0x80000000)]) 3).1 = 0xFFFFFFFF ∧
    (got (.irem (full 3 4 5 0)) (regs [(4, 0x80000000)]) 3).1 = 0x80000000 ∧
    (got (.idiv (full 3 4 5 0)) (regs [(4, 0xFFFFFFF9), (5, 2)]) 3).1 = 0xFFFFFFFD ∧
    (got (.irem (full 3 4 5 0)) (regs [(4, 0xFFFFFFF9), (5, 2)]) 3).1 = 0xFFFFFFFF := by decide +kernel

/-- 05 R85: the three conversions of its example, with their flags. -/
theorem test_cvt : got (.cvt (full 6 7 0 0x28 2)) (regs [(7, 0xC0300000)]) 6 = (0xFFFFFFFE, flIX) ∧
    got (.cvt (full 6 7 0 0x28 2)) (regs [(7, 0x4F32D05E)]) 6 = (0x7FFFFFFF, flIV) ∧
    got (.cvt (full 6 7 0 0x28 2)) (regs [(7, 0x7FC00000)]) 6 = (0, flIV) := by decide +kernel

/-- 05 R86: the least of two zeros, of a quiet and of a signalling NaN. -/
theorem test_fmin : got (.fmin (full 3 4 5 0)) (regs [(4, 0x80000000)]) 3 = (0x80000000, 0) ∧
    got (.fmin (full 3 4 5 0)) (regs [(4, 0x7FC00000), (5, 0x40400000)]) 3 = (0x40400000, 0) ∧
    got (.fmin (full 3 4 5 0)) (regs [(4, 0x7F800001), (5, 0x40400000)]) 3 = (0x40400000, flIV) := by decide +kernel

/-- 05 R88 to R91: roots rounded down and up, and a logarithm that is exact. -/
theorem test_fsqrt_flog2 :
    (let g := after (.fsqrt (full 8 9 0 0 4)) (regs [(9, 0x40000000)])
     ((g.retire 0 true).readG 0 8, (g.lane 0).fflags)) = (0x3FB504F3, flIX) ∧
    (let g := after (.fsqrt (full 8 9 0 0 3)) (regs [(9, 0x40000000)])
     (g.retire 0 true).readG 0 8) = 0x3FB504F4 ∧
    (let g := after (.flog2 (full 8 9 0 0)) (regs [(9, 0x41000000)])
     ((g.retire 0 true).readG 0 8, (g.lane 0).fflags)) = (0x40400000, 0) := by decide +kernel

/-- 04 R66: a packed E4M3 add that overflows, with saturation and without. -/
theorem test_qadd4 : got (.qadd4 (full 3 4 5 0)) (regsMode 8 [(4, 0x38387F7E), (5, 0x3838387E)]) 3 = (0x40407F7E, flOF ||| flIX) ∧
    got (.qadd4 (full 3 4 5 0)) (regsMode 0 [(4, 0x38387F7E), (5, 0x3838387E)]) 3 = (0x40407F7F, flOF ||| flIX) := by
  decide +kernel

/-- 06 R98 to R100: products of bit matrices, scatter and gather. -/
theorem test_bit_matrices : (got (.bmm8 (full 8 10 12 0)) (regs [(10, 0x203), (12, 0x3C0F)]) 8).1 = 0x3C33 ∧
    (got (.bmo8 (full 8 10 12 0)) (regs [(10, 0x203), (12, 0x3C0F)]) 8).1 = 0x3C3F ∧
    (got (.bscat (full 8 10 12 0)) (regs [(10, 5), (12, 0xF0F0)]) 8).1 = 0x50 ∧
    (got (.bgath (full 8 10 12 0)) (regs [(10, 0x50), (12, 0xF0F0)]) 8).1 = 5 := by decide +kernel

/-- 06 R101 to R103: fields that the word's end cuts, an offset past it, an insertion, and a funnel shift. -/
theorem test_bit_fields : (got (.bfx (full 8 9 10 11 1)) (regs [(9, 0xF0F01234), (10, 28), (11, 8)]) 8).1 = 0xFFFFFFFF ∧
    (got (.bfx (full 8 9 10 11 0)) (regs [(9, 0xF0F01234), (10, 4), (11, 12)]) 8).1 = 0x123 ∧
    (got (.bfx (full 8 9 10 11 1)) (regs [(9, 0xF0F01234), (10, 32), (11, 8)]) 8).1 = 0 ∧
    (got (.bfi (full 8 9 10 11)) (regs [(9, 0xF0F01234), (10, 5), (11, 0x81C)]) 8).1 = 0x50F01234 ∧
    (got (.fshl (full 8 9 10 11)) (regs [(9, 0x80000001), (10, 0xC0000000), (11, 1)]) 8).1 = 3 := by decide +kernel

/-- 06 R111: a sum over lanes 0, 2 and 5 (keys of lanes are lane × 256 + register), and what stands before each. -/
theorem test_redux : let s := onG 0x25 (fun g => { g with g := [(4, 3), (516, 4), (1284, 5)] })
    ([0, 2, 5].map (fun i => (after (.redux (full 8 4 0 0)) s).readG i 8)) = [12, 12, 12] ∧
    ([0, 2, 5].map (fun i => (after (.redux (full 8 4 0 0 8)) s).readG i 8)) = [0, 3, 7] := by decide +kernel

/-- 07 R134: the old values go to lanes 0 to 3 in turn, and the word ends at 20. -/
theorem test_atom_add : let s := { onG 0xF (fun g => { g with k := [(2, 16384)], g := [(6, 1), (262, 2), (518, 3), (774, 4)] }) with
      mem := [(16384, 10)] }
    (match exec (.atom (full 6 2 4 0xD0)) s with
     | .next t => (Memory.byte t.mem 16384, [0, 1, 2, 3].map (fun i => ((t.group 7).retire i true).readG i 6))
     | _ => (0, [])) = (20, [10, 10 + 1, 13, 16]) := by decide +kernel

/-- 09 R165, R171: a branch goes back 12 bytes where `p2` is true, and on where it is false. -/
theorem test_bra : (((after (.bra { full 0 0 0xFF 0xFD with gp := 2 }) (onG 3 (fun g => { g with p := [(2, 1)] }))).lane 0).pc,
    ((after (.bra { full 0 0 0xFF 0xFD with gp := 2 }) (onG 3 (fun g => { g with p := [(2, 1)] }))).lane 1).pc) =
    (0x0FF4, 0x1008) := by decide +kernel

/-- 09 R187: `STRMSTAT` of a lane with three forward entries and no return entry. -/
theorem test_rdsr_strmstat : let s := onG 1 (fun g => g.modLane 0 (fun l => { l with fwd := [1, 2, 3] }))
    ((after (.rdsr (full 8 0 0x48 0)) s).readG 0 8, (after (.rdsr (full 8 0 0x48 0)) s).readG 0 9) = (0x000D0800, 0) := by
  decide +kernel

/-- 02 R40 and 05: half 0 overflows, and half 1 still writes `p3`. -/
theorem test_pair : let s := onG 1 (fun g => { g with g := [(4, 0x7F7FFFFF), (9, 0x7F7FFFFF)], p := [(6, 1)] })
    let g := after (.p64Pair false { op := .fadd, dst := 4, src := 9, gp := 0, gn := false, mod := 0 }
      { op := .por, dst := 3, src := 6, gp := 0, gn := false, mod := 0 }) s
    (g.readP 0 3, (g.lane 0).fflags) = (true, flOF ||| flIX) := by decide +kernel

/-- 05: `PXOR p5, p0` writes NOT `p5`. -/
theorem test_pxor : let i := Instr.pxorC32 { as := false, dst := 5, src := 0, gp := 0, gn := false, mod := 0 }
    ((after i (on 1)).readP 0 5, (after i (onG 1 (fun g => { g with p := [(5, 1)] }))).readP 0 5) = (true, false) := by
  decide +kernel

/-- The state after lane 0's issue at an address. -/
def stepAt (s : State) (pc : W64) : State :=
  match step { s with agenda := [.lane 7 pc 0xFFFFFFFF] } with
  | .next t => t
  | _ => s

/-- 02 R35: inside the window a source reads the old value; a later write of the destination drops the result. -/
theorem test_lookahead :
    let s := atCode [0x00414842, 0x00200000, 0x6141600A, 0x00000000, 0x00814112, 0x00000000]
      (fun g => { g with g := [(2, 0x40800000), (3, 7), (4, 0x3F800000), (10, 5)] })
    let t := stepAt (stepAt (stepAt s 16384) 16392) 16400
    ((t.group 7).readG 0 11, (((t.group 7).retire 0 true).readG 0 10)) = (12, 0x3F800000) := by decide +kernel

/-- 13 R262, 10 Table 10-6, 18 R342: an unassigned sequencer word halts it with `ILL_OP`. -/
theorem test_seq_ill_op : (match step (atSeqCode 0xFC000000) with
      | .next t => (t.seq? 3).map (fun q => (q.st, field q.err 7 0))
      | _ => none) = some (.halted, 1) := by decide +kernel

/-- The four elements of a packet register from its first key (register × 8 on lane 0). -/
def elems4 (r : Nat) (l : List W32) : List (Nat × W32) := (List.range 4).map (fun e => (8 * r + e, l.getD e 0))

/-- 04 R72, 06 R113: the sum of a packet is formed in pairs. -/
theorem test_wsum : got (.wsum (full 8 1 0 0 1)) (onG 1 (fun g => { g with
    w := elems4 1 [0x3F800000, 0x33800000, 0x33800000, 0x33800000] })) 8 = (0x3F800001, flIX) := by decide +kernel

/-- 06 R117 to R119: Fresnel factors, then the Mueller product that keeps −0. -/
theorem test_wfres_muel : let g := after (.wfres (full 8 1 2 0 1)) (onG 1 (fun g => { g with
      w := elems4 1 (List.replicate 4 0x3F800000) ++ elems4 2 (List.replicate 4 0x3FC00000) }))
    ((List.range 4).map (fun k => (g.readW 0 (8 + k) 0, g.readW 0 (8 + k) 4)), (g.lane 0).fflags) =
      ([(0x3D23D70A, 0), (0, 0), (0xBD23D70A, 0), (0, 0)], flIX) ∧
    (let h := after (.muelF (full 12 8 4 0 1)) (onG 1 (fun g => { g with
        w := elems4 4 (List.replicate 4 0x3F800000) ++ elems4 5 (List.replicate 4 0x3F000000) ++
          elems4 6 (List.replicate 4 0x3E800000) ++ elems4 8 (List.replicate 4 0x3D23D70A) ++
          elems4 10 (List.replicate 4 0xBD23D70A) }))
     ((List.range 4).map (fun k => h.readW 0 (12 + k) 3), (h.lane 0).fflags)) =
      ([0x3D23D70A, 0x3CA3D70A, 0xBC23D70A, 0x80000000], 0) := by decide +kernel


/-- 13 R247: the spec's example of a vault access over three links; 05 R408: a sum is read four cycles after it. -/
theorem test_latencies : State.reset.vaultCycles 0 5 3 = 160 ∧ opCycles .iadd (full 8 1 2 0 1) false = some 4 ∧
    (let s := State.timeResults (on 1) (.iadd (full 8 1 2 0 1))
     (s.group 7).waitsFor 0 19 [.g 8] false ∧ ¬(s.group 7).waitsFor 0 20 [.g 8] false ∧
       ¬(s.group 7).waitsFor 0 19 [.g 9] false) := by decide +kernel

/-! ### Witnesses: clauses with hypotheses of their own -/

/-- `ContinuationsEnterTheRing`: a push into the ring, and the counter of a `JOIN` at the page. -/
theorem witness_ring_and_counter : (inPool.launch? 0 1).isSome = true ∧ (inPool.group 7).tx = none ∧
    (atPage.group 7).tx = none ∧ atPage.remoteAnswer 16384 16384 false = none ∧ atPage.routeHeld 16384 = false ∧ atPage.released 7 16384 = true :=
  ⟨by decide, by decide, by decide, rfl, by decide, by decide⟩

/-- `TakingATrapLoadsTheTrapRegisters`: an empty queue, and one whose last group has trapped in the same cycle on a higher
partition. -/
theorem witness_fault_order : (on 1).faultWait.getD (dieOfCore group7.core) [] = [] ∧
    (let g8 : Group := { group7 with id := 8, part := 2, trapAt := 0 }
     let s := { on 1 with groups := [group7, g8], faultq := [[.group 8], []] }
     s.group? 8 = some g8 ∧ g8.trapAt = s.ticks ∧ group7.core * 4 + group7.part < g8.core * 4 + g8.part ∧
       (s.faultq.getD 0 []).length < 1024) := by decide

/-- `SoftwareTrapsAndFirmwareCalls`: an issue whose guard is false on every lane, and one in a transaction. -/
theorem witness_guarded_traps :
    (let f := { full 0 0 12 0 with gp := 2 }
     readyB (on 1) .trap f = true ∧ (on 1).enabledFor f = [] ∧ readyB (on 1) .bkpt f = true) ∧
    (let f := { full 4 8 12 0 with gp := 2 }
     readyB (on 1) .fwcall f = true ∧ plainB .fwcall f = true ∧ (on 1).enabledFor f = []) ∧
    (readyB (on 1) .fwcall (full 4 8 12 0) = true ∧ ((on 1).group 7).tx = none ∧ ((on 1).group 7).wait = .none) := by decide

/-- `SystemRegisterWrites`: a team with a write of each register of team scope that the next cycle takes up, with none, and with
a start. -/
theorem witness_system_registers_retire :
    ([[], [(0x002, 5)], [(0x058, 64)], [(0x054, 1)], [(0x050, 64)]] : List (List (Nat × W64))).all (fun l =>
      ({ on 1 with teams := [{ teamSeq with srNext := l }] }.team? 3).map (fun (t : Team) => t.srNext) == some l) = true := by decide

/-- The team with a sequencer, and the value of a write of a system register in `g8:g9`. -/
def srWrite (v : Nat) (q : Sequencer) : State :=
  { onG 1 (fun g => { g with g := [(8, w32 v)] }) with teams := [{ teamSeq with seq := some q }] }

/-- `SystemRegisterWrites`: `MSEQPC` with no sequencer, misaligned, and with one that runs or has been started; reserved bits of
`TEXBASE` and of `MSEQFLG`. -/
theorem witness_system_register_traps :
    (let f := sysReg 0x050
     readyPlain (srWrite 2 {}) .wrsr f = true ∧ (srWrite 2 {}).enabledFor f = [0] ∧ ((on 1).team 3).seq = none ∧
       (srcA .wrsr f ((srWrite 2 {}).group 7) 0 0).toNat % 4 ≠ 0 ∧ ({ st := .running } : Sequencer).st ≠ .idle ∧
       ({ srWrite 4 {} with teams := [{ teamSeq with srNext := [(0x050, 4)] }] }.team 3).srNext.any (fun x => x.1 == 0x050) = true) ∧
    (let f := sysReg 0x058
     readyPlain (srWrite 1 {}) .wrsr f = true ∧ srcA .wrsr f ((srWrite 1 {}).group 7) 0 0 &&& 0x3F ≠ 0) ∧
    (let f := sysReg 0x054
     readyPlain (srWrite 32 {}) .wrsr f = true ∧ srcA .wrsr f ((srWrite 32 {}).group 7) 0 0 &&& ~~~0x1F ≠ 0) := by decide

/-- `QueueBindingAndFlushing` and `QueueOperandsPushAndPop`: the instance of the binding, and the ports and waiters. -/
theorem witness_queue_state : (((on 1).team 3).queue 12).inst = field 0 15 8 ∧
    (let tq := ((withQueue 8 (List.replicate 31 { val := 1 })).team 3).queue 2
     [3, 8, 9].contains tq.port = true ∧ tq.waiters = []) ∧
    (let tq := ((withQueue 6 [{ val := 9 }]).team 3).queue 2
     [4, 6].contains tq.port = true ∧ tq.waiters = []) := by decide

/-- `LocalAndVaultAccessesAreExact`, `CopiesAndBarrierObjects`, `MisalignedAddressesTrap` and `TextureAndSplatInstructions`:
no write held, no read waiting, no line pinned, no transaction, and no splat in the queue. -/
theorem witness_vault_state : (on 1).vheld = [] ∧ (on 1).arrivals = [] ∧ (on 1).pinned 0 0 none = false ∧
    ((on 1).group 7).tx = none ∧ (on 1).splatQueued 3 7 0 = false := by decide

/-- `TimeBaseMovesAsItsSourceAllows`: the three parts of a cycle, and the steps during a start. -/
theorem witness_cycle_parts : (on 1).step = .ready ∧ (about (on 1) 0 1).ev.sub = 1 ∧ (about (on 1) 0 2).ev.sub = 2 ∧
    ({ on 1 with step := .recovery }.step = .recovery) ∧ ((on 1).issueAgain (on 1).gated).agenda.length = (on 1).agenda.length ∧
    (let s := onG 1 (fun g => (g.modLane 0 (fun l => { l with tried := .stayed })).modLane 5 (fun l => { l with tried := .ready }))
     (s.issueAgain s.gated).agenda.length ≠ s.agenda.length) ∧ { on 1 with step := .starting 0 true }.tick.step = .starting 0 true := by
  decide

/-- `MemoryEvents`: a queued write that no transaction and no row command holds, and a full list of translations. -/
theorem witness_write_and_translations :
    (let w : HWrite := { gid := some 7, op := .store [(16384, 1)] }
     w.tx = false ∧ w.row = 0 ∧ w.due ≤ (withHome 128 false).time ∧ (withHome 128 false).isRemote (128 * 128) = false) ∧
    (let s := { about atPage 0 1 16384 with tlb := List.replicate 2048 (0, { page1 with va := 32768 }) }
     s.page? 1 16384 = some page1 ∧ s.tlb.contains (0, page1) = false ∧
       2048 ≤ (s.tlb.filter (fun (x : Nat × Page) => x.1 == 0)).length ∧
       (s.tlb.filter (fun (x : Nat × Page) => x.1 == 0)).head? = some (0, { page1 with va := 32768 })) ∧
    (let s := { about atPage 0 1 16384 with tlb1 := List.replicate 64 (0, { page1 with va := 32768 }) }
     s.tlb1.contains (0, page1) = false ∧ 64 ≤ (s.tlb1.filter (fun (x : Nat × Page) => x.1 == 0)).length ∧
       (s.tlb1.filter (fun (x : Nat × Page) => x.1 == 0)).head? = some (0, { page1 with va := 32768 })) := by decide +kernel

/-- `EngineEvents`: nothing held at a block load, a copy that fills no line, and its count that waits for a held object and
that does not. -/
theorem witness_counts : blockLoad.vheld = [] ∧ blockLoad.arrivals = [] ∧ (copy9 1024 0).filling = false ∧
    (((ending 1024 0).copyCount (copy9 1024 0)).1 = some 0 ∧ ((ending 1024 0).copyCount (copy9 1024 0)).2.copies = [copy9 1024 0]) ∧
    (({ ending 1024 0 with arrays := [(0, .retained)] }.copyCount (copy9 1024 0)).1 = none) := by decide +kernel

/-- `FrontEndEvents`: hints of the shortest and the longest time, one group's hint, and the consumer of a pair whose records
can be read. -/
theorem witness_hints_and_rings : (1 ≤ 1 ∧ 10000 ≤ 10000) ∧
    (let s := { on 1 with hints := [{ die := 0, peer := 0, t := 5 }] }
     s.hints = [{ die := 0, peer := 0, t := 5 }] ∧ s.time < 5) ∧
    (let l : Launch := { launch1 with after := some (0, 9), desc := { kind := 1, ringLog2 := 2, initrec := 16384 } }
     let s := launching [l] 1
     l.isPool = true ∧ l.status = none ∧ s.awaitsProducer l = false ∧ (s.tenantRead 1 16384 (32 * l.desc.count)).1.isSome = true) := by
  decide +kernel

/-- `FirmwareEvents`: the engines owe the calling group nothing, its loads have returned, and a partition under test is
empty. -/
theorem witness_calls_and_tests : (calling 5).engineOwes 7 = false ∧ (∀ l ∈ ((calling 5).group 7).lanes, l.back ≤ (calling 5).ticks) ∧
    (calling 0).engineOwes 7 = false ∧ State.reset.partGroups 3 = [] := by decide

/-- A machine that exports the page to module 2, and a request of it there. -/
def exporting (op : RemoteOp) : State :=
  { on 1 with
    ev := { reqs := [{ request2 with op := op }] }
    tstat := .locked
    exports := [{ src := 2, tenant := 1, base := 16384, len := 16 }] }

/-- `FabricEvents`: a request that is let through, of each kind; a store of the last bytes of its line; a load of a line that a row
command holds; and sizes below and above those that a request may have. -/
theorem witness_requests :
    (([.load 8, .store [1, 2, 3, 4], .atom 0 2 5, .atom 7 2 5, .cas true 0 1, .join, .other] : List RemoteOp).all (fun op =>
      let s := exporting op
      let r := { request2 with op := op }
      s.synced && s.exported r && s.tagsSeen.isEmpty && s.poison.isEmpty && s.inbox.isEmpty && 4 ≤ RemoteReq.size r &&
        RemoteReq.size r ≤ 256 && (RemoteReq.lines r).all (fun ln => !s.fetchHeld (ln * 128)))) = true ∧
    16508 % 128 + 4 ≤ 128 ∧
    (let s := { exporting (.load 8) with homes := [{ line := 128, pt := some 0, queue := [{ op := .store [], row := 1 }] }] }
     (RemoteReq.lines { request2 with op := .load 8 }).any (fun ln => s.fetchHeld (ln * 128)) = true) ∧
    (([3, 257] : List Nat).all (fun n =>
      let s := { exporting (.load n) with exports := [{ src := 2, tenant := 1, base := 16384, len := 257 }] }
      s.exported { request2 with op := .load n } && (n < 4 || 256 < n))) = true := by decide

/-- `StepRunsDecodedInstruction`: something happens to the part, and nothing is to be done. -/
theorem witness_other_steps : { on 1 with agenda := [.outside (.clearLine 0 0)] }.stopped = false ∧ (on 1).agenda = [] := by decide

/-- 08 Table 8-4: the device time, lane 1's `FFLAGS`, `p2`, `k1` and `TRAPPC` in a group's image. -/
theorem test_group_image :
    let g := { (group7.modLane 1 (fun l => { l with fflags := 5 })) with n := 16, m := 0, p := [(2, 6)], k := [(1, 9)], trapPc := 7 }
    ([0x20, 0x58, 0x248, 0x348, 0x588].map (fun o => ((g.image 0 false 3).drop o).headD 0)) = [3, 5, 6, 9, 7] := by decide +kernel

/-- 22 Table 22-1 and the example of R395: module 37's ports 0 and 1 to module 32, module 32's ports 22 and 23 to module 44. -/
theorem test_pod_ports : ({ State.reset with module := 37 } : State).podPort 32 = 0 ∧
    ({ State.reset with module := 32 } : State).podPort 44 = 22 := by decide

/-- 22 Table 22-4: an access to another module waits for a route for 1 ms, and then traps with `PROTECTION`, `DETAIL` 0x01. -/
theorem test_no_route : State.reset.routeHeld (2 ^ 51) = true ∧ State.reset.remoteRefusal (2 ^ 51) 5 = some (.protection 5 0x03) ∧
    (let s := { State.reset with ticks := 8000000, tstat := .locked }
     s.routeHeld (2 ^ 51) = false ∧ s.remoteRefusal (2 ^ 51) 5 = some (.protection 5 0x01)) := by decide

/-- 18 R324: the example of row 4,514 of bank 11 of pseudo-channel 56 of stack 1, and its block of 128 KiB (21 Table 21-8). -/
theorem test_row_block : (State.reset.dram 0x1234567880).row = 4514 ∧
    State.reset.rowBlock (State.reset.dram 0x1234567880).place = (0x1234560000, 131072) := by decide

/-- FIPS 180-4's example: the SHA-384 digest of `abc`. -/
theorem test_sha384 : leVal (sha384 [0x61, 0x62, 0x63]).reverse =
    0xcb00753f45a35e8bb5a03d699ac65007272c32ab0eded1631a8b605a43ff5bed8086072ba1e7cc2358baeca134c825a7 := by decide +kernel

/-- 21 R379: a tagged IPv4 frame without options is accepted; one with a second tag, or of 9,217 bytes, is not. -/
theorem test_frames :
    let eth : List Byte := List.replicate 12 0 ++ [0x81, 0, 0, 1]
    let ip : List Byte := [0x45] ++ List.replicate 19 0
    frameAccepted (eth ++ [8, 0] ++ ip) = true ∧ frameAccepted (eth ++ [0x81, 0, 0, 1, 8, 0] ++ ip) = false ∧
      frameAccepted (eth ++ [8, 0, 0x46] ++ ip) = false ∧ frameAccepted (eth ++ [8, 0] ++ ip ++ List.replicate 9179 0) = false := by
  decide +kernel

end Sys2Proof.Tests
end

namespace Sys2Proof.Machine

open Sys2Proof

/-! ### What a legal instruction's fields satisfy (02 Table 2-8) -/

/-- What the checks of steps 4 to 6 leave of a legal instruction: its `FAM` is one that the opcode defines, `SA` passes its
class's check unless it is the base of a memory operand, and so does `SB` where no literal can replace it. -/
theorem Full.checks_of_legal {op : Op} {f : Full} (h : f.illegal op = none) :
    (op.shape f).famOk = true ∧
    ((op.shape f).mem = .no → (op.shape f).sa.check (!(op.shape f).nform && f.xa) f.sa.toNat = none) ∧
    ((op.shape f).lit = .no → (op.shape f).sb.check false f.sb.toNat = none) := by
  unfold Full.illegal at h
  simp only [orCheck_none] at h
  obtain ⟨-, -, -, modifier, -, sa, sb, -⟩ := h
  exact ⟨by simpa using modifier, fun hm => by simpa [hm] using sa, fun hl => by simpa [hl] using sb⟩

theorem Full.famOk_of_legal {op : Op} {f : Full} (h : f.illegal op = none) : (op.shape f).famOk = true :=
  (Full.checks_of_legal h).1

theorem Full.sa_ok {op : Op} {f : Full} (h : f.illegal op = none) (hm : (op.shape f).mem = .no) :
    (op.shape f).sa.check (!(op.shape f).nform && f.xa) f.sa.toNat = none :=
  (Full.checks_of_legal h).2.1 hm

theorem Full.sb_ok {op : Op} {f : Full} (h : f.illegal op = none) (hl : (op.shape f).lit = .no) :
    (op.shape f).sb.check false f.sb.toNat = none :=
  (Full.checks_of_legal h).2.2 hl

/-- A literal where the opcode takes none is the first of the checks that fail (step 4). -/
theorem Full.illegal_of_lit {op : Op} {f : Full} (hl : (op.shape f).lit = .no) (h : f.lit.isSome = true) :
    f.illegal op = some 0x03 := by
  simp [Full.illegal, hl, h, orCheck]

/-- A field of class P passes its check when it names a predicate, and a destination another one than `p0`. -/
theorem Cls.check_p {d ext : Bool} {v : Nat} :
    (Cls.p d).check ext v = none ↔ ext = false ∧ v < 64 ∧ (d = true → v ≠ 0) := by
  simp [Cls.check, and_assoc]

/-- The modifier is zero when `FAM`, `XA` and `XD` are. -/
theorem Full.mod_eq_zero {f : Full} (hfam : f.fam = 0) (hxa : f.xa = false) (hxd : f.xd = false) : f.mod = 0 := by
  have bits : ∀ m : BitVec 6, m.toNat % 16 = 0 → m.getLsbD 4 = false → m.getLsbD 5 = false → m = 0 := by decide
  exact bits f.mod hfam hxa hxd

/-! ### Integers of a type (05 R75): the model's words and the statements' -/

theorem tyWidth_pos (t : Nat) : 0 < tyWidth t := by
  unfold tyWidth
  repeat' split
  all_goals decide

/-- The type code keeps the parity of `FAM`, which tells signed from unsigned. -/
theorem Full.fam_mod_two (f : Full) : f.fam % 8 % 2 = f.fam % 2 := by omega

/-- The signed value of a number is its balanced residue. -/
theorem signed_eq_bmod (w n : Nat) : signed w n = (n : Int).bmod (2 ^ w) := by
  have half : (2 ^ w + 1) / 2 = 2 ^ (w - 1) := by
    cases w with
    | zero => rfl
    | succ w => rw [Nat.add_sub_cancel, Nat.pow_succ]; omega
  have half' : (((2 ^ w : Nat) : Int) + 1) / 2 = ((2 ^ (w - 1) : Nat) : Int) := by exact_mod_cast half
  unfold signed
  rw [Int.bmod_def, half', ← Int.natCast_emod]
  by_cases h : n % 2 ^ w < 2 ^ (w - 1)
  · rw [if_neg (Nat.not_le.2 h), if_pos (Int.ofNat_lt.2 h)]; simp
  · rw [if_pos (Nat.not_lt.1 h), if_neg (fun h' => h (Int.ofNat_lt.1 h'))]; simp

theorem wrapNat_cast (w : Nat) (x : Int) : (wrapNat w x : Int) = x % 2 ^ w :=
  Int.toNat_of_nonneg (Int.emod_nonneg _ (Int.ne_of_gt (Int.pow_pos (by decide))))

/-- A word of a wrapped integer. -/
theorem w64_wrapNat (w : Nat) (x : Int) : w64 (wrapNat w x) = (BitVec.ofInt w x).setWidth 64 := by
  apply BitVec.eq_of_toNat_eq
  simp [w64, wrapNat, BitVec.toNat_ofInt]

/-- `ReadInt` (05 R75) is the operand as the statements read it. -/
theorem readInt_eq_asInt (f : Full) (v : W64) : readInt (f.fam % 8) v = asInt f v := by
  unfold readInt asInt
  simp only [Full.fam_mod_two, signed_eq_bmod, BitVec.toInt_setWidth, BitVec.toNat_setWidth]

/-- `WriteInt` (05 R75) is the value of the type in its register or pair. -/
theorem writeInt_eq_intBits (f : Full) (x : Int) : writeInt (f.fam % 8) x = intBits f x := by
  unfold writeInt intBits
  split <;> simp [w64_wrapNat]

/-- Wrapping keeps the residue. -/
theorem wrapTo_emod (t : Nat) (x : Int) : wrapTo t x % 2 ^ tyWidth t = x % 2 ^ tyWidth t := by
  unfold wrapTo
  split
  · rw [signed_eq_bmod, wrapNat_cast]
    have residue := Int.bmod_emod (x := x % 2 ^ tyWidth t) (m := 2 ^ tyWidth t)
    simpa using residue
  · rw [wrapNat_cast, Int.emod_emod]

/-- Wrapping depends on the residue alone. -/
theorem wrapTo_congr {t : Nat} {x y : Int} (h : x % 2 ^ tyWidth t = y % 2 ^ tyWidth t) : wrapTo t x = wrapTo t y := by
  simp only [wrapTo, wrapNat, h]

theorem wrapTo_wrapTo (t : Nat) (x : Int) : wrapTo t (wrapTo t x) = wrapTo t x := wrapTo_congr (wrapTo_emod t x)

/-- The least value of a signed type is its own negative in the type. -/
theorem wrapTo_neg_minOf {t : Nat} (h : t % 2 = 0) : wrapTo t (-minOf t) = wrapTo t (minOf t) := by
  apply wrapTo_congr
  have double : (2 : Int) ^ tyWidth t = 2 ^ (tyWidth t - 1) + 2 ^ (tyWidth t - 1) := by
    obtain ⟨w, hw⟩ := Nat.exists_eq_add_of_lt (tyWidth_pos t)
    rw [hw, Nat.add_sub_cancel, Int.pow_succ]; omega
  have least : minOf t = -2 ^ (tyWidth t - 1) := by simp [minOf, h]
  have apart : -minOf t = minOf t + 2 ^ tyWidth t := by omega
  rw [apart, Int.add_emod_right]

theorem wrapTo_of_signed {t : Nat} (h : t % 2 = 0) (x : Int) : wrapTo t x = x.bmod (2 ^ tyWidth t) := by
  have balanced := Int.emod_bmod x (2 ^ tyWidth t)
  simpa [wrapTo, h, signed_eq_bmod, wrapNat_cast] using balanced

theorem wrapTo_of_unsigned {t : Nat} (h : t % 2 ≠ 0) (x : Int) : wrapTo t x = x % 2 ^ tyWidth t := by
  simp [wrapTo, h, wrapNat_cast]

theorem minOf_le_maxOfTy (t : Nat) : minOf t ≤ maxOfTy t := by
  have half : (0 : Int) < 2 ^ (tyWidth t - 1) := Int.pow_pos (by decide)
  have full : (0 : Int) < 2 ^ tyWidth t := Int.pow_pos (by decide)
  unfold minOf maxOfTy
  split <;> omega

theorem clamp_eq_max_min {lo hi : Int} (h : lo ≤ hi) (v : Int) : clamp v lo hi = max lo (min hi v) := by
  unfold clamp
  split
  · omega
  · split <;> omega

/-- The value fitted to its type (05 R76) is the model's: the saturated or the wrapped one. -/
theorem fitInt_eq_fitted (f : Full) (x : Int) : fitInt f x = fitted f x := by
  unfold fitInt fitted
  dsimp only
  rw [clamp_eq_max_min (minOf_le_maxOfTy _)]
  by_cases hp : f.fam % 2 = 0
  · have ht : f.fam % 8 % 2 = 0 := by rw [Full.fam_mod_two, hp]
    simp [wrapTo_of_signed ht, minOf, maxOfTy, hp]
  · have ht : f.fam % 8 % 2 ≠ 0 := by rwa [Full.fam_mod_two]
    simp [wrapTo_of_unsigned ht, minOf, maxOfTy, hp]

/-- Without `SAT` the fitted value is the wrapped one. -/
theorem fitInt_of_fam_lt {f : Full} (h : f.fam < 8) (x : Int) : fitInt f x = wrapTo (f.fam % 8) x := by
  simp [fitInt, Nat.not_le.2 h]

/-- An instruction of Table 5-3 gives the one fitted result of its value on exact integers. -/
theorem intFn_eq_intResult (f : Full) (v : Int → Int → Int) (g : Group) (i : Nat) (a b c : W64) :
    intFn f v g i a b c = intResult f (v (asInt f a) (asInt f b)) := by
  simp only [intFn, intResult, writeInt_eq_intBits, fitInt_eq_fitted, readInt_eq_asInt]

/-! ### Division (05 R77) and the multiply-adds (05 R78) -/

theorem divRem_zero (t : Nat) (a : Int) : divRem t a 0 = (wrapTo t (-1), a) := rfl

/-- By a divisor other than zero: the truncated quotient and its remainder, or the one quotient that a signed type cannot
hold. -/
theorem divRem_of_ne_zero (t : Nat) (a : Int) {b : Int} (hb : b ≠ 0) :
    divRem t a b = (a.tdiv b, a.tmod b) ∨ t % 2 = 0 ∧ a = minOf t ∧ b = -1 ∧ divRem t a b = (a, 0) := by
  by_cases hmin : t % 2 = 0 ∧ a = minOf t ∧ b = -1
  · obtain ⟨ht, ha, hb1⟩ := hmin
    exact .inr ⟨ht, ha, hb1, by simp [divRem, ht, ha, hb1]⟩
  · have hmin' : (t % 2 == 0 && a == minOf t && b == -1) = false := by simpa using hmin
    exact .inl (by simp [divRem, hb, hmin', Int.tmod_def, Int.mul_comm])

/-- The quotient, wrapped to the type: both special cases of R77 are what wrapping gives. -/
theorem wrapTo_quotient (t : Nat) (a b : Int) :
    wrapTo t (divRem t a b).1 = wrapTo t (if b = 0 then -1 else a.tdiv b) := by
  by_cases hb : b = 0
  · simp [hb, divRem_zero, wrapTo_wrapTo]
  · obtain e | ⟨ht, rfl, rfl, e⟩ := divRem_of_ne_zero t a hb
    · simp [e, hb]
    · simp [e, Int.tdiv_neg, wrapTo_neg_minOf ht]

/-- The remainder: what the truncated quotient leaves, and the dividend when the divisor is zero. -/
theorem divRem_remainder (t : Nat) (a b : Int) : (divRem t a b).2 = if b = 0 then a else a.tmod b := by
  by_cases hb : b = 0
  · simp [hb, divRem_zero]
  · obtain e | ⟨ht, rfl, rfl, e⟩ := divRem_of_ne_zero t a hb
    · simp [e, hb]
    · simp [e]

theorem fitInt_quotient {f : Full} (h : f.fam < 8) (a b : Int) :
    fitInt f (divRem (f.fam % 8) a b).1 = fitInt f (if b = 0 then -1 else a.tdiv b) := by
  rw [fitInt_of_fam_lt h, fitInt_of_fam_lt h, wrapTo_quotient]

theorem madFn_eq_intResult {f : Full} (h : f.fam < 8) (g : Group) (i : Nat) (a b c : W64) :
    madFn f g i a b c = intResult f (asInt f a * asInt f b + asInt f c) := by
  simp only [madFn, intResult, writeInt_eq_intBits, ← fitInt_of_fam_lt h, fitInt_eq_fitted, readInt_eq_asInt]

/-- The addend of `IMADW` is read at the 64-bit type of the factors' signedness. -/
theorem readInt_eq_asWide {f : Full} (h : f.fam < 2) (v : W64) : readInt (f.fam % 8 + 2) v = asWide f v := by
  unfold readInt asWide
  have hw : tyWidth (f.fam % 8 + 2) = 64 := by
    obtain h | h : f.fam = 0 ∨ f.fam = 1 := by omega
    all_goals rw [h]; rfl
  have hp : (f.fam % 8 + 2) % 2 = f.fam % 2 := by omega
  simp only [hw, hp, signed_eq_bmod, ← BitVec.toInt_eq_toNat_bmod, Nat.mod_eq_of_lt v.isLt]

theorem madwFn_eq_sum {f : Full} (h : f.fam < 2) (g : Group) (i : Nat) (a b c : W64) :
    madwFn f g i a b c = ([BitVec.ofInt 64 (asInt f a * asInt f b + asWide f c)], 0) := by
  simp only [madwFn, w64_wrapNat, readInt_eq_asInt, readInt_eq_asWide h, BitVec.setWidth_eq]

/-- Settles O2: division wraps to R77's two special cases, and a legal `FAM` of each of the four rules out saturation. -/
theorem divisionAndMultiplyAddValues : Obligations.DivisionAndMultiplyAddValues := by
  intro f
  refine ⟨?idiv, ?irem, ?imad, ?imadw, Full.illegal_of_lit rfl⟩
  case idiv =>
    refine computes_of_alu (fun _ => intFn f fun a b => (divRem (f.fam % 8) a b).1) (fun _ => rfl) fun s h i _ => ?_
    have hfam : f.fam < 8 := of_decide_eq_true (Full.famOk_of_legal h.legal)
    rw [intFn_eq_intResult, intResult, ← fitInt_eq_fitted, fitInt_quotient hfam, fitInt_eq_fitted]
    rfl
  case irem =>
    refine computes_of_alu (fun _ => intFn f fun a b => (divRem (f.fam % 8) a b).2) (fun _ => rfl) fun s h i _ => ?_
    rw [intFn_eq_intResult, divRem_remainder]
  case imad =>
    refine computes_of_alu (fun _ => madFn f) (fun _ => rfl) fun s h i _ => ?_
    exact madFn_eq_intResult (of_decide_eq_true (Full.famOk_of_legal h.legal)) ..
  case imadw =>
    refine computes_of_alu (fun _ => madwFn f) (fun _ => rfl) fun s h i _ => ?_
    exact madwFn_eq_sum (of_decide_eq_true (Full.famOk_of_legal h.legal)) ..

/-! ### Compares (05 R82) -/

/-- The fields that read a source at the type of an `ICMP`, whose code is `FAM` [1:0] (05 R82). -/
def Full.compareType (f : Full) : Full := { f with mod := BitVec.ofNat 6 (f.fam % 4) }

theorem readInt_eq_asInt_compareType (f : Full) (v : W64) : readInt (f.fam % 4) v = asInt (Full.compareType f) v := by
  have hcode : (Full.compareType f).fam % 8 = f.fam % 4 := by
    simp only [Full.compareType, Full.fam, BitVec.toNat_ofNat]; omega
  rw [← readInt_eq_asInt, hcode]

/-! ### Predicate operands and the predicate opcodes (05 R83) -/

theorem Group.readP_zero (g : Group) (i : Nat) : g.readP i 0 = true := rfl

/-- A predicate's bit as a source is not zero when the predicate is true. -/
theorem bit_ne_zero (b : Bool) : ((if b then 1 else 0 : W64) != 0) = b := by cases b <;> rfl

theorem srcA_of_p {op : Op} {f : Full} {d : Bool} (h : (op.shape f).sa = .p d) (g : Group) (i : Nat) (v : W64) :
    srcA op f g i v = if g.readP i f.sa.toNat then 1 else 0 := by
  simp [srcA, h, readField]

/-- Source B of an opcode that takes no literal is the field. -/
theorem srcB_of_no_lit {op : Op} {f : Full} (h : (op.shape f).lit = .no) (g : Group) (i : Nat) :
    srcB op f g i = readField (op.shape f).sb false f.sb.toNat g i 0 := by
  unfold srcB
  split
  · simp [h]
  · rfl

/-- An operation on two predicates computes the truth of its function of them. -/
theorem computes_of_predicates {run : State → Result} {op : Op} {f : Full} (v : Bool → Bool → Bool)
    (ha : (op.shape f).sa = .p false) (hb : (op.shape f).sb = .p false) (hl : (op.shape f).lit = .no)
    (hr : ∀ s, run s = .next (aluExec op f s (predFn fun a b => v (a != 0) (b != 0)))) :
    Computes run op f (fun s i _ _ _ =>
      truth (v ((s.group s.cur.gid).readP i f.sa.toNat) ((s.group s.cur.gid).readP i f.sb.toNat))) := by
  refine computes_of_alu (fun _ => predFn fun a b => v (a != 0) (b != 0)) hr fun s _ i _ => ?_
  simp only [predFn, truth, srcA_of_p ha, srcB_of_no_lit hl, hb, readField, bit_ne_zero]

/-- An operation on one predicate computes the truth of its function of it. -/
theorem computes_of_predicate {run : State → Result} {op : Op} {f : Full} (v : Bool → Bool)
    (ha : (op.shape f).sa = .p false) (hr : ∀ s, run s = .next (aluExec op f s (predFn fun a _ => v (a != 0)))) :
    Computes run op f (fun s i _ _ _ => truth (v ((s.group s.cur.gid).readP i f.sa.toNat))) := by
  refine computes_of_alu (fun _ => predFn fun a _ => v (a != 0)) hr fun s _ i _ => ?_
  simp only [predFn, truth, srcA_of_p ha, bit_ne_zero]

/-- The immediate of a legal `PSET` is 0 or 1. -/
theorem pset_imm_of_legal {f : Full} (h : f.illegal .pset = none) : f.sb.toNat ≤ 1 := by
  have imm := Full.sb_ok h rfl
  simpa [Op.shape, Cls.check] using imm

/-- A legal instruction writes a predicate other than `p0`, and without `XD`. -/
theorem Full.dst_of_legal_p {op : Op} {f : Full} (hd : (op.shape f).dst = .p true) (hn : (op.shape f).nform = false)
    (h : f.illegal op = none) : f.xd = false ∧ f.dst.toNat < 64 ∧ f.dst ≠ 0 := by
  have hdst := Full.dst_ok h
  rw [hd, hn, Cls.check_p] at hdst
  obtain ⟨hxd, hlt, hne⟩ := hdst
  exact ⟨hxd, hlt, fun h0 => hne rfl (by rw [h0]; rfl)⟩

/-- `SA` of a legal instruction has no `XA` where it names a predicate or nothing. -/
theorem Full.xa_of_legal {op : Op} {f : Full} (ha : (op.shape f).sa = .p false ∨ (op.shape f).sa = .unused)
    (hm : (op.shape f).mem = .no) (hn : (op.shape f).nform = false) (h : f.illegal op = none) : f.xa = false := by
  have hsa := Full.sa_ok h hm
  rw [hn] at hsa
  obtain ha | ha := ha
  · rw [ha, Cls.check_p] at hsa
    obtain ⟨hxa, -⟩ := hsa
    exact hxa
  · rw [ha] at hsa
    cases hxa : f.xa with
    | false => rfl
    | true => simp [Cls.check, hxa] at hsa

/-- A legal predicate operation has a zero modifier and a destination other than `p0`. -/
theorem predicate_fields_of_legal {op : Op} {f : Full} (hop : op ∈ ([.pset, .pand, .por, .pxor, .pnot, .pmov] : List Op))
    (h : f.illegal op = none) : f.mod = 0 ∧ f.dst ≠ 0 := by
  have shape : (op.shape f).dst = .p true ∧ ((op.shape f).sa = .p false ∨ (op.shape f).sa = .unused) ∧
      (op.shape f).famOk = (f.fam == 0) ∧ (op.shape f).mem = .no ∧ (op.shape f).nform = false := by
    simp only [List.mem_cons, List.not_mem_nil, or_false] at hop
    obtain rfl | rfl | rfl | rfl | rfl | rfl := hop <;> simp [Op.shape]
  obtain ⟨hd, ha, hz, hm, hn⟩ := shape
  obtain ⟨hxd, -, hne⟩ := Full.dst_of_legal_p hd hn h
  have hfam : f.fam = 0 := by simpa [hz] using Full.famOk_of_legal h
  exact ⟨Full.mod_eq_zero hfam (Full.xa_of_legal ha hm hn h) hxd, hne⟩

/-- A legal compact predicate operation has a zero modifier and names predicates, its destination another one than `p0`. -/
theorem compact_predicate_fields_of_legal {c : COp} {x : Comp} (hc : c ∈ ([.pand, .por, .pxor] : List COp))
    (h : x.illegal c = none) : x.mod = 0 ∧ x.dst ≠ 0 ∧ x.dst.toNat < 64 ∧ x.src.toNat < 64 := by
  have shape : c.op ∈ ([.pset, .pand, .por, .pxor, .pnot, .pmov] : List Op) ∧ (c.op.shape x.expand).dst = .p true ∧
      (c.op.shape x.expand).sb = .p false ∧ (c.op.shape x.expand).lit = .no ∧ (c.op.shape x.expand).nform = false := by
    simp only [List.mem_cons, List.not_mem_nil, or_false] at hc
    obtain rfl | rfl | rfl := hc <;> simp [Op.shape, COp.op]
  obtain ⟨hop, hd, hb, hl, hn⟩ := shape
  obtain ⟨hmod, hne⟩ := predicate_fields_of_legal hop h
  obtain ⟨-, hdst, -⟩ := Full.dst_of_legal_p hd hn h
  have hsb := Full.sb_ok h hl
  rw [hb, Cls.check_p] at hsb
  obtain ⟨-, hsrc, -⟩ := hsb
  refine ⟨?_, hne, hdst, hsrc⟩
  have widened : ∀ m : BitVec 2, m.setWidth 6 = 0 → m = 0 := by decide
  exact widened x.mod hmod

/-- Settles O5: the compares by the condition code, the logic on predicate bits, and the refusals from what a legal form's
fields satisfy. -/
theorem comparesAndPredicateLogic : Obligations.ComparesAndPredicateLogic := by
  intro f x
  have refused : ∀ {o : Option Nat}, o ≠ none → o.isSome = true := Option.isSome_iff_ne_none.2
  refine ⟨?icmp, ?pset, computes_of_predicates (· && ·) rfl rfl rfl fun _ => rfl,
    computes_of_predicates (· || ·) rfl rfl rfl fun _ => rfl, computes_of_predicates (· ^^ ·) rfl rfl rfl fun _ => rfl,
    computes_of_predicate (!·) rfl ?pnot, computes_of_predicate id rfl fun _ => rfl,
    computes_of_predicates (· && ·) rfl rfl rfl fun _ => rfl, computes_of_predicates (· || ·) rfl rfl rfl fun _ => rfl,
    computes_of_predicates (· ^^ ·) rfl rfl rfl fun _ => rfl, ?forms, ?imm, ?compact, Group.readP_zero⟩
  case icmp =>
    refine computes_of_alu (fun _ => predFn (icmpVal f)) (fun _ => rfl) fun s _ i _ => ?_
    have hcond : f.fam / 4 = 0 ∨ f.fam / 4 = 1 ∨ f.fam / 4 = 2 ∨ f.fam / 4 = 3 := by
      have : f.fam < 16 := Nat.mod_lt _ (by decide)
      omega
    simp only [predFn, icmpVal, readInt_eq_asInt_compareType]
    obtain h | h | h | h := hcond <;> rw [h]
    · simp [truth, Full.compareType]
    · simp [truth, Full.compareType]
    · rfl
    · rfl
  case pset =>
    refine computes_of_alu (fun _ => predFn fun _ b => b != 0) (fun _ => rfl) fun s h i _ => ?_
    have himm := pset_imm_of_legal h.legal
    rw [srcB_of_no_lit rfl]
    show truth (w64 f.sb.toNat != 0) = truth (f.sb == 1)
    have bits : ∀ b : Byte, b.toNat ≤ 1 → (w64 b.toNat != 0) = (b == 1) := by decide
    rw [bits f.sb himm]
  case pnot =>
    have hnot : (fun a _ => !(a != 0) : W64 → W64 → Bool) = fun a _ => a == 0 := by funext a _; exact Bool.not_not _
    intro s
    rw [hnot]
    rfl
  case forms =>
    intro op hop hbad
    refine refused fun h => ?_
    obtain ⟨hmod, hdst⟩ := predicate_fields_of_legal hop h
    exact hbad.elim (· hmod) hdst
  case imm =>
    intro hsb
    exact refused fun h => absurd (pset_imm_of_legal h) (Nat.not_le.2 hsb)
  case compact =>
    intro c hc hbad
    refine refused fun h => ?_
    obtain ⟨hmod, hdst, hlow, hsrc⟩ := compact_predicate_fields_of_legal hc h
    obtain hbad | hbad | hbad | hbad := hbad
    · exact hbad hmod
    · exact hdst hbad
    · omega
    · omega

end Sys2Proof.Machine

namespace Sys2Proof.Machine

open Sys2Proof

/-! ### Forms that are not allowed (02 Table 2-8, steps 4 to 6) -/

theorem orCheck_of_none {a b : Option Nat} (h : a = none) : orCheck a b = b := by rw [h]; rfl

/-- A `FAM` that the opcode does not define is illegal. -/
theorem Full.illegal_of_fam {op : Op} {f : Full} (h : (op.shape f).famOk = false) : (f.illegal op).isSome = true :=
  Option.isSome_iff_ne_none.2 fun hlegal => by simp [Full.famOk_of_legal hlegal] at h

/-- Where `SB` alone separates an instruction from a legal one, the code is that of the check that `SB` fails. -/
theorem Full.illegal_of_sb {op : Op} {f : Full} {b : Byte} {code : Nat} (hl : (op.shape f).lit = .no)
    (hsame : op.shape { f with sb := b } = op.shape f) (h : ({ f with sb := b } : Full).illegal op = none)
    (hsb : (op.shape f).sb.check false f.sb.toNat = some code) : f.illegal op = some code := by
  have hlong : ({ f with sb := b } : Full).isLong op = f.isLong op := by
    simp only [Full.isLong, Full.popsQueue, Full.pushesQueue, hsame]
    rfl
  unfold Full.illegal at h
  simp only [orCheck_none, hsame, hlong] at h
  obtain ⟨lit, window, marker, modifier, dst, sa, -⟩ := h
  refine (orCheck_of_none lit).trans <| (orCheck_of_none window).trans <| (orCheck_of_none marker).trans <|
    (orCheck_of_none modifier).trans <| (orCheck_of_none dst).trans <| (orCheck_of_none sa).trans ?_
  simp [hl, hsb, orCheck]

theorem Cls.check_imm_above {lo hi v : Nat} (h : hi < v) : (Cls.imm lo hi).check false v = some 0x06 := by
  simp [Cls.check, h]

/-! ### Bit matrices, bit fields and funnel shifts (06 R98, R101 to R103) -/

/-- A bit of a GF(2) product is the sum of its terms. -/
theorem bitMatrix_xor (a b : W64) : bitMatrix true a.toNat b.toNat = ofTest 64 (fun p =>
    (List.range 8).foldl (fun r k => r ^^ (a.getLsbD (8 * (p / 8) + k) && b.getLsbD (8 * k + p % 8))) false) := by
  simp only [bitMatrix, if_true, List.foldl_map]
  rfl

/-- A bit of a Boolean product tells whether one of its terms is true. -/
theorem bitMatrix_or (a b : W64) : bitMatrix false a.toNat b.toNat = ofTest 64 (fun p =>
    (List.range 8).any (fun k => a.getLsbD (8 * (p / 8) + k) && b.getLsbD (8 * k + p % 8))) := by
  simp only [bitMatrix, Bool.false_eq_true, if_false, List.any_map]
  rfl

theorem lowBits_eq_low32 (v : W64) : lowBits 32 v = low32 v := (BitVec.toNat_setWidth ..).symm

theorem bits3_eq (v : Nat → Nat → Nat → Nat) (g : Group) (i : Nat) (a b c : W64) :
    bits3 v g i a b c = ([w64 (v (low32 a) (low32 b) (low32 c))], 0) := by
  simp only [bits3, lowBits_eq_low32]

/-- The value that a funnel shift moves has its first word as the upper half. -/
theorem toNat_append_words (hi lo : W32) : (hi ++ lo).toNat = hi.toNat * 2 ^ 32 + lo.toNat := by
  rw [BitVec.toNat_append, ← Nat.shiftLeft_add_eq_or_of_lt lo.isLt, Nat.shiftLeft_eq]

theorem funnel_left (hi lo : W32) (n : Nat) :
    funnel true hi.toNat lo.toNat n = (((hi ++ lo) <<< min n 32 : BitVec 64) >>> 32).toNat := by
  simp only [funnel, if_true, BitVec.toNat_ushiftRight, BitVec.toNat_shiftLeft, toNat_append_words, Nat.shiftLeft_eq,
    Nat.shiftRight_eq_div_pow]

theorem funnel_right (hi lo : W32) (n : Nat) :
    funnel false hi.toNat lo.toNat n = (((hi ++ lo) >>> min n 32 : BitVec 64).setWidth 32).toNat := by
  simp only [funnel, Bool.false_eq_true, if_false, BitVec.toNat_setWidth, BitVec.toNat_ushiftRight, toNat_append_words,
    Nat.shiftRight_eq_div_pow]

/-- Settles O9: the matrices bit by bit, the funnel shifts as shifts of the joined words, the others by the values that
the statement names. -/
theorem bitFieldResults : Obligations.BitFieldResults := by
  intro f
  refine ⟨?bmm8, ?bmo8, computes_of_alu _ (fun _ => rfl) fun _ _ _ _ => rfl,
    computes_of_alu _ (fun _ => rfl) fun _ _ _ _ => rfl, computes_of_alu _ (fun _ => rfl) fun _ _ _ _ => rfl,
    ?bfx, computes_of_alu _ (fun _ => rfl) fun _ _ _ _ => bits3_eq .., ?fshl, ?fshr, fun hfam =>
    ⟨Full.illegal_of_fam (beq_false_of_ne hfam), Full.illegal_of_fam (beq_false_of_ne hfam)⟩⟩
  case bmm8 =>
    refine computes_of_alu _ (fun _ => rfl) fun s _ i _ => ?_
    rw [pairFn, bitMatrix_xor, w64]
  case bmo8 =>
    refine computes_of_alu _ (fun _ => rfl) fun s _ i _ => ?_
    rw [pairFn, bitMatrix_or, w64]
  case bfx =>
    refine computes_of_alu _ (fun _ => rfl) fun s h i _ => ?_
    have hfam : f.fam < 2 := of_decide_eq_true (Full.famOk_of_legal h.legal)
    rw [bits3_eq, Nat.mod_eq_of_lt hfam]
  case fshl =>
    refine computes_of_alu _ (fun _ => rfl) fun s _ i _ => ?_
    rw [bits3_eq, low32, low32, funnel_left, w64, BitVec.ofNat_toNat, BitVec.setWidth_eq]
  case fshr =>
    refine computes_of_alu _ (fun _ => rfl) fun s _ i _ => ?_
    rw [bits3_eq, low32, low32, funnel_right, w64, BitVec.ofNat_toNat]

/-! ### Votes, shuffles and reductions (06 R105 to R107) -/

/-- A predicate source is nonzero on the lanes on which the predicate is true. -/
theorem srcA_ne_zero_of_p {op : Op} {f : Full} {d : Bool} (h : (op.shape f).sa = .p d) (g : Group) (j : Nat) (v : W64) :
    (srcA op f g j v != 0) = g.readP j f.sa.toNat := by
  rw [srcA_of_p h, bit_ne_zero]

theorem quorum_eq (q t n : Nat) : quorum q t n =
    if q = 33 then decide (t = n) else if q = 34 then decide (t = 0 ∨ t = n) else decide (q ≤ t) := by
  have test : ∀ a b : Nat, (a == b) = decide (a = b) := fun _ _ => rfl
  simp only [quorum, test, decide_eq_true_eq, Bool.decide_or]

section
variable {f : Full} {part : List Nat} {val : Nat → W64} {i j : Nat} {b : W64}

/-- A lane whose source lies outside its segment keeps its own value. -/
theorem shflFn_of_none (h : shflSource f.fam i (low32 b) = none) : shflFn f part val i b = val i := by
  simp only [shflFn, lowBits_eq_low32, h]

/-- A lane reads its source's value if the source participates, and else keeps its own. -/
theorem shflFn_of_some (h : shflSource f.fam i (low32 b) = some j) :
    shflFn f part val i b = if part.contains j then val j else val i := by
  simp only [shflFn, lowBits_eq_low32, h]

end

theorem reduxVal_eq (fam : Nat) (part : List Nat) (val : Nat → W64) (i : Nat) :
    reduxVal fam part val i = (if 8 ≤ fam then part.filter (· < i) else part).foldl
      (fun r j => reduxOp (fam % 8) r (low32 (val j))) (reduxId (fam % 8)) := by
  simp only [reduxVal, lowBits_eq_low32]

/-- Settles O10: votes count the predicate's truth, shuffles go by the source lane, and a quorum or a `FAM` that is not
defined fails its check. -/
theorem crossLaneResults : Obligations.CrossLaneResults := by
  intro f val
  refine ⟨computes_of_cross _ (fun _ => rfl) fun _ _ _ _ => rfl, ?vote, ?mask, ?count, ?shfl,
    computes_of_cross _ (fun _ => rfl) fun _ _ _ _ => ?redux,
    fun hq h => Full.illegal_of_sb (b := 0) rfl rfl h (Cls.check_imm_above hq),
    fun hfam => Full.illegal_of_fam (beq_false_of_ne hfam),
    fun hfam => Full.illegal_of_fam (decide_eq_false (Nat.not_lt.2 hfam))⟩
  case vote =>
    refine computes_of_cross _ (fun _ => rfl) fun s _ i _ => ?_
    simp only [srcA_ne_zero_of_p (op := .vote) rfl, quorum_eq, truth]
  case mask =>
    refine computes_of_cross _ (fun _ => rfl) fun s _ i _ => ?_
    simp only [srcA_ne_zero_of_p (op := .voteMc) rfl]
  case count =>
    refine computes_of_cross _ (fun _ => rfl) fun s _ i _ => ?_
    simp only [srcA_ne_zero_of_p (op := .voteMc) rfl]
  case shfl =>
    refine computes_of_cross _ (fun _ => rfl) fun s _ i _ => ?_
    split
    next j h => rw [shflFn_of_some h]
    next h => rw [shflFn_of_none h]
  case redux => rw [reduxVal_eq]

end Sys2Proof.Machine

namespace Sys2Proof.Machine

open Sys2Proof

/-! ### Instructions of a whole issue (09) -/

/-- Only a field of class G may be extended (02 R30). -/
theorem Cls.ext_of_check {c : Cls} {ext : Bool} {v : Nat} (hc : ∀ n a conv, c ≠ .g n a conv)
    (h : c.check ext v = none) : ext = false := by
  cases ext with
  | false => rfl
  | true =>
    cases c with
    | g n a conv => exact absurd rfl (hc n a conv)
    | _ => simp [Cls.check] at h

/-- An instruction whose `SA` is of another class than G pops nothing. -/
theorem Full.popsQueue_of_legal {op : Op} {f : Full} (h : f.illegal op = none) (hm : (op.shape f).mem = .no)
    (ha : ∀ n a conv, (op.shape f).sa ≠ .g n a conv) : f.popsQueue op = false := by
  have hxa : (!(op.shape f).nform && f.xa) = false := Cls.ext_of_check ha (Full.sa_ok h hm)
  simp [Full.popsQueue, Bool.and_comm f.xa, hxa]

/-- A `DST` that is unused or names a rejoin mask names no queue. -/
theorem destQueue_of_unused_or_j {op : Op} {f : Full} (hd : (op.shape f).dst = .unused ∨ (op.shape f).dst = .j) :
    destQueue op f = none := by
  obtain hd | hd := hd <;> rw [destQueue, hd] <;> rfl

/-- A legal instruction of the rejoin masks names no queue. -/
theorem noQueue_of_rejoin {op : Op} {f : Full} (hop : op ∈ ([.jenr, .jstr, .jclr, .jarr] : List Op))
    (h : f.illegal op = none) : noQueue op f := by
  have shape : (op.shape f).mem = .no ∧ ((op.shape f).sa = .unused ∨ (op.shape f).sa = .j) ∧
      ((op.shape f).dst = .unused ∨ (op.shape f).dst = .j) := by
    simp only [List.mem_cons, List.not_mem_nil, or_false] at hop
    obtain rfl | rfl | rfl | rfl := hop <;> simp [Op.shape]
  obtain ⟨hm, ha, hd⟩ := shape
  have hpop : f.popsQueue op = false := Full.popsQueue_of_legal h hm fun n a conv => by
    obtain ha | ha := ha <;> simp [ha]
  have hdst := destQueue_of_unused_or_j hd
  exact ⟨by simp [popQueueOf, hpop, hdst], hdst⟩

theorem State.queueTraps_of_noQueue {op : Op} {f : Full} (s : State) (hq : noQueue op f) :
    s.queueTraps op f = none := by
  obtain ⟨hpop, hdst⟩ := hq
  have hp : f.popsQueue op = false := by
    cases hp : f.popsQueue op with
    | false => rfl
    | true => simp [popQueueOf, hp] at hpop
  simp [State.queueTraps, hp, hdst]

@[simp] theorem State.group_id (s : State) (id : Nat) : (s.group id).id = id := by
  unfold State.group
  cases h : s.group? id with
  | none => rfl
  | some g => simpa using List.find?_some h

/-- An issue without queue operands whose body lets the lanes `ls` go on: those and the lanes whose guard is false do. -/
theorem groupExec_of_go {s t : State} {op : Op} {f : Full} {body : State → Group → List Nat → List (Nat × W64) → GroupStep}
    {ls : List Nat} (h : Ready s op f) (hq : noQueue op f) (hen : s.enabledFor f ≠ [])
    (hb : body s (s.group s.cur.gid) (s.enabledFor f) ((s.enabledFor f).map (fun i => (i, 0))) = .go ls t)
    (hcur : t.cur = s.cur) : groupExec op f s body = t.goOn (ls ++ s.disabledFor f) := by
  have hpop : popQueueOf op f = none := hq.1
  have hbad : s.badPops op f = [] := by simp [State.badPops, hpop]
  simp only [groupExec, List.isEmpty_iff, hen, h.safe, s.queueTraps_of_noQueue hq, hbad, hpop, hb, List.length_map,
    Nat.lt_irrefl, State.goOn, hcur, State.disabledFor, List.isEmpty_nil, Bool.not_true, Bool.false_eq_true, if_false]

/-- An instruction of a rejoin mask changes its group by `change`, and the lanes `ls` go on. -/
theorem groupExec_of_rejoin_go {s : State} {op : Op} {f : Full} {body : State → Group → List Nat → List (Nat × W64) → GroupStep}
    {ls : List Nat} {change : Group → Group} (hop : op ∈ ([.jenr, .jstr, .jclr, .jarr] : List Op)) (h : Ready s op f)
    (hen : s.enabledFor f ≠ [])
    (hb : body s (s.group s.cur.gid) (s.enabledFor f) ((s.enabledFor f).map (fun i => (i, 0))) =
      .go ls (s.modGroup (s.group s.cur.gid).id change)) :
    groupExec op f s body = (s.modGroup s.cur.gid change).goOn (ls ++ s.disabledFor f) := by
  rw [State.group_id] at hb
  exact groupExec_of_go h (noQueue_of_rejoin hop h.legal) hen hb rfl

/-- Settles O14: `JENR`, `JSTR` and `JCLR` have one effect each; `JARR` parks where enforcement is on and the mask keeps a
lane, and else only takes the arrivals out of the mask. -/
theorem rejoinMaskInstructions : Obligations.RejoinMaskInstructions := by
  intro s f hen
  refine ⟨fun h => ?jenr, fun h => ?jstr, fun h => ?jclr, fun h hon hleft => ?parks, fun h hfree => ?releases⟩
  case jenr => exact congrArg _ (groupExec_of_rejoin_go (by decide) h hen rfl)
  case jstr => exact congrArg _ (groupExec_of_rejoin_go (by decide) h hen rfl)
  case jclr => exact congrArg _ (groupExec_of_rejoin_go (by decide) h hen rfl)
  case parks =>
    have hpark := Bool.and_eq_true_iff.2 ⟨hon, bne_iff_ne.2 hleft⟩
    exact congrArg _ (groupExec_of_rejoin_go (by decide) h hen (if_pos hpark))
  case releases =>
    refine congrArg _ (groupExec_of_rejoin_go (by decide) h hen (if_neg fun hpark => ?_))
    obtain ⟨hon, hleft⟩ := Bool.and_eq_true_iff.1 hpark
    obtain hoff | hlast := hfree
    · exact absurd hon (Bool.eq_false_iff.1 hoff)
    · exact bne_iff_ne.1 hleft hlast

end Sys2Proof.Machine

namespace Sys2Proof.Machine

open Sys2Proof

/-! ### Lists, and choices that answer nothing -/

theorem foldl_ignore {α β : Type} (s : α) (l : List β) : l.foldl (fun t _ => t) s = s := by
  induction l with
  | nil => rfl
  | cons _ r ih => exact ih

theorem getD_of_length_le {α : Type} {l : List α} {n : Nat} {d : α} (h : l.length ≤ n) : l.getD n d = d := by
  rw [List.getD_eq_getElem?_getD, List.getElem?_eq_none h]
  rfl

theorem getD_replicate_self {α : Type} (d : α) (n k : Nat) : (List.replicate n d).getD k d = d := by
  rw [List.getD_eq_getElem?_getD, List.getElem?_replicate]
  split <;> rfl

/-- Elements of a list whose images are all different are equal where their images are. -/
theorem eq_of_nodup_map {α β : Type} {f : α → β} {l : List α} (distinct : (l.map f).Nodup) {x y : α} (hx : x ∈ l) (hy : y ∈ l)
    (same : f x = f y) : x = y := by
  induction l with
  | nil => cases hx
  | cons a r ih =>
    obtain ⟨apart, rest⟩ := List.nodup_cons.1 distinct
    obtain rfl | inRest := List.mem_cons.1 hx
    · obtain rfl | behind := List.mem_cons.1 hy
      · rfl
      · exact absurd (same ▸ List.mem_map_of_mem behind) apart
    · obtain rfl | behind := List.mem_cons.1 hy
      · exact absurd (same ▸ List.mem_map_of_mem inRest) apart
      · exact ih rest inRest behind

/-- A chain of checks that answers nothing has passed its first one. -/
theorem passed_of_ite_eq_none {α : Type} {c : Prop} [Decidable c] {a : α} {o : Option α}
    (h : (if c then some a else o) = none) : ¬ c ∧ o = none := by
  split at h
  · cases h
  · exact ⟨‹_›, h⟩

end Sys2Proof.Machine

namespace Sys2Proof.Machine

open Sys2Proof

/-! ### Integer arithmetic (05 R76) -/

/-- An integer instruction of Table 5-3 computes the fitted value of its function on exact integers. -/
theorem computes_of_intFn {run : State → Result} {op : Op} {f : Full} (v v' : Int → Int → Int)
    (hr : ∀ s, run s = .next (aluExec op f s (intFn f v))) (hv : ∀ a b, v a b = v' a b) :
    Computes run op f (fun _ _ a b _ => intResult f (v' (asInt f a) (asInt f b))) :=
  computes_of_alu (fun _ => intFn f v) hr fun _ _ _ _ => by rw [intFn_eq_intResult, hv]

/-- Settles O1: every instruction of Table 5-3, the compact forms too, is the fitted value of its function on integers. -/
theorem integerArithmeticWritesFittedValue : Obligations.IntegerArithmeticWritesFittedValue := by
  intro f x
  exact ⟨computes_of_intFn _ _ (fun _ => rfl) fun _ _ => rfl, computes_of_intFn _ _ (fun _ => rfl) fun _ _ => rfl,
    computes_of_intFn _ _ (fun _ => rfl) fun _ _ => rfl, computes_of_intFn _ (mulHigh f) (fun _ => rfl) fun _ _ => rfl,
    computes_of_intFn _ _ (fun _ => rfl) fun _ _ => by omega, computes_of_intFn _ _ (fun _ => rfl) fun _ _ => by omega,
    computes_of_intFn _ (fun a _ => (a.natAbs : Int)) (fun _ => rfl) fun _ _ => by omega,
    computes_of_intFn _ (fun a _ => -a) (fun _ => rfl) fun _ _ => rfl,
    computes_of_intFn _ _ (fun _ => rfl) fun _ _ => rfl, computes_of_intFn _ _ (fun _ => rfl) fun _ _ => rfl,
    computes_of_intFn _ _ (fun _ => rfl) fun _ _ => rfl,
    computes_of_intFn _ _ (fun _ => rfl) fun _ _ => by omega, computes_of_intFn _ _ (fun _ => rfl) fun _ _ => by omega⟩

/-! ### Shifts and logic on `w` bits (05 R79) -/

theorem tyWidth_le (t : Nat) : tyWidth t ≤ 64 := by
  unfold tyWidth
  repeat' split
  all_goals decide

theorem lowBits_eq_toNat (w : Nat) (v : W64) : lowBits w v = (v.setWidth w).toNat := (BitVec.toNat_setWidth ..).symm

theorem w64_toNat {w : Nat} (v : BitVec w) : w64 v.toNat = v.setWidth 64 := BitVec.ofNat_toNat ..

/-- A shift computes the operation on `w` bits that its function on numbers stands for. -/
theorem computes_of_shiftFn {run : State → Result} {op : Op} {f : Full} (val : Nat → Nat → Nat → Nat)
    (v : (w : Nat) → BitVec w → Nat → BitVec w) (hr : ∀ s, run s = .next (aluExec op f s (shiftFn f val)))
    (hv : ∀ w (u : BitVec w) n, 0 < w → val w u.toNat n = (v w u n).toNat) :
    Computes run op f (fun _ _ a b _ => bitResult f (fun w u _ => v w u (low32 b)) a b) :=
  computes_of_alu (fun _ => shiftFn f val) hr fun _ _ _ _ => by
    simp only [shiftFn, bitResult, opWidth, lowBits_eq_toNat, hv _ _ _ (tyWidth_pos _), w64_toNat]
    rfl

/-- A logic operation computes on `w` bits if it commutes with truncation. -/
theorem computes_of_logicFn {run : State → Result} {op : Op} {f : Full} (val : W64 → W64 → W64)
    (v : (w : Nat) → BitVec w → BitVec w → BitVec w) (hr : ∀ s, run s = .next (aluExec op f s (logicFn f val)))
    (hv : ∀ w (a b : W64), w ≤ 64 → (val a b).setWidth w = v w (a.setWidth w) (b.setWidth w)) :
    Computes run op f (fun _ _ a b _ => bitResult f v a b) :=
  computes_of_alu (fun _ => logicFn f val) hr fun _ _ _ _ => by
    simp only [logicFn, bitResult, opWidth, lowBits_eq_toNat, hv _ _ _ (tyWidth_le _), w64_toNat]

theorem shlVal_eq {w : Nat} (u : BitVec w) (n : Nat) : shlVal w u.toNat n = (u <<< n).toNat := by
  unfold shlVal
  rw [BitVec.toNat_shiftLeft, Nat.shiftLeft_eq]
  split
  next h => rw [Nat.mod_eq_zero_of_dvd (Nat.dvd_mul_left_of_dvd (Nat.pow_dvd_pow 2 h) _)]
  next => rfl

theorem shrVal_eq {w : Nat} (u : BitVec w) (n : Nat) : shrVal w u.toNat n = (u >>> n).toNat := by
  unfold shrVal
  rw [BitVec.toNat_ushiftRight, Nat.shiftRight_eq_div_pow]
  split
  next h => rw [Nat.div_eq_of_lt (Nat.lt_of_lt_of_le u.isLt (Nat.pow_le_pow_right (by decide) h))]
  next => rfl

theorem signed_toNat {w : Nat} (u : BitVec w) : signed w u.toNat = u.toInt := by
  rw [signed_eq_bmod, BitVec.toInt_eq_toNat_bmod]

theorem sarVal_eq {w : Nat} (u : BitVec w) (n : Nat) : sarVal w u.toNat n = (u.sshiftRight n).toNat := by
  simp only [sarVal, signed_toNat]
  split
  next h =>
    have below : ∀ x, x < 2 ^ w → x >>> n = 0 := fun x hx =>
      Nat.shiftRight_eq_zero _ _ (Nat.lt_of_lt_of_le hx (Nat.pow_le_pow_right (by decide) h))
    have pos := Nat.two_pow_pos w
    split
    next neg =>
      rw [BitVec.toNat_sshiftRight_of_msb_true (by simp [BitVec.msb_eq_toInt, neg]), below _ (by omega), Nat.sub_zero]
    next nonneg =>
      rw [BitVec.toNat_sshiftRight_of_msb_false (by simpa [BitVec.msb_eq_toInt] using nonneg), below _ u.isLt]
  next =>
    rw [Int.fdiv_eq_ediv_of_nonneg _ (Int.natCast_nonneg _), ← Int.shiftRight_eq_div_pow, BitVec.sshiftRight,
      BitVec.toNat_ofInt]
    norm_cast

theorem rolVal_eq {w : Nat} (u : BitVec w) (n : Nat) (hw : 0 < w) : rolVal w u.toNat n = (u.rotateLeft n).toNat := by
  have hk : n % w < w := Nat.mod_lt _ hw
  have split : 2 ^ w = 2 ^ (w - n % w) * 2 ^ (n % w) := by rw [← Nat.pow_add, Nat.sub_add_cancel (Nat.le_of_lt hk)]
  have low : u.toNat / 2 ^ (w - n % w) < 2 ^ (n % w) := by
    rw [Nat.div_lt_iff_lt_mul (Nat.two_pow_pos _), Nat.mul_comm, ← split]
    exact u.isLt
  rw [rolVal, BitVec.toNat_rotateLeft, Nat.shiftLeft_eq, Nat.shiftRight_eq_div_pow, split, Nat.mul_mod_mul_right,
    ← Nat.shiftLeft_eq, Nat.shiftLeft_add_eq_or_of_lt low]

/-- Settles O3. -/
theorem shiftAndLogicResults : Obligations.ShiftAndLogicResults := by
  intro f x
  exact ⟨computes_of_shiftFn _ (fun _ u n => u <<< n) (fun _ => rfl) fun _ u n _ => shlVal_eq u n,
    computes_of_shiftFn _ (fun _ u n => u >>> n) (fun _ => rfl) fun _ u n _ => shrVal_eq u n,
    computes_of_shiftFn _ (fun _ u n => u.sshiftRight n) (fun _ => rfl) fun _ u n _ => sarVal_eq u n,
    computes_of_shiftFn _ (fun _ u n => u.rotateLeft n) (fun _ => rfl) fun _ u n => rolVal_eq u n,
    computes_of_logicFn _ _ (fun _ => rfl) fun _ _ _ _ => BitVec.setWidth_and ..,
    computes_of_logicFn _ _ (fun _ => rfl) fun _ _ _ _ => BitVec.setWidth_or ..,
    computes_of_logicFn _ _ (fun _ => rfl) fun _ _ _ _ => BitVec.setWidth_xor ..,
    computes_of_logicFn _ (fun _ a b => a &&& ~~~b) (fun _ => rfl) fun w a b h => by rw [BitVec.setWidth_and, BitVec.setWidth_not h],
    computes_of_logicFn _ (fun _ a _ => ~~~a) (fun _ => rfl) fun w a _ h => BitVec.setWidth_not h,
    computes_of_shiftFn _ (fun _ u n => u <<< n) (fun _ => rfl) fun _ u n _ => shlVal_eq u n,
    computes_of_shiftFn _ (fun _ u n => u >>> n) (fun _ => rfl) fun _ u n _ => shrVal_eq u n,
    computes_of_shiftFn _ (fun _ u n => u.sshiftRight n) (fun _ => rfl) fun _ u n _ => sarVal_eq u n,
    computes_of_shiftFn _ (fun _ u n => u.rotateLeft n) (fun _ => rfl) fun _ u n => rolVal_eq u n,
    computes_of_logicFn _ _ (fun _ => rfl) fun _ _ _ _ => BitVec.setWidth_and ..,
    computes_of_logicFn _ _ (fun _ => rfl) fun _ _ _ _ => BitVec.setWidth_or ..,
    computes_of_logicFn _ _ (fun _ => rfl) fun _ _ _ _ => BitVec.setWidth_xor ..,
    computes_of_logicFn _ (fun _ a b => a &&& ~~~b) (fun _ => rfl) fun w a b h => by rw [BitVec.setWidth_and, BitVec.setWidth_not h]⟩


end Sys2Proof.Machine

namespace Sys2Proof.Machine

open Sys2Proof

/-! ### Bit counts, moves and addresses (05 R79 to R81) -/

theorem clzVal_eq {w : Nat} (u : BitVec w) (hw : 0 < w) : clzVal w u.toNat = u.clz.toNat := by
  have self : w < 2 ^ w := Nat.lt_two_pow_self
  have hle : u.clz.toNat ≤ w := by simpa [BitVec.le_def, Nat.mod_eq_of_lt self] using BitVec.clz_le (x := u)
  unfold clzVal bitLen
  by_cases hu : u = 0#w
  · simp [hu, BitVec.clz_eq_iff_eq_zero.2 rfl, Nat.mod_eq_of_lt self]
  · have hpos : u.toNat ≠ 0 := fun h => hu (BitVec.eq_of_toNat_eq (by simpa using h))
    have hlt : u.clz.toNat < w := by
      simpa [BitVec.lt_def, Nat.mod_eq_of_lt self] using (BitVec.clz_lt_iff_ne_zero (x := u)).2 hu
    have hlog : u.toNat.log2 = w - 1 - u.clz.toNat := (Nat.log2_eq_iff hpos).2
      ⟨BitVec.two_pow_sub_clz_le_toNat_of_ne_zero hw hu, by
        rw [show w - 1 - u.clz.toNat + 1 = w - u.clz.toNat by omega]; exact BitVec.toNat_lt_two_pow_sub_clz⟩
    simp only [beq_iff_eq, hpos, if_false, hlog]
    omega

theorem popc_eq_cpopNatRec {w : Nat} (u : BitVec w) (n : Nat) :
    ((List.range n).filter (fun i => u.toNat.testBit i)).length = u.cpopNatRec n 0 := by
  induction n with
  | zero => rfl
  | succ n ih =>
    rw [List.range_succ, List.filter_append, List.length_append, ih, BitVec.cpopNatRec_succ, BitVec.cpopNatRec_eq (acc := _ + _)]
    cases h : u.getLsbD n <;> simp [BitVec.testBit_toNat, h]

theorem popcVal_eq {w : Nat} (u : BitVec w) : popcVal w u.toNat = u.cpop.toNat := by
  rw [popcVal, popc_eq_cpopNatRec, BitVec.toNat_cpop]

/-- The fold of `BREV` over the low `k` bits has their reverse as its upper bits. -/
theorem brev_fold_eq {w : Nat} (u : BitVec w) {k : Nat} (hk : k ≤ w) :
    (List.range k).foldl (fun r i => if u.toNat.testBit i then r + 2 ^ (w - 1 - i) else r) 0 =
      2 ^ (w - k) * (u.setWidth k).reverse.toNat := by
  induction k with
  | zero => simp [BitVec.reverse, Nat.mod_one]
  | succ k ih =>
    have next : w - k = w - (k + 1) + 1 := by omega
    have last : w - 1 - k = w - (k + 1) := by omega
    have low : (u.setWidth (k + 1)).setWidth k = u.setWidth k := BitVec.setWidth_setWidth_of_le _ (Nat.le_succ k)
    have top : (u.setWidth (k + 1)).msb = u.getLsbD k := by simp [BitVec.msb_setWidth]
    rw [List.range_succ, List.foldl_append, ih (by omega)]
    simp only [List.foldl_cons, List.foldl_nil, BitVec.testBit_toNat, BitVec.reverse, BitVec.toNat_concat, low, top, next, last,
      Nat.pow_succ]
    cases u.getLsbD k
    · simp only [Bool.false_eq_true, if_false, Bool.toNat_false, Nat.add_zero, Nat.mul_assoc, Nat.mul_comm 2]
    · simp only [if_true, Bool.toNat_true, Nat.mul_add, Nat.mul_one, Nat.mul_assoc, Nat.mul_comm 2]

theorem brevVal_eq {w : Nat} (u : BitVec w) : brevVal w u.toNat = u.reverse.toNat := by
  have full := brev_fold_eq u (Nat.le_refl w)
  simpa [brevVal] using full

/-- The opcodes of widths 32 and 64 alone. -/
theorem tyWidth_of_x2 {f : Full} (h : (f.fam == 0 || f.fam == 2) = true) :
    tyWidth (f.fam % 8) = 32 ∨ tyWidth (f.fam % 8) = 64 := by
  obtain h | h := Bool.or_eq_true _ _ ▸ h <;> simp [beq_iff_eq.1 h, tyWidth]

/-- A source of 32 or 64 bits holds no bits above its width. -/
theorem srcA_setWidth {op : Op} {f : Full} {w : Nat} (ha : (op.shape f).sa = gW w) (hw : w = 32 ∨ w = 64) (g : Group) (i : Nat) :
    ((srcA op f g i 0).setWidth w).setWidth 64 = srcA op f g i 0 := by
  obtain rfl | rfl := hw
  · have narrow : ∀ v : W32, ((v.setWidth 64).setWidth 32).setWidth 64 = v.setWidth 64 := fun v => by
      simp
    simp only [srcA, ha, gW, readField, beq_self_eq_true, if_true, Nat.reduceBEq, Bool.false_eq_true, if_false]
    split
    · split <;> exact narrow _
    · exact narrow _
  · simp

/-- An immediate extended to a wider word and cut to `w` bits is the immediate extended to `w` bits. -/
theorem setWidth_signExtend {n w : Nat} (v : BitVec n) (hw : w ≤ 64) : (v.signExtend 64).setWidth w = v.signExtend w := by
  ext i hi
  simp [BitVec.getElem_signExtend, show i < 64 by omega]

/-- `MOVI` writes its literal, or else the immediate in `SB`, sign-extended (05 R80). -/
theorem moviVal_eq {f : Full} (g : Group) (i : Nat) : moviVal f (srcB .movi f g i) =
    (match f.lit with
    | some l => l.signExtend (tyWidth (f.fam % 8))
    | none => f.sb.signExtend (tyWidth (f.fam % 8))).setWidth 64 := by
  simp only [moviVal, opWidth, lowBits_eq_toNat, w64_toNat]
  cases h : f.lit with
  | some l => simp [srcB, h, litWord, litSigned, Op.shape, setWidth_signExtend _ (tyWidth_le _)]
  | none => simp [srcB, h, readField, Op.shape, setWidth_signExtend _ (tyWidth_le _), w64]

theorem srcC_of_p {op : Op} {f : Full} {d : Bool} (h : (op.shape f).sc = .p d) (hl : (op.shape f).lit ≠ .c) (g : Group) (i : Nat) :
    srcC op f g i = if g.readP i f.sc.toNat then 1 else 0 := by
  unfold srcC
  split <;> simp [h, hl, readField]

/-- Settles O4. -/
theorem movesBitCountsAndAddresses : Obligations.MovesBitCountsAndAddresses := by
  intro f
  refine ⟨?clz, ?popc, ?brev, ?mov, ?movi, ?sel, computes_of_alu _ (fun _ => rfl) fun _ _ _ _ => rfl⟩
  case clz =>
    refine computes_of_alu _ (fun _ => rfl) fun _ _ _ _ => ?_
    simp only [bitResult, opWidth, lowBits_eq_toNat, clzVal_eq _ (tyWidth_pos _), w64_toNat]
  case popc =>
    refine computes_of_alu _ (fun _ => rfl) fun _ _ _ _ => ?_
    simp only [bitResult, opWidth, lowBits_eq_toNat, popcVal_eq, w64_toNat]
  case brev =>
    refine computes_of_alu _ (fun _ => rfl) fun _ _ _ _ => ?_
    simp only [bitResult, opWidth, lowBits_eq_toNat, brevVal_eq, w64_toNat]
  case mov =>
    refine computes_of_alu _ (fun _ => rfl) fun _ h _ _ => ?_
    rw [bitResult, srcA_setWidth rfl (tyWidth_of_x2 (Full.famOk_of_legal h.legal))]
  case movi =>
    refine computes_of_alu _ (fun _ => rfl) fun _ _ _ _ => ?_
    rw [moviVal_eq]
    rfl
  case sel =>
    refine computes_of_alu _ (fun _ => rfl) fun _ h _ _ => ?_
    simp only [bitResult, opWidth, lowBits_eq_toNat, w64_toNat]
    rw [srcC_of_p (op := .sel) (f := f) rfl (fun h => nomatch h), bit_ne_zero]
    congr
    split <;> rfl

end Sys2Proof.Machine

namespace Sys2Proof.Machine

open Sys2Proof

/-! ### Floating point (05 R84 to R93) -/

section
variable {run : State → Result} {op : Op} {f : Full}

/-- An instruction of one F32 operand computes its operation on the low 32 bits of the source. -/
theorem computes_of_f32Un (v : State → Nat → Nat × FlagSet) (hr : ∀ s, run s = .next (aluExec op f s (f32Un (v s)))) :
    Computes run op f (fun s _ a _ _ => one32 (v s (low32 a))) :=
  computes_of_alu (fun s => f32Un (v s)) hr fun _ _ _ _ => by simp only [f32Un, lowBits_eq_low32, one32]

/-- An instruction of two F32 operands. -/
theorem computes_of_f32Fn (v : State → Nat → Nat → Nat × FlagSet) (hr : ∀ s, run s = .next (aluExec op f s (f32Fn (v s)))) :
    Computes run op f (fun s _ a b _ => one32 (v s (low32 a) (low32 b))) :=
  computes_of_alu (fun s => f32Fn (v s)) hr fun _ _ _ _ => by simp only [f32Fn, lowBits_eq_low32, one32]

/-- An instruction of three F32 operands. -/
theorem computes_of_f32Fn3 (v : State → Nat → Nat → Nat → Nat × FlagSet)
    (hr : ∀ s, run s = .next (aluExec op f s (f32Fn3 (v s)))) :
    Computes run op f (fun s _ a b c => one32 (v s (low32 a) (low32 b) (low32 c))) :=
  computes_of_alu (fun s => f32Fn3 (v s)) hr fun _ _ _ _ => by simp only [f32Fn3, lowBits_eq_low32, one32]

/-- An instruction whose statement names the model's own function of the sources. -/
theorem computes_of_fn (fn : State → LaneFn) (hr : ∀ s, run s = .next (aluExec op f s (fn s))) :
    Computes run op f (fun s i a b c => fn s (s.group s.cur.gid) i a b c) :=
  computes_of_alu fn hr fun _ _ _ _ => rfl

end

/-- Settles O6. -/
theorem scalarFloatResults : Obligations.ScalarFloatResults := by
  intro f x
  exact ⟨computes_of_f32Fn _ fun _ => rfl, computes_of_f32Fn _ fun _ => rfl, computes_of_f32Fn _ fun _ => rfl,
    computes_of_f32Fn3 _ fun _ => rfl, computes_of_f32Fn _ fun _ => rfl, computes_of_f32Fn _ fun _ => rfl,
    computes_of_alu _ (fun _ => rfl) fun _ _ _ _ => by simp only [lowBits_eq_low32],
    computes_of_alu _ (fun _ => rfl) fun _ _ _ _ => by simp only [lowBits_eq_low32],
    computes_of_f32Fn (fun s a _ => frndVal (s.envFor f) a) fun _ => rfl, computes_of_alu _ (fun _ => rfl) fun _ _ _ _ => rfl,
    computes_of_f32Fn _ fun _ => rfl, computes_of_f32Fn _ fun _ => rfl, computes_of_f32Fn _ fun _ => rfl,
    computes_of_f32Fn _ fun _ => rfl, computes_of_f32Fn _ fun _ => rfl⟩

/-- Settles O7. -/
theorem transcendentalResults : Obligations.TranscendentalResults := by
  intro f
  exact ⟨computes_of_f32Un _ fun _ => rfl, computes_of_f32Un _ fun _ => rfl, computes_of_f32Un _ fun _ => rfl,
    computes_of_f32Un _ fun _ => rfl, computes_of_f32Un _ fun _ => rfl, computes_of_f32Un _ fun _ => rfl,
    computes_of_f32Un _ fun _ => rfl⟩

/-- A compact quarter-precision instruction has no bit of `FAM` that selects another format than E4M3 (02 R37). -/
theorem quarterFmt_expand (x : Comp) : quarterFmt x.expand = .e4m3 := by
  have narrow : x.expand.fam < 8 := by
    have := x.mod.isLt
    simp only [Full.fam, Comp.expand, BitVec.toNat_setWidth]
    omega
  simp [quarterFmt, Nat.not_le.2 narrow]

/-- Settles O8. -/
theorem packedFloatResults : Obligations.PackedFloatResults := by
  intro f x
  exact ⟨computes_of_fn _ fun _ => rfl, computes_of_fn _ fun _ => rfl, computes_of_fn _ fun _ => rfl,
    computes_of_fn _ fun _ => rfl, computes_of_fn _ fun _ => rfl, computes_of_fn _ fun _ => rfl,
    computes_of_fn _ fun _ => rfl, computes_of_fn _ fun _ => rfl, computes_of_fn _ fun _ => rfl,
    computes_of_fn _ fun _ => quarterFmt_expand x ▸ rfl, computes_of_fn _ fun _ => quarterFmt_expand x ▸ rfl⟩

/-! ### Spectral instructions (06 R108 to R119) -/

/-- Settles O11: over the eight elements of one register, the model's fold and the statement's are the same list. -/
theorem spectralElementwiseResults : Obligations.SpectralElementwiseResults := by
  intro f x
  exact ⟨computes_of_alu _ (fun _ => rfl) fun _ _ _ _ => rfl, computes_of_alu _ (fun _ => rfl) fun _ _ _ _ => rfl,
    computes_of_alu _ (fun _ => rfl) fun _ _ _ _ => rfl, computes_of_alu _ (fun _ => rfl) fun _ _ _ _ => rfl,
    computes_of_alu _ (fun _ => rfl) fun _ _ _ _ => rfl, computes_of_alu _ (fun _ => rfl) fun _ _ _ _ => rfl,
    computes_of_alu _ (fun _ => rfl) fun _ _ _ _ => rfl,
    computes_of_alu _ (fun _ => rfl) fun _ _ _ _ => by simp only [lowBits_eq_low32]; rfl,
    computes_of_alu _ (fun _ => rfl) fun _ _ _ _ => by simp only [lowBits_eq_low32]; rfl,
    computes_of_alu _ (fun _ => rfl) fun _ _ _ _ => by simp only [lowBits_eq_low32, beq_iff_eq]; rfl,
    computes_of_alu _ (fun _ => rfl) fun _ _ _ _ => rfl, computes_of_alu _ (fun _ => rfl) fun _ _ _ _ => rfl,
    computes_of_alu _ (fun _ => rfl) fun _ _ _ _ => rfl, computes_of_alu _ (fun _ => rfl) fun _ _ _ _ => rfl,
    computes_of_alu _ (fun _ => rfl) fun _ _ _ _ => rfl, computes_of_alu _ (fun _ => rfl) fun _ _ _ _ => rfl,
    computes_of_alu _ (fun _ => rfl) fun _ _ _ _ => rfl⟩

/-- Settles O12. -/
theorem spectralReductionAndMuellerResults : Obligations.SpectralReductionAndMuellerResults := by
  intro f
  refine ⟨computes_of_alu _ (fun _ => rfl) fun _ _ _ _ => by simp only [elem, w64_toNat, Nat.add_zero],
    computes_of_alu _ (fun _ => rfl) fun s _ _ _ => ?len,
    computes_of_alu _ (fun _ => rfl) fun _ _ _ _ => rfl, computes_of_fn _ fun _ => rfl, computes_of_fn _ fun _ => rfl,
    computes_of_fn _ fun _ => rfl, computes_of_fn _ fun _ => rfl, computes_of_fn _ fun _ => rfl, computes_of_fn _ fun _ => rfl⟩
  case len =>
    rw [Group.width]
    split <;> rfl

end Sys2Proof.Machine

namespace Sys2Proof.Machine

open Sys2Proof

/-! ### One lane of an issue (02 R34) -/

/-- A lane takes part in an issue: it has not ended, this issue has not aborted its transaction, and its push finds room. -/
structure Run.Takes (r : Run) (i : Nat) : Prop where
  alive : ((r.s.group r.s.cur.gid).lane i).ended = false
  stays : r.aborted i = false
  room  : r.full = []

section
variable {r : Run} {op : Op} {f : Full} {g : Group} {got : List (Nat × W64)}
  {body : State → Group → List (Nat × W64) → Nat → LaneStep} {i : Nat} {t : State}

theorem Run.lane_of_gone (h : r.Takes i) (hb : body r.s g got i = .gone t) :
    r.lane op f g got body i = { r with s := t } := by
  simp [Run.lane, h.alive, h.stays, h.room, hb]

theorem Run.lane_of_res {vals : List W64} {fl : FlagSet} (h : r.Takes i) (hq : destQueue op f = none)
    (hb : body r.s g got i = .res t vals fl) :
    r.lane op f g got body i =
      { r with s := (t.writeDest r.s.cur.gid i op f vals).modLane r.s.cur.gid i (fun l => l.raise fl), done := r.done ++ [i] } := by
  simp [Run.lane, h.alive, h.stays, h.room, hb, State.absentRecord, hq]

theorem Run.lane_of_owe {n : Nat} (h : r.Takes i) (hb : body r.s g got i = .owe t n) :
    r.lane op f g got body i = { r with s := t.oweDest r.s.cur.gid i op f n, done := r.done ++ [i] } := by
  simp [Run.lane, h.alive, h.stays, h.room, hb]

theorem Run.lane_of_trap {x : Trap} (h : r.Takes i) (hx : (x.isMem && g.inTx i) = false) (hb : body r.s g got i = .trap x) :
    r.lane op f g got body i =
      { r with traps := r.traps ++ [(i, x)], back := r.back ++ [(i, poppedBy got i)] } := by
  simp [Run.lane, h.alive, h.stays, h.room, hb, hx]

end

/-! ### Issues without queue operands -/

/-- The run of an issue of the current group, before its first lane. -/
def State.openRun (s : State) : Run := { s := s, set := (s.group s.cur.gid).txSet }

/-- What the lanes of an issue pop that names no queue: each of them a zero. -/
def State.noneGot (s : State) (f : Full) : List (Nat × W64) := (s.enabledFor f).map (fun i => (i, 0))

theorem State.noneGot_keys (s : State) (f : Full) : (s.noneGot f).map (fun x => x.1) = s.enabledFor f := by
  rw [State.noneGot, List.map_map]
  exact List.map_id _

theorem State.poppedBy_noneGot (s : State) (f : Full) (i : Nat) : poppedBy (s.noneGot f) i = 0 := poppedBy_zero _ i

/-- One lane of an issue without queue operands. -/
def Run.plainLane (r : Run) (s : State) (op : Op) (f : Full) (body : State → Group → List (Nat × W64) → Nat → LaneStep)
    (i : Nat) : Run :=
  r.lane op f (s.group s.cur.gid) (s.noneGot f) (fun t g _ i => body t g (s.noneGot f) i) i

/-- An issue without queue operands runs its lanes on what stood before it, and closes. -/
theorem laneExec_of_noQueue {s : State} {op : Op} {f : Full} (body : State → Group → List (Nat × W64) → Nat → LaneStep)
    (h : Ready s op f) (hq : noQueue op f) :
    laneExec op f s body =
      Run.close ((s.enabledFor f).foldl (fun r i => r.plainLane s op f body i) s.openRun) (s.disabledFor f) := by
  obtain ⟨g, hg⟩ := Option.isSome_iff_exists.1 h.here
  have popped : (s.noneGot f).filter (fun x => (s.enabledFor f).contains x.1) = s.noneGot f := by
    rw [List.filter_eq_self]
    intro x hx
    obtain ⟨i, hi, rfl⟩ := List.mem_map.1 hx
    simpa using hi
  have served : (s.enabledFor f).filter (fun i => !(s.enabledFor f).contains i) = [] := by simp
  have admitted : s.admitted op f g (s.enabledFor f) = s.enabledFor f := by simp [State.admitted, hq.2]
  have sound : s.badPops op f = [] := by simp [State.badPops, hq.1]
  have zeros : (s.enabledFor f).map (fun i => (i, (0 : W64))) = s.noneGot f := rfl
  unfold laneExec
  simp only [hg, h.safe, s.queueTraps_of_noQueue hq, hq.1, sound, zeros, s.noneGot_keys, admitted, popped, served,
    Run.queues, hq.2, State.openRun, State.disabledFor, Run.plainLane, State.group_of_group? hg, Bool.false_eq_true, if_false,
    List.map_nil]

/-! ### The state in the middle of an issue, and its end -/

/-- Nothing but the groups of `s` differs in `t`. -/
structure OnlyGroups (s t : State) : Prop where
  same : { t with groups := s.groups } = s

theorem OnlyGroups.refl (s : State) : OnlyGroups s s := ⟨rfl⟩

theorem OnlyGroups.trans {s t u : State} (h : OnlyGroups s t) (k : OnlyGroups t u) : OnlyGroups s u :=
  ⟨(congrArg (fun x : State => { x with groups := s.groups }) k.same).trans h.same⟩

theorem OnlyGroups.cur {s t : State} (h : OnlyGroups s t) : t.cur = s.cur := (congrArg State.cur h.same :)

theorem OnlyGroups.time {s t : State} (h : OnlyGroups s t) : t.time = s.time := (congrArg State.time h.same :)

/-- The lanes `ls` of the issue of `s` can still take part in it in `t`. -/
structure InIssue (s t : State) (ls : List Nat) : Prop where
  rest  : OnlyGroups s t
  tx    : (t.group s.cur.gid).tx = (s.group s.cur.gid).tx
  alive : ∀ i ∈ ls, ((t.group s.cur.gid).lane i).ended = false

theorem InIssue.cur {s t : State} {ls : List Nat} (h : InIssue s t ls) : t.cur = s.cur := h.rest.cur

theorem InIssue.start {s : State} {op : Op} {f : Full} (h : Ready s op f) : InIssue s s (s.enabledFor f) :=
  ⟨.refl s, rfl, fun i hi => (h.alive i (mem_enabledFor hi).2).1⟩

section
variable {s : State} {op : Op} {f : Full} {r : Run}

theorem Run.aborted_of_inIssue {ls : List Nat} (h : Ready s op f) (hr : InIssue s r.s ls)
    (hset : r.set = (s.group s.cur.gid).txSet) (i : Nat) : r.aborted i = false := by
  have gone : (r.s.group s.cur.gid).txGone = (s.group s.cur.gid).txGone := by unfold Group.txGone; rw [hr.tx]
  rw [Run.aborted, hr.cur, hset, gone]
  exact txGone_false h.tx i

theorem Run.takes_of_inIssue {ls : List Nat} {i : Nat} (h : Ready s op f) (hr : InIssue s r.s ls) (hi : i ∈ ls)
    (hset : r.set = (s.group s.cur.gid).txSet) (hroom : r.full = []) : r.Takes i :=
  ⟨hr.cur ▸ hr.alive i hi, Run.aborted_of_inIssue h hr hset i, hroom⟩

theorem lt_of_inMask {m : W32} {i : Nat} (h : inMask m i = true) : i < 32 := BitVec.lt_of_getLsbD h

theorem State.disabledFor_eq (s : State) (f : Full) :
    laneIds.filter (fun i => (s.disabledFor f).contains i) = s.disabledFor f := by
  unfold State.disabledFor lanesOf
  rw [List.filter_filter]
  refine List.filter_congr fun i hi => ?_
  simp [hi, Bool.and_comm]

theorem State.enabled_or_disabled (s : State) (f : Full) :
    laneIds.filter (fun i => (s.enabledFor f).contains i || (s.disabledFor f).contains i) = lanesOf s.cur.lanes := by
  refine List.filter_congr fun i hi => ?_
  have sub : i ∈ s.enabledFor f → i ∈ lanesOf s.cur.lanes := fun h => inMask_lanesOf.2 (mem_enabledFor h)
  have here : s.cur.lanes.getLsbD i = decide (i ∈ lanesOf s.cur.lanes) := by
    simp [lanesOf, hi]
  rw [here]
  by_cases he : i ∈ s.enabledFor f <;> simp [he, State.disabledFor, sub]

/-- The end of an issue whose lanes all completed: every lane of the issue goes on. -/
theorem Run.close_of_done (cur : r.s.cur = s.cur) (hab : ∀ i, r.aborted i = false) (htraps : r.traps = [])
    (hdone : r.done = s.enabledFor f) : r.close (s.disabledFor f) = r.s.goOn (lanesOf s.cur.lanes) := by
  simp only [Run.close, htraps, hdone, hab, Bool.not_false, Bool.and_true, s.enabled_or_disabled f, cur, State.goOn]
  rfl

/-- The end of an issue none of whose lanes completed: the lanes whose guard is false go on, and the traps are taken. -/
theorem Run.close_of_none (cur : r.s.cur = s.cur) (hab : ∀ i, r.aborted i = false) (hdone : r.done = []) :
    r.close (s.disabledFor f) = (r.s.goOn (s.disabledFor f)).takeTrap s.cur.gid s.cur.pc s.cur.words r.traps := by
  simp only [Run.close, hdone, hab, Bool.not_false, Bool.and_true, List.contains_nil, Bool.false_or, s.disabledFor_eq f, cur,
    State.goOn]

end

/-- What the change of one lane of an issue leaves for the lanes after it. -/
structure LaneOnly (s t u : State) (i : Nat) : Prop where
  rest  : OnlyGroups t u
  tx    : (u.group s.cur.gid).tx = (t.group s.cur.gid).tx
  alive : ∀ j, j ≠ i → ((u.group s.cur.gid).lane j).ended = ((t.group s.cur.gid).lane j).ended

theorem InIssue.next {s t u : State} {i : Nat} {ls : List Nat} (h : InIssue s t (i :: ls)) (hu : LaneOnly s t u i)
    (hn : (i :: ls).Nodup) : InIssue s u ls :=
  ⟨h.rest.trans hu.rest, hu.tx.trans h.tx, fun j hj =>
    (hu.alive j fun e => (List.nodup_cons.1 hn).1 (e ▸ hj)).trans (h.alive j (List.mem_cons_of_mem _ hj))⟩

theorem enabledFor_nodup (s : State) (f : Full) : (s.enabledFor f).Nodup := (lanesOf_nodup _).sublist List.filter_sublist

section
variable {s : State} {op : Op} {f : Full} {body : State → Group → List (Nat × W64) → Nat → LaneStep}
  {next : State → Nat → State}

/-- Lanes that each go their own way change the state one after another. -/
theorem Run.lanes_gone (h : Ready s op f)
    (hb : ∀ t i, OnlyGroups s t → i ∈ s.enabledFor f → body t (s.group s.cur.gid) (s.noneGot f) i = .gone (next t i))
    (hn : ∀ t i, OnlyGroups s t → LaneOnly s t (next t i) i) (ls : List Nat) (hls : ls.Nodup)
    (hsub : ∀ i ∈ ls, i ∈ s.enabledFor f) (r : Run) (hr : InIssue s r.s ls) (hset : r.set = (s.group s.cur.gid).txSet)
    (hroom : r.full = []) :
    ls.foldl (fun r i => r.plainLane s op f body i) r = { r with s := ls.foldl next r.s } ∧
      InIssue s (ls.foldl next r.s) [] := by
  induction ls generalizing r with
  | nil => exact ⟨rfl, hr⟩
  | cons i ls ih =>
    have step : r.plainLane s op f body i = { r with s := next r.s i } :=
      Run.lane_of_gone (Run.takes_of_inIssue h hr List.mem_cons_self hset hroom)
        (hb r.s i hr.rest (hsub i List.mem_cons_self))
    rw [List.foldl_cons, step]
    exact ih (List.nodup_cons.1 hls).2 (fun j hj => hsub j (List.mem_cons_of_mem _ hj)) { r with s := next r.s i }
      (hr.next (hn r.s i hr.rest) hls) hset hroom

/-- An instruction each of whose lanes goes its own way. -/
theorem laneExec_of_gone (h : Ready s op f) (hq : noQueue op f)
    (hb : ∀ t i, OnlyGroups s t → i ∈ s.enabledFor f → body t (s.group s.cur.gid) (s.noneGot f) i = .gone (next t i))
    (hn : ∀ t i, OnlyGroups s t → LaneOnly s t (next t i) i) :
    laneExec op f s body = ((s.enabledFor f).foldl next s).goOn (s.disabledFor f) := by
  obtain ⟨run, kept⟩ := Run.lanes_gone h hb hn _ (enabledFor_nodup s f) (fun _ hi => hi) s.openRun (InIssue.start h) rfl rfl
  rw [laneExec_of_noQueue body h hq, run]
  exact Run.close_of_none kept.cur (Run.aborted_of_inIssue h kept rfl) rfl

end

theorem State.modLane_raise_zero (s : State) (gid i : Nat) : s.modLane gid i (fun l => l.raise 0) = s := by
  have idle : (fun l : Lane => l.raise 0) = id := funext fun l => by simp [Lane.raise]
  have same : (fun g : Group => g.modLane i id) = id := funext fun g => by
    rw [Group.modLane, modAt_self id _ _ { ended := true } rfl]; rfl
  rw [State.modLane, idle, same]
  simp [State.modGroup, updWhere]

theorem State.writeDest_of_no_dest {op : Op} {f : Full} (h : dest op f = []) (s : State) (gid i : Nat) :
    s.writeDest gid i op f [] = s := by
  simp [State.writeDest, h, destVals]

section
variable {s : State} {op : Op} {f : Full} {body : State → Group → List (Nat × W64) → Nat → LaneStep}
  {next : State → Nat → State}

/-- Lanes that complete with no result of their own change the state one after another. -/
theorem Run.lanes_done (h : Ready s op f) (hq : noQueue op f) (hd : dest op f = [])
    (hb : ∀ t i, OnlyGroups s t → i ∈ s.enabledFor f → body t (s.group s.cur.gid) (s.noneGot f) i = .res (next t i) [] 0)
    (hn : ∀ t i, OnlyGroups s t → LaneOnly s t (next t i) i) (ls : List Nat) (hls : ls.Nodup)
    (hsub : ∀ i ∈ ls, i ∈ s.enabledFor f) (r : Run) (hr : InIssue s r.s ls) (hset : r.set = (s.group s.cur.gid).txSet)
    (hroom : r.full = []) :
    ls.foldl (fun r i => r.plainLane s op f body i) r = { r with s := ls.foldl next r.s, done := r.done ++ ls } ∧
      InIssue s (ls.foldl next r.s) [] := by
  induction ls generalizing r with
  | nil => exact ⟨by simp, hr⟩
  | cons i ls ih =>
    have step : r.plainLane s op f body i = { r with s := next r.s i, done := r.done ++ [i] } := by
      refine (Run.lane_of_res (Run.takes_of_inIssue h hr List.mem_cons_self hset hroom) hq.2
        (hb r.s i hr.rest (hsub i List.mem_cons_self))).trans ?_
      rw [State.writeDest_of_no_dest hd, State.modLane_raise_zero]
    obtain ⟨run, kept⟩ := ih (List.nodup_cons.1 hls).2 (fun j hj => hsub j (List.mem_cons_of_mem _ hj))
      { r with s := next r.s i, done := r.done ++ [i] } (hr.next (hn r.s i hr.rest) hls) hset hroom
    rw [List.foldl_cons, step, run]
    exact ⟨by simp, kept⟩

/-- An instruction without a destination each of whose lanes completes. -/
theorem laneExec_of_done (h : Ready s op f) (hq : noQueue op f) (hd : dest op f = [])
    (hb : ∀ t i, OnlyGroups s t → i ∈ s.enabledFor f → body t (s.group s.cur.gid) (s.noneGot f) i = .res (next t i) [] 0)
    (hn : ∀ t i, OnlyGroups s t → LaneOnly s t (next t i) i) :
    laneExec op f s body = ((s.enabledFor f).foldl next s).goOn (lanesOf s.cur.lanes) := by
  obtain ⟨run, kept⟩ := Run.lanes_done h hq hd hb hn _ (enabledFor_nodup s f) (fun _ hi => hi) s.openRun (InIssue.start h) rfl rfl
  rw [laneExec_of_noQueue body h hq, run]
  exact Run.close_of_done kept.cur (Run.aborted_of_inIssue h kept rfl) rfl (List.nil_append _)

end

end Sys2Proof.Machine

namespace Sys2Proof.Machine

open Sys2Proof

/-! ### Windows that end, and lanes that jump -/

theorem Group.retire_tx (g : Group) (i : Nat) (all : Bool) : (g.retire i all).tx = g.tx := by
  unfold Group.retire
  refine foldl_keeps Group.tx _ (fun g p => foldl_keeps Group.tx _ (fun g c => ?_) _ _) _ _
  split
  · exact (Group.writeOrdered_rest _ _ _ _ _).tx
  · rfl

theorem Group.retire_lanes (g : Group) (i : Nat) (all : Bool) : ∃ F : Lane → Lane, (∀ l, (F l).ended = l.ended) ∧
    (g.retire i all).lanes = modAt F g.lanes i := by
  unfold Group.retire
  refine ⟨_, fun l => ?_, congrArg (fun ls => modAt _ ls i) ?_⟩
  rotate_left
  · refine foldl_keeps Group.lanes _ (fun g p => foldl_keeps Group.lanes _ (fun g c => ?_) _ _) _ _
    split
    · exact (Group.writeOrdered_rest _ _ _ _ _).lanes
    · rfl
  · rfl

/-- A change of one lane of a list that keeps which lanes have ended. -/
theorem ended_modAt (F : Lane → Lane) (hF : ∀ l, (F l).ended = l.ended) (g g' : Group) (i j : Nat)
    (h : g'.lanes = modAt F g.lanes i) : (g'.lane j).ended = (g.lane j).ended := by
  rw [Group.lane, h, getD_modAt, Group.lane]
  split
  · exact hF _
  · rfl

theorem Group.retire_ended (g : Group) (i j : Nat) (all : Bool) : ((g.retire i all).lane j).ended = (g.lane j).ended := by
  obtain ⟨F, hF, e⟩ := g.retire_lanes i all
  exact ended_modAt F hF _ _ i j e

theorem Group.modLane_ended (g : Group) (i j : Nat) (F : Lane → Lane) (hF : ∀ l, (F l).ended = l.ended) :
    ((g.modLane i F).lane j).ended = (g.lane j).ended := ended_modAt F hF g _ i j rfl

theorem Group.tickWindows_tx (g : Group) (i : Nat) : (g.tickWindows i).tx = g.tx := by
  unfold Group.tickWindows
  split
  · rfl
  · rw [Group.retire_tx]; rfl

theorem Group.tickWindows_id (g : Group) (i : Nat) : (g.tickWindows i).id = g.id := by
  unfold Group.tickWindows
  split
  · rfl
  · rw [Group.retire_id]; rfl

theorem Group.tickWindows_ended (g : Group) (i j : Nat) : ((g.tickWindows i).lane j).ended = (g.lane j).ended := by
  unfold Group.tickWindows
  split
  · rfl
  · exact (Group.retire_ended ..).trans (Group.modLane_ended _ _ _ _ fun _ => rfl)

theorem Group.jump_id (g : Group) (i : Nat) (a : W64) : (g.jump i a).id = g.id := g.tickWindows_id i

theorem Group.jump_tx (g : Group) (i : Nat) (a : W64) : (g.jump i a).tx = g.tx := g.tickWindows_tx i

theorem Group.jump_ended (g : Group) (i j : Nat) (a : W64) : ((g.jump i a).lane j).ended = (g.lane j).ended :=
  (Group.modLane_ended (g.tickWindows i) i j (fun l => { l with pc := a, replay := false }) fun _ => rfl).trans
    (g.tickWindows_ended i j)

/-- A lane that is owed nothing only moves. -/
theorem Group.jump_of_pend {g : Group} {i : Nat} (a : W64) (h : (g.lane i).pend = []) :
    g.jump i a = g.modLane i (fun l => { l with pc := a, replay := false }) := by
  simp [Group.jump, Group.tickWindows, h]

/-! ### Changes of one group -/

/-- What a change of a group gives of it, if the change keeps what is asked. -/
theorem State.group_modGroup_keeps {β : Type} (p : Group → β) (s : State) (id : Nat) (F : Group → Group)
    (hid : ∀ g, (F g).id = g.id) (hp : ∀ g, p (F g) = p g) : p ((s.modGroup id F).group id) = p (s.group id) := by
  rw [State.group, State.group?_modGroup s id F hid, State.group]
  cases s.group? id with
  | none => rfl
  | some g => exact hp g

theorem LaneOnly.trans {s t u v : State} {i : Nat} (h : LaneOnly s t u i) (k : LaneOnly s u v i) : LaneOnly s t v i :=
  ⟨h.rest.trans k.rest, k.tx.trans h.tx, fun j hj => (k.alive j hj).trans (h.alive j hj)⟩

theorem LaneOnly.refl (s t : State) (i : Nat) : LaneOnly s t t i := ⟨.refl t, rfl, fun _ _ => rfl⟩

/-- A change of the current group that keeps its transaction and which of the other lanes have ended. -/
theorem LaneOnly.of_modGroup {s : State} (t : State) (i : Nat) (F : Group → Group) (hid : ∀ g, (F g).id = g.id)
    (htx : ∀ g, (F g).tx = g.tx) (hal : ∀ g j, j ≠ i → ((F g).lane j).ended = (g.lane j).ended) :
    LaneOnly s t (t.modGroup s.cur.gid F) i :=
  ⟨⟨rfl⟩, State.group_modGroup_keeps Group.tx t _ F hid htx,
   fun j hj => State.group_modGroup_keeps (fun g => (g.lane j).ended) t _ F hid fun g => hal g j hj⟩

theorem LaneOnly.jump {s : State} (t : State) (i : Nat) (a : W64) :
    LaneOnly s t (t.modGroup s.cur.gid (fun g => g.jump i a)) i :=
  .of_modGroup t i _ (fun g => g.jump_id i a) (fun g => g.jump_tx i a) fun g j _ => g.jump_ended i j a

/-- A destination of registers that takes its values at once. -/
theorem LaneOnly.writeDest {s : State} (t : State) (i : Nat) {op : Op} {f : Full} (vals : List W64)
    (hd : ∀ c ∈ dest op f, c.isReg = true) (hla : (f.la == 0 || !f.isLong op) = true) :
    LaneOnly s t (t.writeDest s.cur.gid i op f vals) i := by
  have keys := destVals_keys (dest op f) vals (dest_nodup op f)
  unfold State.writeDest
  dsimp only
  split
  next => exact .refl s t i
  next q v e =>
    have := hd _ (keys.2 (.q q, v) (by rw [e]; exact List.mem_cons_self))
    simp [RCell.isReg] at this
  next =>
    rw [if_pos hla]
    have rest := fun g : Group => Group.writeCells_rest (destVals (dest op f) vals) g i
    have dropped : LaneOnly s t (t.modLane s.cur.gid i fun l => l.dropCells ((destVals (dest op f) vals).map (·.1))) i :=
      .of_modGroup t i _ (fun _ => rfl) (fun _ => rfl) fun g j _ => Group.modLane_ended g i j _ fun _ => rfl
    refine dropped.trans (.of_modGroup _ i _ (fun g => (rest g _).id) (fun g => (rest g _).tx) fun g j _ => ?_)
    have := (rest g (t.modLane s.cur.gid i fun l => l.dropCells ((destVals (dest op f) vals).map (·.1))).serial).lanes
    simp only [Group.lane, Group.writeCells] at this ⊢
    rw [this]

/-! ### The results of an issue whose lanes are then moved -/

/-- A lane of a group stands at an address. -/
def Group.stand (g : Group) (i : Nat) (a : W64) : Group := g.modLane i (fun l => { l with pc := a, replay := false })

/-- One more lane of an issue jumps. -/
theorem Mid.jump {s t : State} {g g1 : Group} {ds : List Nat} {out : Nat → List (RCell × W64)} {fl : Nat → FlagSet}
    (h : Mid s t g g1 ds out fl) {i : Nat} (a : W64) (hlive : (g.lane i).ended = false) (hp : (g.lane i).pend = []) :
    Mid s (t.modGroup s.cur.gid (fun g => g.jump i a)) (g.stand i a) (g1.stand i a) ds out fl := by
  have own := h.lanes i
  have move : g1.jump i a = g1.stand i a := Group.jump_of_pend a (by rw [own]; exact hp)
  have len : i < g.lanes.length := Group.lane_lt hlive
  have len1 : i < g1.lanes.length := Group.lane_lt (by rw [own]; exact hlive)
  refine ⟨?_, fun j hj c hc => ?_, fun j => ?_, ?_, h.errors, h.only.modGroup _ fun g => g.jump_id i a⟩
  · rw [State.group?_modGroup _ _ _ fun g => g.jump_id i a, h.here, ← move]; rfl
  · simpa [Group.stand] using h.cells j hj c hc
  · simp only [Group.stand, Group.lane_modLane, len, len1, h.lanes j]
    by_cases hj : j = i
    · simp [hj]
    · simp [hj]
  · exact congrArg (fun x : Group => { x with lanes := (g.stand i a).lanes }) h.frame

theorem Group.advanceAll_id (g : Group) (ls : List Nat) (size : Nat) : (g.advanceAll ls size).id = g.id :=
  foldl_keeps Group.id _ (fun g i => g.advance_id i size) ls g

/-- A group that differs in its lanes alone reads every register as before. -/
theorem Group.readCell_of_lanes {g g' : Group} (h : { g' with lanes := g.lanes } = g) (i : Nat) (c : RCell) :
    g'.readCell i c = g.readCell i c := by
  rw [← h]
  cases c <;> rfl

/-- A lane with the flags of its issue raised, if the issue takes effect on it. -/
def raised (fl : Nat → FlagSet) (i : Nat) (on : Bool) (l : Lane) : Lane :=
  { l with fflags := if on then l.fflags ||| fl i else l.fflags }

/-- The end of an issue. `g'` is the group before it with its lanes moved; the lanes `ls` go on past the instruction. -/
theorem Mid.goOn {s t : State} {g' g1 : Group} {f : Full} {out : Nat → List (RCell × W64)} {fl : Nat → FlagSet} {ls : List Nat}
    {at_ : Nat → W64} (h : Mid s t g' g1 (s.enabledFor f) out fl)
    (hg : { g' with lanes := (s.group s.cur.gid).lanes } = s.group s.cur.gid) (hn : ls.Nodup)
    (hls : ∀ i ∈ ls, (g'.lane i).ended = false ∧ (g'.lane i).pend = [])
    (hin : ∀ i, inMask s.cur.lanes i = true →
      (if i ∈ ls then { g'.lane i with pc := (g'.lane i).pc + w64 s.cur.size, replay := false } else g'.lane i) =
        { (s.group s.cur.gid).lane i with pc := at_ i, replay := false })
    (hout : ∀ i, i < 32 → inMask s.cur.lanes i ≠ true → i ∉ ls ∧ g'.lane i = (s.group s.cur.gid).lane i) :
    LaneMoves s (t.goOn ls) f out fl at_ := by
  have cur := h.only.cur
  obtain ⟨frame, lane⟩ := Group.advanceAll_lanes ls s.cur.size hn g1 fun i hi => by
    rw [h.lanes i]
    exact ⟨(hls i hi).2, Group.lane_lt (by rw [h.lanes i]; exact (hls i hi).1)⟩
  have here : (t.goOn ls).group? s.cur.gid = some (g1.advanceAll ls s.cur.size) := by
    rw [State.goOn, cur, State.group?_modGroup _ _ _ fun g => g.advanceAll_id ls s.cur.size, h.here]
    rfl
  have new := State.group_of_group? here
  refine ⟨fun i hi c hc => ?cells, fun i hi => ?lanes, ⟨by rw [here]; rfl, ?group⟩, fun x hx => ?errors, ?only⟩
  case cells =>
    rw [new, Group.readCell_of_lanes frame, h.cells i hi c hc, Group.readCell_of_lanes hg]
  case lanes =>
    have past : (if i ∈ ls then { g1.lane i with pc := (g1.lane i).pc + w64 s.cur.size, replay := false } else g1.lane i) =
        raised fl i ((s.enabledFor f).contains i)
          (if i ∈ ls then { g'.lane i with pc := (g'.lane i).pc + w64 s.cur.size, replay := false } else g'.lane i) := by
      rw [h.lanes i]
      split <;> rfl
    rw [new, lane i, past]
    by_cases hm : inMask s.cur.lanes i = true
    · rw [hin i hm]
      simp only [hm, if_true, raised]
    · obtain ⟨hi, same⟩ := hout i hi hm
      have off : (s.enabledFor f).contains i = false := by
        simpa using fun he => hm (mem_enabledFor he).2
      simp only [hi, same, hm, off, if_false, Bool.false_eq_true, raised]
  case group =>
    rw [new]
    have h1 := congrArg (fun x : Group => { x with
      g := (s.group s.cur.gid).g, w := (s.group s.cur.gid).w, p := (s.group s.cur.gid).p, k := (s.group s.cur.gid).k,
      bad := (s.group s.cur.gid).bad, kser := (s.group s.cur.gid).kser, lanes := (s.group s.cur.gid).lanes }) frame
    have h2 := congrArg (fun x : Group => { x with
      g := (s.group s.cur.gid).g, w := (s.group s.cur.gid).w, p := (s.group s.cur.gid).p, k := (s.group s.cur.gid).k,
      bad := (s.group s.cur.gid).bad, kser := (s.group s.cur.gid).kser, lanes := (s.group s.cur.gid).lanes }) h.frame
    have h3 := congrArg (fun x : Group => { x with
      g := (s.group s.cur.gid).g, w := (s.group s.cur.gid).w, p := (s.group s.cur.gid).p, k := (s.group s.cur.gid).k,
      bad := (s.group s.cur.gid).bad, kser := (s.group s.cur.gid).kser }) hg
    exact h1.trans (h2.trans h3)
  case errors =>
    rw [new] at hx
    have bad := congrArg Group.bad frame
    have bad' := congrArg Group.bad hg
    dsimp only at bad bad'
    rw [bad] at hx
    exact bad' ▸ h.errors x hx
  case only =>
    rw [State.goOn, cur]
    exact h.only.modGroup _ fun g => g.advanceAll_id ls s.cur.size

end Sys2Proof.Machine

namespace Sys2Proof.Machine

open Sys2Proof

/-! ### Branches and calls (09 R168, R169) -/

/-- Lanes of a group each stand at an address of their own. -/
def Group.standAll (g : Group) (ls : List Nat) (a : Nat → W64) : Group := ls.foldl (fun g i => g.stand i (a i)) g

theorem Group.standAll_lanes (ls : List Nat) (a : Nat → W64) (hn : ls.Nodup) (g : Group) (hlen : ∀ i ∈ ls, i < g.lanes.length) :
    { g.standAll ls a with lanes := g.lanes } = g ∧
      ∀ j, (g.standAll ls a).lane j = if j ∈ ls then { g.lane j with pc := a j, replay := false } else g.lane j := by
  induction ls generalizing g with
  | nil => exact ⟨rfl, fun j => by simp [Group.standAll]⟩
  | cons i ls ih =>
    obtain ⟨hi, hn'⟩ := List.nodup_cons.1 hn
    obtain ⟨frame, lane⟩ := ih hn' (g.stand i (a i)) fun j hj => by
      simpa [Group.stand] using hlen j (List.mem_cons_of_mem _ hj)
    refine ⟨congrArg (fun x : Group => { x with lanes := g.lanes }) frame, fun j => (lane j).trans ?_⟩
    have len := hlen i List.mem_cons_self
    rw [Group.stand, Group.lane_modLane]
    by_cases hj : j = i
    · simp [hj, hi, len]
    · simp [hj]

section
variable {s : State} {op : Op} {f : Full} {a : Nat → W64} {vals : Nat → List W64}

/-- A lane that writes its destination and then transfers control. -/
def wroteAndJumped (gid : Nat) (op : Op) (f : Full) (vals : Nat → List W64) (a : Nat → W64) (t : State)
    (i : Nat) : State :=
  (t.writeDest gid i op f (vals i)).modGroup gid (fun g => g.jump i (a i))

theorem Mid.transfers {ds : List Nat} (hd : ∀ c ∈ dest op f, c.isReg = true) (hla : (f.la == 0 || !f.isLong op) = true)
    (ls : List Nat) (hn : ls.Nodup) (t : State) (g g1 : Group)
    (hls : ∀ i ∈ ls, i < 32 ∧ (g.lane i).ended = false ∧ (g.lane i).pend = [])
    (h : Mid s t g g1 ds (fun i => destVals (dest op f) (vals i)) (fun _ => 0)) :
    ∃ g2, Mid s (ls.foldl (wroteAndJumped s.cur.gid op f vals a) t) (g.standAll ls a) g2 (ds ++ ls)
      (fun i => destVals (dest op f) (vals i)) (fun _ => 0) := by
  induction ls generalizing t g g1 ds with
  | nil => exact ⟨g1, by simpa [Group.standAll] using h⟩
  | cons i ls ih =>
    obtain ⟨hi, hn'⟩ := List.nodup_cons.1 hn
    obtain ⟨hlt, alive, settled⟩ := hls i List.mem_cons_self
    obtain ⟨g2, wrote⟩ := h.res hlt hd hla alive settled
    rw [State.modLane_raise_zero] at wrote
    have others : ∀ j ∈ ls, j < 32 ∧ ((g.stand i (a i)).lane j).ended = false ∧ ((g.stand i (a i)).lane j).pend = [] := by
      intro j hj
      have hne : j ≠ i := fun e => hi (e ▸ hj)
      rw [Group.stand, Group.lane_modLane, if_neg fun e => hne e.1]
      exact hls j (List.mem_cons_of_mem _ hj)
    obtain ⟨g3, rest⟩ := ih hn' _ (g.stand i (a i)) _ others (wrote.jump (a i) alive settled)
    refine ⟨g3, ?_⟩
    rw [List.append_cons]
    exact rest

/-- An instruction each of whose lanes writes its destination and transfers control: the lanes whose guard is true stand
at their targets, the others past it. -/
theorem laneMoves_of_transfer {body : State → Group → List (Nat × W64) → Nat → LaneStep} (h : Ready s op f) (hq : noQueue op f)
    (hla : (f.la == 0 || !f.isLong op) = true)
    (hb : ∀ t i, OnlyGroups s t → i ∈ s.enabledFor f →
      body t (s.group s.cur.gid) (s.noneGot f) i = .gone (wroteAndJumped s.cur.gid op f vals a t i)) :
    LaneMoves s (laneExec op f s body) f (fun i => destVals (dest op f) (vals i)) (fun _ => 0)
      (fun i => if (s.enabledFor f).contains i then a i else s.pastPc i) := by
  have hd := dest_isReg h hq
  have on := fun i (hi : i ∈ s.enabledFor f) => h.alive i (mem_enabledFor hi).2
  rw [laneExec_of_gone h hq hb fun t i _ => (LaneOnly.writeDest t i (vals i) hd hla).trans (LaneOnly.jump _ i (a i))]
  obtain ⟨g2, moved⟩ := Mid.transfers (a := a) (s := s) hd hla _ (enabledFor_nodup s f) s _ _
    (fun i hi => ⟨(mem_enabledFor hi).1, on i hi⟩) (Mid.start h.here _ _)
  obtain ⟨frame, lane⟩ := Group.standAll_lanes (s.enabledFor f) a (enabledFor_nodup s f) (s.group s.cur.gid)
    fun i hi => Group.lane_lt (on i hi).1
  refine Mid.goOn moved frame ((lanesOf_nodup _).sublist List.filter_sublist) (fun i hi => ?_) (fun i hm => ?_) fun i hi hm => ?_
  · obtain ⟨hi, off⟩ := List.mem_filter.1 hi
    have off' : i ∉ s.enabledFor f := by simpa using off
    rw [lane i, if_neg off']
    exact h.alive i (inMask_lanesOf.1 hi).2
  · rw [lane i]
    by_cases he : i ∈ s.enabledFor f
    · simp [he, State.disabledFor]
    · have hi : i < 32 := lt_of_inMask hm
      simp [he, State.disabledFor, inMask_lanesOf.2 ⟨hi, hm⟩, State.pastPc]
  · have he : i ∉ s.enabledFor f := fun he => hm (mem_enabledFor he).2
    have hd : i ∉ s.disabledFor f := fun hd => hm (inMask_lanesOf.1 (List.mem_filter.1 hd).1).2
    exact ⟨hd, by rw [lane i, if_neg he]⟩

end

/-- A transfer to a multiple of 4 (02 R28). -/
theorem State.transfer_of_aligned (s : State) (i : Nat) {target : W64} (h : target.toNat % 4 = 0) :
    s.transfer i target = .gone (s.modGroup s.cur.gid (fun g => g.jump i target)) := by
  simp [State.transfer, h]

/-- A legal instruction whose `SA` is of another class than G, and whose `DST` is unused or a rejoin mask, names no queue. -/
theorem noQueue_of_fields {op : Op} {f : Full} (h : f.illegal op = none) (hm : (op.shape f).mem = .no)
    (ha : ∀ n a conv, (op.shape f).sa ≠ .g n a conv) (hd : (op.shape f).dst = .unused ∨ (op.shape f).dst = .j) : noQueue op f := by
  have hpop : f.popsQueue op = false := Full.popsQueue_of_legal h hm ha
  have hdst : destQueue op f = none := destQueue_of_unused_or_j hd
  exact ⟨by simp [popQueueOf, hpop, hdst], hdst⟩

/-- An instruction above the arithmetic that pops nothing is not a long one, if its row does not say so. -/
theorem not_isLong {op : Op} {f : Full} (hq : noQueue op f) (hrow : (op.shape f).long = false) (hcode : ¬ op.code < 0x1C0) :
    f.isLong op = false := by
  have hp : f.popsQueue op = false := by
    cases hp : f.popsQueue op with
    | false => rfl
    | true => have := hq.1; simp [popQueueOf, hp] at this
  simp [Full.isLong, hrow, hp, hcode]

/-- Settles O13. -/
theorem branchesAndCallsTransfer : Obligations.BranchesAndCallsTransfer := by
  intro s f
  have long : ∀ {op}, noQueue op f → (op.shape f).long = false → ¬ op.code < 0x1C0 → (f.la == 0 || !f.isLong op) = true :=
    fun hq hrow hcode => by rw [not_isLong hq hrow hcode]; simp
  refine ⟨fun h ha => ⟨_, rfl, ?bra⟩, fun h hq ha => ⟨_, rfl, ?call⟩, fun h hq ha => ⟨_, rfl, ?brx⟩, fun h hq ha => ⟨_, rfl, ?ret⟩⟩
  case bra =>
    have hq := noQueue_of_fields h.legal rfl nofun (.inl rfl)
    refine laneMoves_of_transfer (op := .bra) (vals := fun _ => []) (a := fun _ => branchTarget f s.cur.pc) h hq
      (long hq rfl (by decide)) fun t i same _ => ?_
    rw [same.cur, t.transfer_of_aligned i ha, wroteAndJumped, State.writeDest_of_no_dest rfl, same.cur]
  case call =>
    have hla := long hq rfl (by decide)
    refine laneMoves_of_transfer (op := .call) (vals := fun _ => [s.cur.pc + w64 s.cur.size])
      (a := fun _ => branchTarget f s.cur.pc) h hq hla fun t i same _ => ?_
    have kept := (LaneOnly.writeDest (s := s) t i [s.cur.pc + w64 s.cur.size] (dest_isReg h hq) hla).rest.cur
    rw [same.cur, State.transfer_of_aligned _ i ha, wroteAndJumped, kept, same.cur]
  case brx =>
    refine laneMoves_of_transfer (op := .brx) (vals := fun _ => []) (a := fun i => srcA .brx f (s.group s.cur.gid) i 0) h hq
      (long hq rfl (by decide)) fun t i same hi => ?_
    rw [t.transfer_of_aligned i (ha i hi), wroteAndJumped, State.writeDest_of_no_dest rfl, same.cur]
  case ret =>
    refine laneMoves_of_transfer (op := .ret) (vals := fun _ => []) (a := fun i => srcA .ret f (s.group s.cur.gid) i 0) h hq
      (long hq rfl (by decide)) fun t i same hi => ?_
    rw [s.poppedBy_noneGot f i, t.transfer_of_aligned i (ha i hi), wroteAndJumped, State.writeDest_of_no_dest rfl, same.cur]

end Sys2Proof.Machine

namespace Sys2Proof.Machine

open Sys2Proof

/-! ### Taking a trap (01 R23) -/

/-- A trapped lane is to replay its instruction, and parks for a memory cause (07 R136). -/
def Lane.trapped (r : Trap) (l : Lane) : Lane := { l with replay := true, park := if r.isMem then 5 else l.park }

/-- A group whose trap registers take a report, and whose trapped lanes are to replay. -/
def Group.trapped (g : Group) (r : Trap) (pc : W64) (ws : List W32) (traps : List (Nat × Trap)) (now : Nat) : Group :=
  { g.modLanes (traps.map (·.1)) (Lane.trapped r) with
    trapCause := BitVec.ofNat 16 (r.cause + 256 * r.detail), trapPc := pc
    trapMask := maskOf (fun i => traps.any (fun x => x.1 == i)), trapAddr := w64 r.addr
    trapW0 := ws.getD 1 0 ++ ws.getD 0 0, trapW1 := ws.getD 2 0, stopped := true, trapAt := now }

/-- Only a group and the launch of its team, and the faults of its die, change. -/
theorem State.takeTrap_of_report {s : State} {gid : Nat} {pc : W64} {ws : List W32} {traps : List (Nat × Trap)} {r : Trap}
    (h : reportTrap traps = some r) :
    s.takeTrap gid pc ws traps = ((s.modGroup gid (fun g => g.trapped r pc ws traps s.ticks)).modLaunch
      (s.team (s.group gid).team).die (s.team (s.group gid).team).launch (fun l => l.countFault (l.origin pc.toNat).1)).enqueueFault
        (dieOfCore (s.group gid).core) (.group gid) := by
  simp only [State.takeTrap, h]
  rfl

theorem State.takeTrap_nil (s : State) (gid : Nat) (pc : W64) (ws : List W32) : s.takeTrap gid pc ws [] = s := rfl

/-- Changes of the lanes of a group leave its other parts. -/
theorem Group.modLanes_rest (ls : List Nat) (F : Lane → Lane) (g : Group) :
    { g.modLanes ls F with lanes := g.lanes } = g := by
  unfold Group.modLanes
  induction ls generalizing g with
  | nil => rfl
  | cons i ls ih => exact congrArg (fun x : Group => { x with lanes := g.lanes }) (ih (g.modLane i F))

theorem Group.modLanes_id (g : Group) (ls : List Nat) (F : Lane → Lane) : (g.modLanes ls F).id = g.id :=
  foldl_keeps Group.id (fun g i => g.modLane i F) (fun _ _ => rfl) ls g

/-- What a change keeps of every lane, the changes of several lanes keep. -/
theorem Group.lane_modLanes_keeps {β : Type} (p : Lane → β) (F : Lane → Lane) (hF : ∀ l, p (F l) = p l) (ls : List Nat) (g : Group)
    (j : Nat) : p ((g.modLanes ls F).lane j) = p (g.lane j) :=
  foldl_keeps (fun g : Group => p (g.lane j)) _ (fun g i => by
    rw [Group.lane_modLane]
    split
    · exact hF _
    · rfl) ls g

section
variable {s : State} {g : Group} {pc : W64} {ws : List W32} {traps : List (Nat × Trap)} {r : Trap}

theorem Group.trapped_id (now : Nat) : (g.trapped r pc ws traps now).id = g.id := g.modLanes_id _ _

theorem Group.trapped_place (now : Nat) : (g.trapped r pc ws traps now).core = g.core ∧ (g.trapped r pc ws traps now).part = g.part :=
  ⟨foldl_keeps Group.core (fun g i => g.modLane i (Lane.trapped r)) (fun _ _ => rfl) _ g,
   foldl_keeps Group.part (fun g i => g.modLane i (Lane.trapped r)) (fun _ _ => rfl) _ g⟩

theorem Group.trapped_readCell (now i : Nat) (c : RCell) : (g.trapped r pc ws traps now).readCell i c = g.readCell i c := by
  have rest := Group.readCell_of_lanes (Group.modLanes_rest (traps.map (·.1))
    (Lane.trapped r) g) i c
  rw [← rest]
  cases c <;> rfl

theorem Group.trapped_pc (now i : Nat) : ((g.trapped r pc ws traps now).lane i).pc = (g.lane i).pc :=
  Group.lane_modLanes_keeps Lane.pc (Lane.trapped r) (fun _ => rfl) _ g i

/-- The group after its trap. -/
theorem State.takeTrap_group? {gid : Nat} (h : reportTrap traps = some r) (hg : s.group? gid = some g) :
    (s.takeTrap gid pc ws traps).group? gid = some (g.trapped r pc ws traps s.ticks) := by
  rw [State.takeTrap_of_report h]
  exact (State.group?_modGroup s gid (fun g => g.trapped r pc ws traps s.ticks) fun g => g.trapped_id _).trans (by rw [hg]; rfl)

theorem SameMemory.of_eq {s t : State} (hm : t.mem = s.mem) (hv : t.vault = s.vault) (ht : t.teams = s.teams) : SameMemory s t :=
  ⟨fun _ => by rw [hm], fun _ => by rw [hv], by rw [ht]⟩

theorem State.takeTrap_memory (s : State) (gid : Nat) (pc : W64) (ws : List W32) (traps : List (Nat × Trap)) :
    SameMemory s (s.takeTrap gid pc ws traps) := by
  cases h : reportTrap traps with
  | none => rw [State.takeTrap, h]; exact .refl s
  | some r => rw [State.takeTrap_of_report h]; exact .of_eq rfl rfl rfl

end

/-! ### Masks of lanes -/

theorem getLsbD_one_shift {i j : Nat} (hi : i < 32) : (1#32 <<< j).getLsbD i = (j == i) := by
  rw [BitVec.getLsbD_shiftLeft, BitVec.getLsbD_one]
  by_cases h : j = i
  · simp [h, hi]
  · have : (j == i) = false := by simpa using h
    simp only [hi, this, decide_true, Bool.true_and]
    by_cases hl : i < j
    · simp [hl]
    · simp [hl]; omega

theorem getLsbD_foldl_mask (p : Nat → Bool) {i : Nat} (hi : i < 32) (ls : List Nat) (m : W32) :
    (ls.foldl (fun m j => if p j then m ||| (1#32 <<< j) else m) m).getLsbD i =
      (m.getLsbD i || ls.any (fun j => p j && j == i)) := by
  induction ls generalizing m with
  | nil => simp
  | cons j ls ih =>
    rw [List.foldl_cons, ih]
    cases hp : p j
    · simp [hp]
    · simp [hp, getLsbD_one_shift hi, Bool.or_assoc]

/-- The mask of a test holds the lanes that pass it. -/
theorem inMask_maskOf (p : Nat → Bool) {i : Nat} (hi : i < 32) : inMask (maskOf p) i = p i := by
  rw [inMask, maskOf, getLsbD_foldl_mask p hi, BitVec.getLsbD_zero, Bool.false_or, Bool.eq_iff_iff]
  simp only [List.any_eq_true, Bool.and_eq_true, beq_iff_eq, mem_laneIds]
  exact ⟨fun ⟨j, _, hp, e⟩ => e ▸ hp, fun hp => ⟨i, hi, hp, rfl⟩⟩

/-! ### The fault queues (15 R288) -/

/-- A fault enters a queue with room behind those that it does not precede, and before the first that it does. -/
theorem State.enqueueFault_of_room {s : State} {die : Nat} (e : FaultEntry) (hlen : (s.faultq.getD die []).length < 1024)
    (hdie : die < s.faultq.length) (hw : s.faultWait.getD die [] = []) :
    ∃ u v, s.faultq.getD die [] = u ++ v ∧ (s.enqueueFault die e).faultq.getD die [] = u ++ [e] ++ v ∧
      (∀ x ∈ u, s.entersAfter x e = false) ∧ ∀ x, v.head? = some x → s.entersAfter x e = true := by
  have all : s.faults die = s.faultq.getD die [] := by rw [State.faults, hw, List.append_nil]
  refine ⟨(s.faultq.getD die []).takeWhile (fun x => !s.entersAfter x e), (s.faultq.getD die []).dropWhile (fun x => !s.entersAfter x e),
    List.takeWhile_append_dropWhile.symm, ?_, fun x hx => by simpa using List.all_eq_true.1 List.all_takeWhile x hx, fun x hx => ?_⟩
  · have cut := List.takeWhile_append_dropWhile (p := fun x => !s.entersAfter x e) (l := s.faultq.getD die [])
    have room : ∀ u v : List FaultEntry, u ++ v = s.faultq.getD die [] → (u ++ [e] ++ v).take 1024 = u ++ [e] ++ v := fun u v huv => by
      rw [← huv] at hlen
      refine List.take_of_length_le ?_
      simp only [List.length_append, List.length_cons, List.length_nil] at hlen ⊢
      omega
    have split : ∀ u v : List FaultEntry, u ++ v = s.faultq.getD die [] →
        (s.faultq.getD die []).take u.length ++ [e] ++ (s.faultq.getD die []).drop u.length = u ++ [e] ++ v := fun u v huv => by
      rw [← huv, List.take_left, List.drop_left]
    unfold State.enqueueFault State.setFaults
    dsimp only
    rw [all, split _ _ cut, room _ _ cut, setAt, List.getD_eq_getElem?_getD, List.getElem?_set_self hdie]
    rfl
  · have first := List.head?_dropWhile_not (fun x => !s.entersAfter x e) (s.faultq.getD die [])
    rw [hx] at first
    simpa using first

/-- Settles O19. -/
theorem takingATrapLoadsTheTrapRegisters : Obligations.TakingATrapLoadsTheTrapRegisters := by
  intro s g pc ws traps r hg hr hlanes hlen hdie hwait later t g'
  have here : t.group? g.id = some (g.trapped r pc ws traps s.ticks) := State.takeTrap_group? hr hg
  have now : g' = g.trapped r pc ws traps s.ticks := State.group_of_group? here
  rw [now]
  refine ⟨rfl, rfl, rfl, rfl, rfl, rfl, fun i hi => inMask_maskOf _ hi, fun i c => g.trapped_readCell _ i c, fun i => g.trapped_pc _ i,
    ?queue, s.takeTrap_memory _ _ _ _⟩
  let s2 := (s.modGroup g.id (fun g => g.trapped r pc ws traps s.ticks)).modLaunch
    (s.team g.team).die (s.team g.team).launch (fun l => l.countFault (l.origin pc.toNat).1)
  have after : t = s2.enqueueFault (dieOfCore g.core) (.group g.id) := by
    rw [show t = s.takeTrap g.id pc ws traps from rfl, State.takeTrap_of_report hr, State.group_of_group? hg]
  have own : s2.group? g.id = some (g.trapped r pc ws traps s.ticks) :=
    (State.group?_modGroup s g.id _ fun g => g.trapped_id _).trans (by rw [hg]; rfl)
  have order : ∀ x, s2.entersAfter x (.group g.id) = true ↔ later x := fun x => by
    cases x with
    | group a =>
      by_cases ha : a = g.id
      · subst ha
        have same : s2.entersAfter (.group g.id) (.group g.id) = false := by simp [State.entersAfter, FaultEntry.gid?, own]
        refine iff_of_false (by simp [same]) fun ⟨b, hx, hb, _, hlt⟩ => ?_
        rw [← FaultEntry.group.inj hx, hg] at hb
        obtain rfl := Option.some.inj hb
        exact Nat.lt_irrefl _ hlt
      · have other : s2.group? a = s.group? a := State.group?_modGroup_ne s _ (fun g => g.trapped_id _) ha
        obtain ⟨core, part⟩ := g.trapped_place (r := r) (pc := pc) (ws := ws) (traps := traps) s.ticks
        cases hb : s.group? a with
        | none =>
          refine iff_of_false (by simp [State.entersAfter, FaultEntry.gid?, other, hb]) fun ⟨b, hx, hb', _⟩ => ?_
          rw [← FaultEntry.group.inj hx, hb] at hb'
          cases hb'
        | some b =>
          have hid : b.id = a := by simpa using List.find?_some hb
          have test : s2.entersAfter (.group a) (.group g.id) =
              (b.trapAt == s.ticks && decide (g.core * 4 + g.part < b.core * 4 + b.part)) := by
            simp only [State.entersAfter, FaultEntry.gid?, Option.bind_some, other, hb, own, core, part]
            rfl
          simp only [test, Bool.and_eq_true, beq_iff_eq, decide_eq_true_eq]
          refine ⟨fun ⟨htime, hlt⟩ => ⟨b, by rw [hid], by rw [hid, hb], htime, hlt⟩, fun ⟨c, hx, hc, htime, hlt⟩ => ?_⟩
          rw [← FaultEntry.group.inj hx, hb] at hc
          obtain rfl := Option.some.inj hc
          exact ⟨htime, hlt⟩
    | _ => exact iff_of_false (by simp [State.entersAfter, FaultEntry.gid?]) fun ⟨_, hx, _⟩ => nomatch hx
  obtain ⟨u, v, old, new, before, behind⟩ := State.enqueueFault_of_room (s := s2) (.group g.id) hlen hdie hwait
  rw [after]
  exact ⟨u, v, old, new, fun x hx hl => by simpa [(order x).2 hl] using before x hx, fun x hx => (order x).1 (behind x hx)⟩

end Sys2Proof.Machine

namespace Sys2Proof.Machine

open Sys2Proof

/-! ### The barrier of a team (09 R182) -/

theorem State.team_of_team? {s : State} {id : Nat} {t : Team} (h : s.team? id = some t) : s.team id = t := by
  simp [State.team, h]

theorem State.team?_modTeam (s : State) (id : Nat) (F : Team → Team) (hF : ∀ t, (F t).id = t.id) :
    (s.modTeam id F).team? id = (s.team? id).map F := by
  unfold State.modTeam State.team?
  simp only
  rw [find_updWhere _ _ _ _ (by simp [hF])]
  cases h : s.teams.find? (fun t => t.id == id) with
  | none => rfl
  | some t => have := List.find?_some h; simp_all

/-- The end of one lane's windows leaves the other lanes. -/
theorem Group.advance_lane_ne (g : Group) {i j : Nat} (size : Nat) (h : j ≠ i) : (g.advance i size).lane j = g.lane j := by
  have tick : (g.tickWindows i).lane j = g.lane j := by
    unfold Group.tickWindows
    split
    · rfl
    · obtain ⟨F, _, e⟩ := Group.retire_lanes (g.modLane i fun l =>
        { l with pend := l.pend.map (fun p => { p with window := p.window - 1 }) }) i false
      rw [Group.lane, e, getD_modAt, if_neg fun k => h k.1]
      exact (Group.lane_modLane g i j _).trans (if_neg fun k => h k.1)
  exact (Group.lane_modLane _ i j _).trans ((if_neg fun k => h k.1).trans tick)

/-- One lane of a barrier that completes goes on past it, if it waits there. -/
def Group.proceedLane (p : Lane → Bool) (g : Group) (i : Nat) : Group :=
  if p (g.lane i) && !(g.lane i).ended then (g.advance i 8).modLane i (fun l => { l with wait := .none }) else g

theorem Group.proceedLane_id (p : Lane → Bool) (g : Group) (i : Nat) : (g.proceedLane p i).id = g.id := by
  unfold Group.proceedLane
  split
  · exact g.advance_id i 8
  · rfl

theorem Group.proceedLane_ne (p : Lane → Bool) (g : Group) {i j : Nat} (h : j ≠ i) : (g.proceedLane p i).lane j = g.lane j := by
  unfold Group.proceedLane
  split
  · rw [Group.lane_modLane, if_neg fun k => h k.1, g.advance_lane_ne 8 h]
  · rfl

theorem Group.proceedLane_self {p : Lane → Bool} {g : Group} {i : Nat} (hp : p (g.lane i) = true) (hl : (g.lane i).ended = false)
    (hs : (g.lane i).pend = []) :
    (g.proceedLane p i).lane i = { g.lane i with pc := (g.lane i).pc + 8, replay := false, wait := .none } := by
  have len := Group.lane_lt hl
  rw [Group.proceedLane, hp, hl, Group.advance_lane g i 8 hs]
  simp [Group.lane_modLane, len]
  rfl

section
variable {step : Group → Nat → Group} (hne : ∀ (g : Group) {i j : Nat}, j ≠ i → (step g i).lane j = g.lane j)
include hne

/-- Steps that each change one lane leave a lane that is none of theirs. -/
theorem Group.lane_foldl_of_not_mem {ls : List Nat} {i : Nat} (h : i ∉ ls) (g : Group) :
    (ls.foldl step g).lane i = g.lane i := by
  induction ls generalizing g with
  | nil => rfl
  | cons j ls ih =>
    rw [List.mem_cons, not_or] at h
    rw [List.foldl_cons, ih h.2, hne g h.1]

/-- Steps that each change one lane change a lane of theirs as the one step does, on what stood there. -/
theorem Group.lane_foldl_of_mem {ls : List Nat} {i : Nat} (hn : ls.Nodup) (h : i ∈ ls) (g : Group) :
    ∃ g1, g1.lane i = g.lane i ∧ (ls.foldl step g).lane i = (step g1 i).lane i := by
  induction ls generalizing g with
  | nil => cases h
  | cons j ls ih =>
    obtain ⟨hj, hn⟩ := List.nodup_cons.1 hn
    by_cases e : i = j
    · subst e
      exact ⟨g, rfl, Group.lane_foldl_of_not_mem hne hj _⟩
    · obtain ⟨g1, same, last⟩ := ih hn ((List.mem_cons.1 h).resolve_left e) (step g j)
      exact ⟨g1, same.trans (hne g e), last⟩

end

/-- A lane that waits at a barrier that completes, among all the lanes of its group. -/
theorem Group.proceed_lane {p : Lane → Bool} {g : Group} {i : Nat} (hi : i < 32) (hp : p (g.lane i) = true)
    (hl : (g.lane i).ended = false) (hs : (g.lane i).pend = []) :
    (g.proceed p).lane i = { g.lane i with pc := (g.lane i).pc + 8, replay := false, wait := .none } := by
  obtain ⟨g1, same, last⟩ := Group.lane_foldl_of_mem (fun g _ _ h => g.proceedLane_ne p h) (List.nodup_range (n := 32))
    (mem_laneIds.2 hi) g
  rw [← same] at hp hl hs ⊢
  exact last.trans (Group.proceedLane_self hp hl hs)

/-- Settles O18. -/
theorem lastTeamArrivalReleases : Obligations.LastTeamArrivalReleases := by
  intro s team ht hset hall
  have released : s.testTeamBar team.id =
      (s.modTeam team.id (fun t => { t with barSet := 0 })).proceed team.id (fun l => l.wait == .team) := by
    have full : (team.barSet != 0 && team.liveNums.all (inMask team.barSet)) = true :=
      Bool.and_eq_true_iff.2 ⟨bne_iff_ne.2 hset, List.all_eq_true.2 hall⟩
    simp only [State.testTeamBar, ht, full, if_true]
  rw [released]
  refine ⟨?_, fun g i hg hteam hi hwait hlive hpend => ?_⟩
  · have cleared : ((s.modTeam team.id fun t => { t with barSet := 0 }).proceed team.id fun l => l.wait == .team).team? team.id =
        some { team with barSet := 0 } := (s.team?_modTeam team.id (fun t => { t with barSet := 0 }) fun _ => rfl).trans (by rw [ht]; rfl)
    rw [State.team_of_team? cleared]
  · have gone : ((s.modTeam team.id fun t => { t with barSet := 0 }).proceed team.id fun l => l.wait == .team).group? g.id =
        some (g.proceed (fun l => l.wait == .team)) := by
      have ids : ∀ x : Group, (x.proceed (fun l => l.wait == .team)).id = x.id := fun x =>
        foldl_keeps Group.id (Group.proceedLane (fun l => l.wait == .team)) (fun y j => y.proceedLane_id _ j) laneIds x
      unfold State.proceed State.group?
      dsimp only
      rw [find_updWhere _ _ _ _ fun x => by rw [ids], show (s.modTeam team.id fun t => { t with barSet := 0 }).groups = s.groups from rfl]
      rw [show s.groups.find? (fun x => x.id == g.id) = some g from hg]
      simp [hteam]
    rw [State.group_of_group? gone, Group.proceed_lane hi (by simp [hwait]) hlive hpend]
    exact ⟨rfl, rfl⟩

end Sys2Proof.Machine

namespace Sys2Proof.Machine

open Sys2Proof

/-! ### An issue that takes effect on one lane -/

theorem Run.aborted_of_no_set {r : Run} (h : r.set = 0) (i : Nat) : r.aborted i = false := by
  simp [Run.aborted, h, inMask]

theorem Group.txSet_of_no_tx {g : Group} (h : g.tx = none) : g.txSet = 0 := by simp [Group.txSet, h]

theorem Group.inTx_of_no_tx {g : Group} (h : g.tx = none) (i : Nat) : g.inTx i = false := by simp [Group.inTx, h]

theorem State.openRun_takes {s : State} {op : Op} {f : Full} {i : Nat} (h : Ready s op f) (hi : i ∈ s.enabledFor f) :
    s.openRun.Takes i :=
  Run.takes_of_inIssue h (InIssue.start h) hi rfl rfl

section
variable {s t : State} {op : Op} {f : Full} {i : Nat} {body : State → Group → List (Nat × W64) → Nat → LaneStep}

theorem OneLane.mem (h : OneLane s f i) : i ∈ s.enabledFor f := by rw [show s.enabledFor f = [i] from h]; exact List.mem_cons_self

theorem OneLane.noneGot (h : OneLane s f i) : s.noneGot f = [(i, 0)] := by
  rw [State.noneGot, show s.enabledFor f = [i] from h]; rfl

theorem laneExec_one (h : Ready s op f) (hq : noQueue op f) (h1 : OneLane s f i) :
    laneExec op f s body = Run.close (s.openRun.plainLane s op f body i) (s.disabledFor f) := by
  rw [laneExec_of_noQueue body h hq, show s.enabledFor f = [i] from h1]
  rfl

/-- The lane traps: the other lanes go on, and the trap is taken. -/
theorem laneExec_one_trap {x : Trap} (h : Ready s op f) (hq : noQueue op f) (h1 : OneLane s f i)
    (hx : (x.isMem && (s.group s.cur.gid).inTx i) = false) (hb : body s (s.group s.cur.gid) (s.noneGot f) i = .trap x) :
    laneExec op f s body = (s.goOn (s.disabledFor f)).takeTrap s.cur.gid s.cur.pc s.cur.words [(i, x)] := by
  have run : s.openRun.plainLane s op f body i = { s.openRun with traps := [(i, x)], back := [(i, poppedBy (s.noneGot f) i)] } :=
    Run.lane_of_trap (State.openRun_takes h h1.mem) hx hb
  rw [laneExec_one h hq h1, run]
  exact Run.close_of_none rfl (fun j => Run.aborted_of_inIssue (r := { s.openRun with traps := _, back := _ }) h
    (InIssue.start h) rfl j) rfl

section
variable (htx : (s.group s.cur.gid).tx = none) (cur : t.cur = s.cur)
include htx cur

/-- The lane goes its own way, outside a transaction. -/
theorem laneExec_one_gone (h : Ready s op f) (hq : noQueue op f) (h1 : OneLane s f i)
    (hb : body s (s.group s.cur.gid) (s.noneGot f) i = .gone t) :
    laneExec op f s body = t.goOn (s.disabledFor f) := by
  have run : s.openRun.plainLane s op f body i = { s.openRun with s := t } := Run.lane_of_gone (State.openRun_takes h h1.mem) hb
  rw [laneExec_one h hq h1, run]
  exact Run.close_of_none cur (Run.aborted_of_no_set (Group.txSet_of_no_tx htx)) rfl

/-- The lane completes and is owed its result. -/
theorem laneExec_one_owe {n : Nat} (h : Ready s op f) (hq : noQueue op f) (h1 : OneLane s f i)
    (hb : body s (s.group s.cur.gid) (s.noneGot f) i = .owe t n) (hc : (t.oweDest s.cur.gid i op f n).cur = t.cur) :
    laneExec op f s body = (t.oweDest s.cur.gid i op f n).goOn (lanesOf s.cur.lanes) := by
  have run : s.openRun.plainLane s op f body i = { s.openRun with s := t.oweDest s.cur.gid i op f n, done := [i] } :=
    Run.lane_of_owe (State.openRun_takes h h1.mem) hb
  rw [laneExec_one h hq h1, run]
  exact Run.close_of_done (hc.trans cur) (Run.aborted_of_no_set (Group.txSet_of_no_tx htx)) rfl (show _ = s.enabledFor f from h1.symm)

/-- The lane completes with its result. -/
theorem laneExec_one_done {vals : List W64} {fl : FlagSet} (h : Ready s op f) (hq : noQueue op f) (h1 : OneLane s f i)
    (hb : body s (s.group s.cur.gid) (s.noneGot f) i = .res t vals fl)
    (hc : (t.writeDest s.cur.gid i op f vals).cur = t.cur) :
    laneExec op f s body =
      ((t.writeDest s.cur.gid i op f vals).modLane s.cur.gid i (fun l => l.raise fl)).goOn (lanesOf s.cur.lanes) := by
  have run : s.openRun.plainLane s op f body i =
      { s.openRun with s := (t.writeDest s.cur.gid i op f vals).modLane s.cur.gid i (fun l => l.raise fl), done := [i] } :=
    Run.lane_of_res (State.openRun_takes h h1.mem) hq.2 hb
  rw [laneExec_one h hq h1, run]
  exact Run.close_of_done (hc.trans cur) (Run.aborted_of_no_set (Group.txSet_of_no_tx htx)) rfl (show _ = s.enabledFor f from h1.symm)

end

/-! ### After an access -/

theorem AccessKeeps.group (h : AccessKeeps s t) : ∃ w, t.group s.cur.gid = { s.group s.cur.gid with wctime := w } := by
  obtain ⟨_, w, hw⟩ := h
  exact ⟨w, State.group_of_group? hw⟩

theorem AccessKeeps.enabledFor (h : AccessKeeps s t) (f : Full) : t.enabledFor f = s.enabledFor f := by
  obtain ⟨w, hw⟩ := h.group
  rw [State.enabledFor, h.1, hw]
  rfl

theorem AccessKeeps.ready (h : AccessKeeps s t) (hr : Ready s op f) : Ready t op f := by
  obtain ⟨w, hw⟩ := h.group
  obtain ⟨cur, w', here⟩ := h
  refine ⟨by rw [cur, here]; rfl, ?_, ?_, ?_, hr.legal, ?_, ?_⟩
  · rw [cur, hw]; exact hr.alive
  · rw [cur, hw]; exact hr.tx
  · have := hr.safe
    rw [State.unsafeIssue] at this ⊢
    rw [AccessKeeps.enabledFor ⟨cur, w', here⟩, cur, hw]
    exact this
  · rw [cur, hw]; exact hr.range
  · rw [cur, hw]; exact hr.budget

/-- The lane's access completes and its destination takes the values: nothing else changes after the access. -/
theorem laneExec_one_res {vals : List W64} {fl : FlagSet} (h : Ready s op f) (hq : noQueue op f) (h1 : OneLane s f i)
    (htx : (s.group s.cur.gid).tx = none) (hla : dest op f = [] ∧ vals = [] ∨ f.la = 0) (hk : AccessKeeps s t)
    (hb : body s (s.group s.cur.gid) (s.noneGot f) i = .res t vals fl) :
    LaneEffect t (laneExec op f s body) f (fun _ => destVals (dest op f) vals) (fun _ => fl) := by
  have ht := hk.ready h
  have on : t.enabledFor f = [i] := (hk.enabledFor f).trans h1
  have live := ht.alive i (mem_enabledFor (on ▸ List.mem_cons_self)).2
  have lt := (mem_enabledFor (on ▸ List.mem_cons_self : i ∈ t.enabledFor f)).1
  have start := Mid.start ht.here (fun _ => destVals (dest op f) vals) (fun _ => fl)
  obtain ⟨g2, wrote⟩ : ∃ g2, Mid t ((t.writeDest t.cur.gid i op f vals).modLane t.cur.gid i (fun l => l.raise fl))
      (t.group t.cur.gid) g2 [i] (fun _ => destVals (dest op f) vals) (fun _ => fl) := by
    obtain ⟨none, rfl⟩ | la := hla
    · have := start.write 0 lt (by simp [none, destVals]) (by simp [none, destVals]) live.1
      rw [State.writeDest_of_no_dest none]
      have same : t.modGroup t.cur.gid (fun g => g.writeCells i (destVals (dest op f) []) 0) = t := by
        simp [none, destVals, Group.writeCells, State.modGroup, updWhere]
      rw [same] at this
      exact ⟨_, this⟩
    · exact start.res (vals := fun _ => vals) lt (dest_isReg h hq) (by simp [la]) live.1 live.2
  have cur := hk.1
  have kept : (t.writeDest s.cur.gid i op f vals).cur = t.cur := by rw [← cur]; exact wrote.only.cur
  rw [laneExec_one_done htx cur h hq h1 hb kept, ← cur]
  rw [← on] at wrote
  refine Mid.goOn wrote rfl (lanesOf_nodup _) (fun j hj => ht.alive j (inMask_lanesOf.1 hj).2) (fun j hj => ?_) fun j _ hj => ?_
  · have hlt : j < 32 := lt_of_inMask hj
    rw [if_pos (inMask_lanesOf.2 ⟨hlt, hj⟩)]
    rfl
  · exact ⟨fun k => hj (inMask_lanesOf.1 k).2, rfl⟩

end

end Sys2Proof.Machine

namespace Sys2Proof.Machine

open Sys2Proof

/-! ### Loads and stores (07 R125 to R128) -/

theorem finishAlu_of_noQueue {op : Op} {f : Full} (hq : noQueue op f) (s : State) (g : Group) (vals : List W64) (fl : FlagSet) :
    finishAlu s op f g vals fl = .res s vals fl := by
  simp [finishAlu, State.pushTrap, hq.2]

/-- A load whose access is granted on its one lane writes what it makes of the bytes. -/
theorem loadExec_one {s s1 : State} {op : Op} {f : Full} {i : Nat} {bs : List Byte} (n : Group → Nat) (vals : List Byte → List W64)
    (h : Ready s op f) (hq : noQueue op f) (h1 : OneLane s f i) (htx : (s.group s.cur.gid).tx = none) (hla : f.la = 0)
    (hk : AccessKeeps s s1) (hload : s.load (s.group s.cur.gid) i (spaceOf op f) (effAddr f (s.group s.cur.gid) i)
      (n (s.group s.cur.gid)) (hintOf (spaceOf op f) f) = .bytes bs s1) :
    LaneEffect s1 (loadExec op f s n vals) f (fun _ => destVals (dest op f) (vals bs)) (fun _ => 0) := by
  unfold loadExec
  refine laneExec_one_res h hq h1 htx (.inr hla) hk ?_
  simp only [hload, finishAlu_of_noQueue hq]

/-- A store whose access is granted on its one lane changes nothing beside it. -/
theorem storeExec_one {s s1 : State} {op : Op} {f : Full} {i : Nat} (n : Group → Nat) (hd : dest op f = [])
    (h : Ready s op f) (hq : noQueue op f) (h1 : OneLane s f i) (htx : (s.group s.cur.gid).tx = none)
    (hk : AccessKeeps s s1) (hstore : s.store (s.group s.cur.gid) i (spaceOf op f) (effAddr f (s.group s.cur.gid) i)
      (storeData op f (s.group s.cur.gid) i 0 (n (s.group s.cur.gid))) (hintOf (spaceOf op f) f) = .done s1) :
    LaneEffect s1 (storeExec op f s n) f (fun _ => []) (fun _ => 0) := by
  have none : (fun _ : Nat => destVals (dest op f) []) = fun _ => [] := by rw [hd]; rfl
  unfold storeExec
  rw [← none]
  refine laneExec_one_res h hq h1 htx (.inl ⟨hd, rfl⟩) hk ?_
  simp only [s.poppedBy_noneGot f i, hstore]

/-- Settles O27. -/
theorem loadsWriteTheBytesRead : Obligations.LoadsWriteTheBytesRead := by
  intro s s1 f i bs h1 htx hla hk
  exact ⟨fun ⟨h, hq, hl⟩ => ⟨_, rfl, loadExec_one _ _ h hq h1 htx hla hk hl⟩,
    fun ⟨h, hq, hl⟩ => ⟨_, rfl, loadExec_one _ _ h hq h1 htx hla hk hl⟩,
    fun ⟨h, hq, hl⟩ => ⟨_, rfl, loadExec_one _ _ h hq h1 htx hla hk hl⟩,
    fun ⟨h, hq, hl⟩ => ⟨_, rfl, loadExec_one _ _ h hq h1 htx hla hk hl⟩,
    fun ⟨h, hq, hl⟩ => ⟨_, rfl, loadExec_one _ _ h hq h1 htx hla hk hl⟩,
    fun ⟨h, hq, hl⟩ => ⟨_, rfl, loadExec_one _ _ h hq h1 htx hla hk hl⟩⟩

/-- Settles O28. -/
theorem storesGiveTheirDataToTheSpace : Obligations.StoresGiveTheirDataToTheSpace := by
  intro s s1 f i h1 htx hk
  exact ⟨fun ⟨h, hq, hs⟩ => ⟨_, rfl, storeExec_one _ rfl h hq h1 htx hk hs⟩,
    fun ⟨h, hq, hs⟩ => ⟨_, rfl, storeExec_one _ rfl h hq h1 htx hk hs⟩,
    fun ⟨h, hq, hs⟩ => ⟨_, rfl, storeExec_one _ rfl h hq h1 htx hk hs⟩,
    fun ⟨h, hq, hs⟩ => ⟨_, rfl, storeExec_one _ rfl h hq h1 htx hk hs⟩,
    fun ⟨h, hq, hs⟩ => ⟨_, rfl, storeExec_one _ rfl h hq h1 htx hk hs⟩,
    fun ⟨h, hq, hs⟩ => ⟨_, rfl, storeExec_one _ rfl h hq h1 htx hk hs⟩⟩

/-! ### Misaligned addresses (02 R28, 07 R124) -/

theorem State.place_of_misaligned (s : State) (g : Group) (sp : Space) {a n : Nat} (k : Access) (h : a % n ≠ 0) :
    s.place g sp a n k = .error (.misaligned a) := by
  simp [State.place, h]

/-- A misaligned access hits no line. -/
theorem State.hits_of_misaligned (s : State) (g : Group) (sp : Space) {a n : Nat} (h : a % n ≠ 0) : s.hits g sp a n = false := by
  simp [State.hits, h]

/-- A lane that transfers control to an address that is not a multiple of 4 traps there. -/
theorem State.transfer_of_misaligned (s : State) (i : Nat) {target : W64} (h : target.toNat % 4 ≠ 0) :
    s.transfer i target = .trap (.misaligned target.toNat) := by
  simp [State.transfer, h]

theorem reportTrap_one (i : Nat) (x : Trap) : reportTrap [(i, x)] = some { x with addr := if x.isMem then min (2 ^ 64) x.addr else 0 } := by
  simp [reportTrap]

/-- A mask of one lane. -/
theorem maskOf_eq {i : Nat} (p : Nat → Bool) (hp : ∀ j, p j = (i == j)) : maskOf p = 1#32 <<< i := by
  refine BitVec.eq_of_getLsbD_eq fun j hj => ?_
  rw [getLsbD_one_shift hj, ← hp j]
  exact inMask_maskOf p hj


/-- A lane that does not go on keeps its program counter. -/
theorem Group.advanceAll_lane_ne {ls : List Nat} {i : Nat} (size : Nat) (h : i ∉ ls) (g : Group) :
    (g.advanceAll ls size).lane i = g.lane i :=
  Group.lane_foldl_of_not_mem (fun g _ _ h => g.advance_lane_ne size h) h g

/-- A transfer of the one lane of an issue to an address that is not a multiple of 4. -/
theorem transfer_misaligned {s : State} {op : Op} {f : Full} {i : Nat} {a : W64}
    {body : State → Group → List (Nat × W64) → Nat → LaneStep} (h : Ready s op f) (hq : noQueue op f) (h1 : OneLane s f i)
    (htx : (s.group s.cur.gid).tx = none) (ha : a.toNat % 4 ≠ 0)
    (hb : body s (s.group s.cur.gid) (s.noneGot f) i = s.transfer i a) :
    let t := (laneExec op f s body).group s.cur.gid
    t.stopped = true ∧ t.trapCause = 0x0005 ∧ t.trapAddr = a ∧ t.trapPc = s.cur.pc ∧ t.trapMask = 1#32 <<< i ∧
      (t.lane i).pc = ((s.group s.cur.gid).lane i).pc := by
  have lt := (mem_enabledFor h1.mem).1
  obtain ⟨g, hg⟩ := Option.isSome_iff_exists.1 h.here
  have moved : (s.goOn (s.disabledFor f)).group? s.cur.gid = some (g.advanceAll (s.disabledFor f) s.cur.size) :=
    (State.group?_modGroup s _ _ fun g => g.advanceAll_id _ _).trans (by rw [hg]; rfl)
  have trapped := laneExec_one_trap (x := .misaligned a.toNat) h hq h1 (by rw [Group.inTx_of_no_tx htx, Bool.and_false])
    (hb.trans (s.transfer_of_misaligned i ha))
  have reported : reportTrap [(i, Trap.misaligned a.toNat)] = some (.misaligned a.toNat) := by
    rw [reportTrap_one]
    have := a.isLt
    simp [Trap.misaligned, Trap.isMem]
    omega
  have last := State.group_of_group? (State.takeTrap_group? (pc := s.cur.pc) (ws := s.cur.words) reported moved)
  dsimp only
  rw [trapped, last]
  refine ⟨rfl, rfl, BitVec.ofNat_toNat .. |>.trans (BitVec.setWidth_eq a), rfl, maskOf_eq (fun j => [(i, Trap.misaligned a.toNat)].any (fun x => x.1 == j)) (fun j => by simp), ?_⟩
  have on : i ∉ s.disabledFor f := fun hi => by simpa [h1.mem] using (List.mem_filter.1 hi).2
  rw [Group.trapped_pc, Group.advanceAll_lane_ne _ on, State.group_of_group? hg]

/-- Settles O31. -/
theorem misalignedAddressesTrap : Obligations.MisalignedAddressesTrap := by
  refine ⟨fun s f i h1 htx => ⟨fun h hq ha => ⟨_, rfl, ?ret⟩, fun h hq ha => ⟨_, rfl, ?brx⟩⟩, fun s g i a n hint sp bs ha => ⟨?load, ?store, ?atomic⟩⟩
  case ret => exact transfer_misaligned h hq h1 htx ha (by rw [s.poppedBy_noneGot f i])
  case brx =>
    obtain ⟨stopped, cause, addr, _, _, pc⟩ := transfer_misaligned (body := fun s g _ i => s.transfer i (srcA .brx f g i 0)) h hq h1 htx ha rfl
    exact ⟨stopped, cause, addr, pc⟩
  case load => simp [State.load, State.placeLoad, s.hits_of_misaligned g sp ha, s.place_of_misaligned g sp .read ha, Trap.misaligned]
  case store =>
    rintro rfl
    simp [State.store, s.place_of_misaligned g sp .write ha, Trap.misaligned]
  case atomic =>
    intro nt mk
    simp [State.atomic, s.place_of_misaligned g sp .write ha, Trap.misaligned]

end Sys2Proof.Machine

namespace Sys2Proof.Machine

open Sys2Proof

/-! ### `NOP`, `YIELD`, `NAP` and `EXIT` (09 R175 to R177, R189) -/

/-- What no change of a lane that keeps which lanes have ended changes, the release of a mask keeps. -/
theorem Group.release_keeps {β : Type} (p : Group → β)
    (hp : ∀ (g : Group) i (F : Lane → Lane), (∀ l, (F l).ended = l.ended) → p (g.modLane i F) = p g) (g : Group) (j : Nat) :
    p (g.release j) = p g := by
  unfold Group.release
  refine foldl_keeps p _ (fun g i => ?_) _ g
  dsimp only
  split
  · exact hp g i _ fun _ => rfl
  · rfl

theorem Group.strike_keeps {β : Type} (p : Group → β)
    (hp : ∀ (g : Group) i (F : Lane → Lane), (∀ l, (F l).ended = l.ended) → p (g.modLane i F) = p g)
    (hj : ∀ (g : Group) j v, p (g.writeJ j v) = p g) (g : Group) (m : W32) : p (g.strike m) = p g := by
  unfold Group.strike
  refine foldl_keeps p _ (fun g j => ?_) _ g
  dsimp only
  split
  · rfl
  · split
    · rw [Group.release_keeps p hp, hj]
    · exact hj g j _

/-- The end of a lane keeps the transaction of its group, and leaves the other lanes as live as they were. -/
theorem LaneOnly.endLane {s : State} (t : State) (i : Nat) :
    LaneOnly s t (t.modGroup s.cur.gid (fun g => g.endLanes [i])) i := by
  refine .of_modGroup t i _ (fun g => ?_) (fun g => ?_) fun g j hj => ?_
  · exact Group.strike_keeps Group.id (fun _ _ _ _ => rfl) (fun _ _ _ => rfl) _ _
  · exact Group.strike_keeps Group.tx (fun _ _ _ _ => rfl) (fun _ _ _ => rfl) _ _
  · have ended : ∀ (g : Group) i (F : Lane → Lane), (∀ l, (F l).ended = l.ended) → ((g.modLane i F).lane j).ended = (g.lane j).ended :=
      fun g i F hF => g.modLane_ended i j F hF
    refine (Group.strike_keeps (fun g => (g.lane j).ended) ended (fun _ _ _ => rfl) _ _).trans ?_
    exact congrArg Lane.ended ((Group.lane_modLane g i j _).trans (if_neg fun k => hj k.1))

/-- A change of one lane that keeps whether it has ended. -/
theorem LaneOnly.modLane {s : State} (t : State) (i : Nat) (F : Lane → Lane) (hF : ∀ l, (F l).ended = l.ended) :
    LaneOnly s t (t.modLane s.cur.gid i F) i :=
  .of_modGroup t i _ (fun _ => rfl) (fun _ => rfl) fun g j _ => g.modLane_ended i j F hF

/-- Settles O15. -/
theorem nopYieldNapExit : Obligations.NopYieldNapExit := by
  intro f
  refine ⟨computes_of_body (fun _ s _ _ _ => .res s [] 0) (fun _ => rfl) fun _ _ _ _ _ _ _ => rfl, fun s => ?_⟩
  refine ⟨fun h hen => congrArg Host.Outcome.next ?yield, fun h hq => congrArg Host.Outcome.next ?nap, fun h => congrArg (fun t : State => Host.Outcome.next t.reap) ?exit⟩
  case yield =>
    refine groupExec_of_go (op := .yield) h (noQueue_of_fields h.legal rfl nofun (.inl rfl)) hen ?_ ?_
    · simp only [State.group_id]
    · split <;> rfl
  case nap =>
    refine laneExec_of_done (op := .nap) h hq rfl (fun t i same _ => ?_) fun t i _ => ?_
    · simp only [s.poppedBy_noneGot f i, State.group_id, same.time, low32, BitVec.toNat_setWidth, beq_iff_eq]
    · dsimp only
      split
      · exact .refl s t i
      · exact .modLane t i _ fun _ => rfl
  case exit =>
    refine laneExec_of_gone (op := .exit) h (noQueue_of_fields h.legal rfl nofun (.inl rfl)) (fun t i cur _ => ?_)
      fun t i _ => .endLane t i
    rw [State.group_id]

end Sys2Proof.Machine

namespace Sys2Proof.Machine

open Sys2Proof

/-! ### Transactions (07 R141 to R145) -/

theorem State.group_modGroup (s : State) (id : Nat) (F : Group → Group) (hF : ∀ g, (F g).id = g.id) (j : Nat) :
    (s.modGroup id F).group j = if j = id ∧ (s.group? id).isSome = true then F (s.group j) else s.group j := by
  by_cases h : j = id
  · subst h
    rw [State.group, State.group?_modGroup s j F hF, State.group]
    cases s.group? j <;> simp
  · rw [State.group, State.group?_modGroup_ne s F hF h, if_neg fun k => h k.1]
    rfl

/-- Nothing but whether lanes are parked, and the waiting orders of the queues, differs from `s` in the groups and memories
of `t`. -/
structure OnlyParks (s t : State) : Prop where
  group  : ∀ id, { t.group id with lanes := (s.group id).lanes } = s.group id
  lane   : ∀ id j, { (t.group id).lane j with park := 0 } = { (s.group id).lane j with park := 0 }
  memory : SameMemory s t

theorem OnlyParks.refl (s : State) : OnlyParks s s := ⟨fun _ => rfl, fun _ _ => rfl, .refl s⟩

theorem SameMemory.trans {s t u : State} (h : SameMemory s t) (k : SameMemory t u) : SameMemory s u :=
  ⟨fun a => (k.mem a).trans (h.mem a), fun a => (k.vault a).trans (h.vault a), k.stores.trans h.stores⟩

theorem OnlyParks.trans {s t u : State} (h : OnlyParks s t) (k : OnlyParks t u) : OnlyParks s u :=
  ⟨fun id => (congrArg (fun x : Group => { x with lanes := (s.group id).lanes }) (k.group id)).trans (h.group id),
   fun id j => (k.lane id j).trans (h.lane id j), h.memory.trans k.memory⟩

theorem OnlyParks.foldl {α : Type} (F : State → α → State) (hF : ∀ s a, OnlyParks s (F s a)) (l : List α) (s : State) :
    OnlyParks s (l.foldl F s) := by
  induction l generalizing s with
  | nil => exact .refl s
  | cons a l ih => exact (hF s a).trans (ih _)

theorem OnlyParks.wakeQueue (s : State) (team q : Nat) (push : Bool) : OnlyParks s (s.wakeQueue team q push) := by
  refine .foldl _ (fun s x => ?_) _ s
  have woken : ∀ id, ((s.modLane x.1 x.2 fun l => if l.park == 3 && l.aux == q then { l with park := 0 } else l).group id =
      (s.group id).modLane x.2 fun l => if l.park == 3 && l.aux == q then { l with park := 0 } else l) ∨
      (s.modLane x.1 x.2 fun l => if l.park == 3 && l.aux == q then { l with park := 0 } else l).group id = s.group id := fun id => by
    rw [State.modLane, State.group_modGroup s x.1 (fun g => g.modLane x.2 _) (fun _ => rfl) id]
    split
    · exact .inl rfl
    · exact .inr rfl
  refine ⟨fun id => ?_, fun id j => ?_, .of_eq rfl rfl rfl⟩
  · obtain e | e := woken id <;> rw [e]
    rfl
  · obtain e | e := woken id
    · rw [e, Group.lane_modLane]
      split
      · dsimp only
        split <;> rfl
      · rfl
    · rw [e]

theorem OnlyParks.leaveQueues (s : State) (team gid : Nat) (lanes : List Nat) : OnlyParks s (s.leaveQueues team gid lanes) := by
  unfold State.leaveQueues
  refine OnlyParks.trans (t := s.modTeam team _) ⟨fun _ => rfl, fun _ _ => rfl, fun _ => rfl, fun _ => rfl, ?_⟩
    (.foldl _ (fun s q => (OnlyParks.wakeQueue s team q false).trans (.wakeQueue _ team q true)) _ _)
  simp only [State.modTeam, updWhere, List.map_map]
  refine List.map_congr_left fun t _ => ?_
  simp only [Function.comp]
  split <;> rfl

/-- The abort of a transaction changes its group, and then only parks. -/
theorem OnlyParks.txAbort (s : State) (gid cause code : Nat) :
    OnlyParks (s.modGroup gid (fun g => g.txAbort cause code)) (s.txAbort gid cause code) := by
  have either : ∀ w : List Nat, OnlyParks (s.modGroup gid (fun g => g.txAbort cause code))
      (if w.isEmpty then s.modGroup gid (fun g => g.txAbort cause code)
        else (s.modGroup gid (fun g => g.txAbort cause code)).leaveQueues (s.group gid).team gid w) := fun w => by
    split
    · exact .refl _
    · exact .leaveQueues _ _ _ _
  exact either _

/-! #### What the abort of a transaction leaves of its group -/

/-- One lane of an aborted transaction resumes. -/
def Group.txResume (t : Tx) (g : Group) (i : Nat) : Group :=
  ((g.retire i true).writeP i t.pd false).modLane i (fun l =>
    if l.ended then l else { l with pc := t.resume, park := 0, wait := .none, replay := false })

theorem Group.retire_of_pend {g : Group} {i : Nat} (all : Bool) (h : (g.lane i).pend = []) :
    g.retire i all = g.modLane i (fun l => { l with pend := [] }) := by
  simp [Group.retire, h]

theorem Group.lane_writeP (g : Group) (i r : Nat) (b : Bool) (j : Nat) : (g.writeP i r b).lane j = g.lane j := by
  unfold Group.writeP
  split <;> rfl

theorem Group.txResume_ne (t : Tx) (g : Group) {i j : Nat} (h : j ≠ i) : (g.txResume t i).lane j = g.lane j := by
  obtain ⟨F, _, e⟩ := g.retire_lanes i true
  rw [Group.txResume, Group.lane_modLane, if_neg fun k => h k.1, Group.lane_writeP, Group.lane, e, getD_modAt,
    if_neg fun k => h k.1]
  rfl

theorem Group.txResume_self (t : Tx) (g : Group) {i : Nat} (hl : (g.lane i).ended = false) (hp : (g.lane i).pend = []) :
    ((g.txResume t i).lane i).pc = t.resume ∧ ((g.txResume t i).lane i).pend = [] := by
  have len := Group.lane_lt hl
  have len' : i < (((g.modLane i fun l => { l with pend := [] }).writeP i t.pd false)).lanes.length := by
    refine Group.lane_lt ?_
    rw [Group.lane_writeP, Group.lane_modLane]
    simp [len, hl]
  rw [Group.txResume, Group.retire_of_pend true hp, Group.lane_modLane, Group.lane_writeP, Group.lane_modLane]
  simp [len, len', hl]

theorem Group.txResume_readP (t : Tx) (g : Group) {i j : Nat} (hi : i < 32) (hj : j < 32) (hp : (g.lane i).pend = [])
    (hd : t.pd ≠ 0) : (g.txResume t i).readP j t.pd = if j = i then false else g.readP j t.pd := by
  rw [Group.txResume, Group.retire_of_pend true hp, Group.readP_modLane, readP_writeP _ _ _ _ hj hi, Group.readP_modLane]
  simp [hd]

theorem Group.txResume_tx (t : Tx) (g : Group) (i : Nat) : (g.txResume t i).tx = g.tx := by
  have wrote : ((g.retire i true).writeP i t.pd false).tx = (g.retire i true).tx := by
    unfold Group.writeP
    split <;> rfl
  exact wrote.trans (g.retire_tx i true)


theorem Group.txResume_id (t : Tx) (g : Group) (i : Nat) : (g.txResume t i).id = g.id := by
  have wrote : ((g.retire i true).writeP i t.pd false).id = (g.retire i true).id := by
    unfold Group.writeP
    split <;> rfl
  exact wrote.trans (g.retire_id i true)

theorem Group.retire_txstat (g : Group) (i : Nat) (all : Bool) : (g.retire i all).txstat = g.txstat := by
  unfold Group.retire
  refine foldl_keeps Group.txstat _ (fun g p => foldl_keeps Group.txstat _ (fun g c => ?_) _ _) _ _
  split
  · exact (congrArg Group.txstat (Group.writeOrdered_rest _ _ _ _ _).rest :)
  · rfl

theorem Group.txResume_txstat (t : Tx) (g : Group) (i : Nat) : (g.txResume t i).txstat = g.txstat := by
  have wrote : ((g.retire i true).writeP i t.pd false).txstat = (g.retire i true).txstat := by
    unfold Group.writeP
    split <;> rfl
  exact wrote.trans (g.retire_txstat i true)

/-- The lanes of an aborted transaction write its predicate false. -/
theorem Group.txResumes_readP (t : Tx) (hd : t.pd ≠ 0) {j : Nat} (hj : j < 32) (ls : List Nat) (hn : ls.Nodup) (g : Group)
    (hls : ∀ i ∈ ls, i < 32 ∧ (g.lane i).pend = []) :
    (ls.foldl (Group.txResume t) g).readP j t.pd = if j ∈ ls then false else g.readP j t.pd := by
  induction ls generalizing g with
  | nil => simp
  | cons i ls ih =>
    obtain ⟨hi, hn⟩ := List.nodup_cons.1 hn
    obtain ⟨lt, settled⟩ := hls i List.mem_cons_self
    have others : ∀ k ∈ ls, k < 32 ∧ ((g.txResume t i).lane k).pend = [] := fun k hk => by
      rw [g.txResume_ne t fun e : k = i => hi (e ▸ hk)]
      exact hls k (List.mem_cons_of_mem _ hk)
    rw [List.foldl_cons, ih hn _ others, g.txResume_readP t lt hj settled hd]
    by_cases e : j = i
    · simp [e]
    · simp [e]

theorem Group.txAbort_of_tx {g : Group} {t : Tx} (h : g.tx = some t) (cause code : Nat) :
    g.txAbort cause code = (lanesOf t.lanes).foldl (Group.txResume t)
      { g with tx := none, txstat := w32 (t.lines * 65536 + code * 256 + cause) } := by
  rw [Group.txAbort, h]
  rfl

/-- Lanes of a group write a predicate. -/
def Group.writeAllP (g : Group) (ls : List Nat) (r : Nat) (v : Bool) : Group :=
  ls.foldl (fun g i => (g.modLane i (fun l => l.dropCells [.p r])).writeP i r v) g

theorem Group.writeAllP_readP {i : Nat} (hi : i < 32) (r : Nat) (ls : List Nat) (hls : ∀ j ∈ ls, j < 32) (g : Group)
    (h : i ∈ ls ∨ g.readP i r = true) : (g.writeAllP ls r true).readP i r = true := by
  induction ls generalizing g with
  | nil => simpa [Group.writeAllP] using h
  | cons j ls ih =>
    refine ih (fun k hk => hls k (List.mem_cons_of_mem _ hk)) _ ?_
    rw [readP_writeP _ _ _ _ hi (hls j List.mem_cons_self), Group.readP_modLane]
    by_cases hr : r = 0
    · right; subst hr; simp [Group.readP]
    · obtain h | h := h
      · obtain rfl | h := List.mem_cons.1 h
        · right; simp [hr]
        · exact .inl h
      · right; simp [h]

/-- Nothing of a lane changes that is owed nothing. -/
theorem Group.writeAllP_lane (ls : List Nat) (r : Nat) (v : Bool) (g : Group) {i : Nat} (h : (g.lane i).pend = []) :
    (g.writeAllP ls r v).lane i = g.lane i := by
  induction ls generalizing g with
  | nil => rfl
  | cons j ls ih =>
    have one : (((g.modLane j fun l => l.dropCells [.p r]).writeP j r v)).lane i = g.lane i := by
      rw [Group.lane_writeP, Group.lane_modLane]
      split
      · exact Lane.dropCells_nil _ _ h
      · rfl
    exact (ih _ (by rw [one]; exact h)).trans one

theorem Group.writeAllP_id (ls : List Nat) (r : Nat) (v : Bool) (g : Group) : (g.writeAllP ls r v).id = g.id :=
  foldl_keeps Group.id _ (fun g i => by unfold Group.writeP; split <;> rfl) ls g

/-- A group that differs from one before it in its lanes alone goes on past an instruction. -/
theorem State.passAll_group {s t : State} {g1 : Group} (cur : t.cur = s.cur) (here : t.group? s.cur.gid = some g1)
    (hl : ∀ i, inMask s.cur.lanes i = true → (g1.lane i).pend = [] ∧ (g1.lane i).ended = false) :
    ∃ g2, t.passAll.group? s.cur.gid = some g2 ∧ { g2 with lanes := g1.lanes } = g1 ∧
      ∀ i, inMask s.cur.lanes i = true → (g2.lane i).pc = (g1.lane i).pc + w64 s.cur.size := by
  obtain ⟨frame, lane⟩ := Group.advanceAll_lanes (lanesOf s.cur.lanes) s.cur.size (lanesOf_nodup _) g1 fun i hi =>
    have := hl i (inMask_lanesOf.1 hi).2
    ⟨this.1, Group.lane_lt this.2⟩
  refine ⟨_, ?_, frame, fun i hi => ?_⟩
  · rw [State.passAll, cur, State.group?_modGroup _ _ _ fun g => g.advanceAll_id _ _, here]
    rfl
  · have lt : i < 32 := lt_of_inMask hi
    rw [lane i, if_pos (inMask_lanesOf.2 ⟨lt, hi⟩)]

end Sys2Proof.Machine

namespace Sys2Proof.Machine

open Sys2Proof

/-- A group whose lanes `en` write a predicate true, with the transaction and the status word given. -/
def Group.settleTx (g : Group) (en : List Nat) (r : Nat) (status : W32) (tx : Option Tx) : Group :=
  { g.writeAllP en r true with txstat := status, tx := tx }

/-- An issue that opens or ends its group's transaction, and goes on. -/
theorem settleTx_passAll {s : State} {op : Op} {f : Full} (h : Ready s op f) (r : Nat) (status : W32) (tx : Option Tx) :
    let t := (s.modGroup s.cur.gid (fun g => g.settleTx (s.enabledFor f) r status tx)).passAll
    (t.group s.cur.gid).tx = tx ∧ (t.group s.cur.gid).txstat = status ∧ SameMemory s t ∧
      (∀ i ∈ s.enabledFor f, (t.group s.cur.gid).readP i r = true) ∧
      ∀ i, inMask s.cur.lanes i = true → ((t.group s.cur.gid).lane i).pc = s.pastPc i := by
  obtain ⟨g, hg⟩ := Option.isSome_iff_exists.1 h.here
  have hgr := State.group_of_group? hg
  have lane : ∀ i, inMask s.cur.lanes i = true → (g.settleTx (s.enabledFor f) r status tx).lane i = g.lane i := fun i hi =>
    Group.writeAllP_lane _ _ _ g (by rw [← hgr]; exact (h.alive i hi).2)
  have here : (s.modGroup s.cur.gid (fun g => g.settleTx (s.enabledFor f) r status tx)).group? s.cur.gid =
      some (g.settleTx (s.enabledFor f) r status tx) :=
    (State.group?_modGroup s _ (fun g => g.settleTx (s.enabledFor f) r status tx) fun g => g.writeAllP_id _ _ _).trans (by rw [hg]; rfl)
  obtain ⟨g2, last, frame, pc⟩ := State.passAll_group (s := s)
    (t := s.modGroup s.cur.gid (fun g => g.settleTx (s.enabledFor f) r status tx)) rfl here fun i hi => by
      rw [lane i hi, ← hgr]; exact (h.alive i hi).symm
  intro t
  rw [State.group_of_group? last]
  refine ⟨(congrArg Group.tx frame :), (congrArg Group.txstat frame :), .of_eq rfl rfl rfl, fun i hi => ?_, fun i hi => ?_⟩
  · have wrote := Group.writeAllP_readP (mem_enabledFor hi).1 r (s.enabledFor f) (fun j hj => (mem_enabledFor hj).1) g (.inl hi)
    have same : g2.p = (g.writeAllP (s.enabledFor f) r true).p := (congrArg Group.p frame :)
    rw [Group.readP, same]
    exact wrote
  · rw [pc i hi, lane i hi, State.pastPc, hgr]

/-- The commit of a transaction that read and wrote nothing (07 R144). -/
theorem execTxcommit_of_empty {s : State} {f : Full} {x : Tx} (hen : s.enabledFor f ≠ []) (htx : (s.group s.cur.gid).tx = some x)
    (hset : maskOf (s.enabledFor f).contains = x.lanes) (hr : x.reads = []) (hw : x.writes = [])
    (hwb : s.writeBackGroup s.cur.gid = s) : execTxcommit f s =
      .next (s.modGroup s.cur.gid (fun g => g.settleTx (s.enabledFor f) f.dst.toNat 0 none)).passAll := by
  have now : ∃ c, s.commitTime x = (c, s) := ⟨_, by simp only [State.commitTime, hw]; rfl⟩
  obtain ⟨c, now⟩ := now
  have still : ∀ t : State, t.txQueue (s.group s.cur.gid) x c = t := fun t => by simp [State.txQueue, hr, hw]
  have clean : x.lines = 0 := by simp [Tx.lines, hr, hw]
  simp only [execTxcommit, htx, List.isEmpty_iff, hen, hset, hwb, now, still, clean]
  simp only [hr, hw, if_false, bne_self_eq_false, Bool.false_eq_true, List.append_nil, List.any_nil]
  rfl

theorem low32_mod_byte (v : W64) : low32 v % 256 = v.toNat % 256 := by
  rw [low32, BitVec.toNat_setWidth]
  omega

theorem Group.txAbort_id (g : Group) (cause code : Nat) : (g.txAbort cause code).id = g.id := by
  cases h : g.tx with
  | none => rw [Group.txAbort, h]
  | some x =>
    rw [Group.txAbort_of_tx h]
    exact foldl_keeps Group.id _ (fun g i => g.txResume_id x i) _ _

/-- The abort of its group's transaction by a lane of it. -/
theorem execTxabort_of_one {s : State} {f : Full} {x : Tx} {i : Nat} (hq : noQueue .txabort f)
    (htx : (s.group s.cur.gid).tx = some x) (h1 : OneLane s f i) (hi : inMask x.lanes i = true) :
    execTxabort f s = .next ((s.txAbort s.cur.gid 5 (low32 (srcA .txabort f (s.group s.cur.gid) i 0) % 256)).modGroup s.cur.gid
      (fun g => g.advanceAll ((lanesOf s.cur.lanes).filter (fun j => !inMask x.lanes j)) s.cur.size)) := by
  have on : s.enabledFor f = [i] := h1
  have sound : s.badPops .txabort f = [] := by simp [State.badPops, hq.1]
  simp [execTxabort, htx, on, hi, s.queueTraps_of_noQueue hq, sound, hq.1, poppedBy, low32_mod_byte]

/-- What an aborted transaction leaves of its group, before lanes that waited for queues are woken. -/
theorem Group.txAbort_lanes {g : Group} {x : Tx} (htx : g.tx = some x) (cause code : Nat)
    (hlanes : ∀ j, j < 32 → inMask x.lanes j = true → (g.lane j).ended = false ∧ (g.lane j).pend = []) :
    let g' := g.txAbort cause code
    g'.tx = none ∧ g'.txstat = w32 (x.lines * 65536 + code * 256 + cause) ∧
      (∀ j, inMask x.lanes j = false → g'.lane j = g.lane j) ∧
      ∀ j, j < 32 → inMask x.lanes j = true → (g'.lane j).pc = x.resume ∧ (x.pd ≠ 0 → g'.readP j x.pd = false) := by
  have hn := lanesOf_nodup x.lanes
  have far : ∀ j, j ∉ lanesOf x.lanes → (g.txAbort cause code).lane j = g.lane j := fun j hj => by
    rw [Group.txAbort_of_tx htx]
    exact Group.lane_foldl_of_not_mem (fun g _ _ h => g.txResume_ne x h) hj _
  refine ⟨?_, ?_, fun j hj => far j fun k => by simp [(inMask_lanesOf.1 k).2] at hj, fun j hlt hj => ⟨?_, fun hd => ?_⟩⟩
  · rw [Group.txAbort_of_tx htx]
    exact foldl_keeps Group.tx _ (fun g i => g.txResume_tx x i) _ _
  · rw [Group.txAbort_of_tx htx]
    exact foldl_keeps Group.txstat _ (fun g i => g.txResume_txstat x i) _ _
  · rw [Group.txAbort_of_tx htx]
    obtain ⟨g1, same, last⟩ := Group.lane_foldl_of_mem (fun g _ _ h => g.txResume_ne x h) hn (inMask_lanesOf.2 ⟨hlt, hj⟩)
      { g with tx := none, txstat := w32 (x.lines * 65536 + code * 256 + cause) }
    have own : g1.lane j = g.lane j := same
    obtain ⟨alive, settled⟩ := hlanes j hlt hj
    rw [last]
    exact (g1.txResume_self x (own ▸ alive) (own ▸ settled)).1
  · rw [Group.txAbort_of_tx htx]
    refine (Group.txResumes_readP x hd hlt _ hn _ fun k hk => ?_).trans (if_pos (inMask_lanesOf.2 ⟨hlt, hj⟩))
    obtain ⟨hk, hin⟩ := inMask_lanesOf.1 hk
    exact ⟨hk, (hlanes k hk hin).2⟩

/-- Settles O35. -/
theorem transactionsBeginCommitAndAbort : Obligations.TransactionsBeginCommitAndAbort := by
  intro s f hen
  refine ⟨fun h htx => ⟨_, ?begin, settleTx_passAll h _ _ _⟩, fun x h htx hset hr hw hwb => ⟨_, execTxcommit_of_empty hen htx hset hr hw hwb, ?commit⟩,
    fun x i h hq htx h1 hi hlanes => ?abort⟩
  case begin =>
    show execTxbegin f s = _
    simp only [execTxbegin, htx, List.isEmpty_iff, hen, if_false]
    rfl
  case commit =>
    obtain ⟨tx, status, _, pd, pc⟩ := settleTx_passAll h f.dst.toNat 0 none
    exact ⟨tx, status, pd, pc⟩
  case abort =>
    refine ⟨_, execTxabort_of_one hq htx h1 hi, ?_⟩
    obtain ⟨g, hg⟩ := Option.isSome_iff_exists.1 h.here
    have hgr := State.group_of_group? hg
    rw [hgr] at htx hlanes ⊢
    let code := low32 (srcA .txabort f g i 0) % 256
    let out := (lanesOf s.cur.lanes).filter (fun j => !inMask x.lanes j)
    obtain ⟨tx, status, far, resumed⟩ := Group.txAbort_lanes htx 5 code hlanes
    have parks := OnlyParks.txAbort s s.cur.gid 5 code
    have aborted : (s.modGroup s.cur.gid (fun g => g.txAbort 5 code)).group s.cur.gid = g.txAbort 5 code :=
      (State.group_modGroup s _ _ (fun g => g.txAbort_id _ _) _).trans (by rw [hg, hgr]; exact if_pos ⟨rfl, rfl⟩)
    have rest := parks.group s.cur.gid
    have lane := parks.lane s.cur.gid
    rw [aborted] at rest lane
    let v := (s.txAbort s.cur.gid 5 code).group s.cur.gid
    have others : ∀ j ∈ out, (v.lane j).pend = [] ∧ j < v.lanes.length := fun j hj => by
      obtain ⟨hin, hout⟩ := List.mem_filter.1 hj
      have same := lane j
      rw [far j (by simpa using hout), ← hgr] at same
      obtain ⟨alive, settled⟩ := h.alive j (inMask_lanesOf.1 hin).2
      exact ⟨(congrArg Lane.pend same :).trans settled, Group.lane_lt ((congrArg Lane.ended same :).trans alive)⟩
    obtain ⟨frame, moved⟩ := Group.advanceAll_lanes out s.cur.size ((lanesOf_nodup _).sublist List.filter_sublist) v others
    obtain ⟨w, now, frame', same⟩ : ∃ w, ((s.txAbort s.cur.gid 5 code).modGroup s.cur.gid (fun g => g.advanceAll out s.cur.size)).group
        s.cur.gid = w ∧ { w with lanes := v.lanes } = v ∧ ∀ j, j ∉ out → w.lane j = v.lane j := by
      rw [State.group_modGroup _ _ _ fun g => g.advanceAll_id _ _]
      split
      · exact ⟨_, rfl, frame, fun j hj => (moved j).trans (if_neg hj)⟩
      · exact ⟨_, rfl, rfl, fun _ _ => rfl⟩
    have before : SameMemory s (s.modGroup s.cur.gid (fun g => g.txAbort 5 code)) := .of_eq rfl rfl rfl
    have after : SameMemory (s.txAbort s.cur.gid 5 code)
      ((s.txAbort s.cur.gid 5 code).modGroup s.cur.gid (fun g => g.advanceAll out s.cur.size)) := .of_eq rfl rfl rfl
    rw [now]
    refine ⟨(congrArg Group.tx frame' :).trans ((congrArg Group.tx rest :).trans tx),
      before.trans (parks.memory.trans after), (congrArg Group.txstat frame' :).trans ((congrArg Group.txstat rest :).trans status),
      fun j hlt hj => ?_⟩
    obtain ⟨pc, pd⟩ := resumed j hlt hj
    have stay : j ∉ out := fun k => by simpa [hj] using (List.mem_filter.1 k).2
    refine ⟨?_, fun hd => ?_⟩
    · rw [same j stay]
      exact (congrArg Lane.pc (lane j) :).trans pc
    · rw [Group.readP, (congrArg Group.p frame' :).trans (congrArg Group.p rest :)]
      exact pd hd

end Sys2Proof.Machine

namespace Sys2Proof.Machine

open Sys2Proof

/-! ### Canonical memory in what an operation answers (13, 17)

A step keeps the global memory and the vaults canonical because each operation does. An operation answers a state, a state
with a value, or one of several outcomes that hold a state: for each such type, what it means that the state in it is
canonical. -/

/-- What holds of the value in an option. -/
def Holds {α : Type} (P : α → Prop) : Option α → Prop
  | some a => P a
  | none => True

/-- What holds of the value of a computation that succeeds. -/
def HoldsOk {ε α : Type} (P : α → Prop) : Except ε α → Prop
  | .ok a => P a
  | .error _ => True

def LaneStep.canonical : LaneStep → Prop
  | .res s _ _ | .owe s _ | .trapIn _ s | .gone s | .stay s => s.canonical
  | .trap _ => True

def GroupStep.canonical : GroupStep → Prop
  | .go _ s | .stay s | .trap _ s => s.canonical

def SeqStep.canonical : SeqStep → Prop
  | .done s | .jump _ s | .block s => s.canonical
  | .stay | .halt _ _ _ => True

def Loaded.canonical : Loaded → Prop
  | .bytes _ s | .trap _ s | .wait s => s.canonical

def Stored.canonical : Stored → Prop
  | .done s | .trap _ s | .wait s => s.canonical

def Atomic.canonical : Atomic → Prop
  | .old _ s | .owed _ s | .trap _ s | .wait s => s.canonical

def WordEnd.canonical : WordEnd → Prop
  | .ok _ s | .fault s | .refused s | .ecc s | .wait s => s.canonical

def Texels.canonical : Texels → Prop
  | .bits _ s | .trap _ s | .wait s => s.canonical

def Descr.canonical : Descr → Prop
  | .ok _ s | .trap _ s | .wait s => s.canonical

def UnitRead.canonical : UnitRead → Prop
  | .bits _ s | .fault _ _ _ s | .wait s => s.canonical

def PacketEnd.canonical : PacketEnd → Prop
  | .halt _ s | .wait s | .done s | .busy _ s => s.canonical

def Issued.canonical : Issued → Prop
  | .run _ s | .idle s => s.canonical

/-- An instruction or an event goes on to a state, which has its memories in canonical form if `s` has. -/
def Lands (s : State) : Result → Prop
  | .next t => s.canonical → t.canonical
  | _ => False

/-! #### How the states inside answers combine -/

theorem canonical_of_sameBytes {s t : State} (k : s.SameBytes t) (h : s.canonical) : t.canonical := canonical_of_eq h k.1 k.2

theorem canonical_snd {α : Type} {x : α × State} {a : α} {t : State} (e : x = (a, t)) (h : x.2.canonical) : t.canonical := by
  subst e
  exact h

theorem canonical_snd_snd {α β : Type} {x : α × β × State} {a : α} {b : β} {t : State} (e : x = (a, b, t))
    (h : x.2.2.canonical) : t.canonical := by
  subst e
  exact h

theorem ite_of {α : Type} {P : α → Prop} {c : Prop} [Decidable c] {a b : α} (ha : P a) (hb : P b) : P (if c then a else b) := by
  split
  · exact ha
  · exact hb

theorem ite_canonical {c : Prop} [Decidable c] {s t : State} (hs : s.canonical) (ht : t.canonical) :
    (if c then s else t).canonical := ite_of hs ht

theorem ite_snd {α : Type} {c : Prop} [Decidable c] {x y : α × State} (hx : x.2.canonical) (hy : y.2.canonical) :
    (if c then x else y).2.canonical := ite_of (P := fun x : α × State => x.2.canonical) hx hy

theorem ite_run {c : Prop} [Decidable c] {r q : Run} (hr : r.s.canonical) (hq : q.s.canonical) :
    (if c then r else q).s.canonical := ite_of (P := fun r : Run => r.s.canonical) hr hq

/-- What each step of a fold keeps of the state in its value, the fold keeps. -/
theorem canonical_fold {α β : Type} {g : β → State} {f : β → α → β} {l : List α} {b : β}
    (hf : ∀ b a, (g b).canonical → (g (f b a)).canonical) (h : (g b).canonical) : (g (l.foldl f b)).canonical := by
  induction l generalizing b with
  | nil => exact h
  | cons a l ih => exact ih (hf b a h)

/-- What each step of a fold keeps of its state, the fold keeps. -/
theorem foldl_canonical {α : Type} {f : State → α → State} {l : List α} {s : State}
    (hf : ∀ {s a}, s.canonical → (f s a).canonical) (h : s.canonical) : (l.foldl f s).canonical :=
  canonical_foldl f (fun _ _ => hf) l s h

theorem foldr_canonical {α : Type} {f : α → State → State} {l : List α} {s : State}
    (hf : ∀ {s a}, s.canonical → (f a s).canonical) (h : s.canonical) : (l.foldr f s).canonical := by
  induction l with
  | nil => exact h
  | cons a l ih => exact hf ih

theorem holds_map {α β : Type} {P : β → Prop} {f : α → β} {o : Option α} (hf : ∀ a, P (f a)) : Holds P (o.map f) := by
  cases o with
  | none => trivial
  | some a => exact hf a

theorem getD_canonical {o : Option State} {s : State} (ho : Holds State.canonical o) (h : s.canonical) : (o.getD s).canonical := by
  cases o with
  | none => exact h
  | some t => exact ho

theorem canonical_some {o : Option State} {t : State} (e : o = some t) (h : Holds State.canonical o) : t.canonical := by
  subst e
  exact h

theorem canonical_some_snd {α : Type} {o : Option (α × State)} {a : α} {t : State} (e : o = some (a, t))
    (h : Holds (fun x => x.2.canonical) o) : t.canonical := by
  subst e
  exact h

theorem canonical_ok {ε : Type} {o : Except ε State} {t : State} (e : o = .ok t) (h : HoldsOk State.canonical o) :
    t.canonical := by
  subst e
  exact h

theorem canonical_ok_snd {ε α : Type} {o : Except ε (α × State)} {a : α} {t : State} (e : o = .ok (a, t))
    (h : HoldsOk (fun x => x.2.canonical) o) : t.canonical := by
  subst e
  exact h

end Sys2Proof.Machine

namespace Sys2Proof.Machine

open Sys2Proof

/-! #### Operations of `Machine/Ops` -/

theorem takeTrap_canonical {s : State} {gid : Nat} {pc : W64} {ws : List W32} {traps : List (Nat × Trap)} (h : s.canonical) :
    (s.takeTrap gid pc ws traps).canonical := by
  unfold State.takeTrap
  split <;> exact h

/-! #### Operations of `Machine/Waiting` -/

theorem leaveQueues_canonical {s : State} {team gid : Nat} {lanes : List Nat} (h : s.canonical) : (s.leaveQueues team gid
    lanes).canonical :=
  foldl_canonical (fun k => canonical_of_sameBytes (wakeQueue_mem _ _ _ _) (canonical_of_sameBytes (wakeQueue_mem _ _ _ _) k)) h

/-! #### Operations of `Machine/MemOps` -/

theorem raiseError_canonical {s : State} {e : ErrorRec} {kind loc : Nat} (h : s.canonical) : (s.raiseError e kind
    loc).canonical :=
  ite_canonical h (ite_canonical (canonical_of_sameBytes (report_mem _ _) h) (canonical_of_sameBytes (report_mem _ _) h))

theorem useTlb_canonical {s : State} {core tenant a : Nat} (h : s.canonical) : (s.useTlb core tenant a).canonical := by
  unfold State.useTlb
  split
  · exact h
  · exact ite_canonical h (ite_canonical h (ite_canonical h h))

theorem useTlbs_canonical {s : State} {core tenant : Nat} {l : List Nat} (h : s.canonical) : (s.useTlbs core tenant
    l).canonical :=
  foldl_canonical (fun k => useTlb_canonical k) h

theorem mscClean_canonical {s : State} {pa n : Nat} {drop : Bool} (h : s.canonical) : (s.mscClean pa n drop).canonical :=
  foldl_canonical (fun k => k) h

theorem mscShadow_canonical {s : State} {pa : Nat} (h : s.canonical) : (s.mscShadow pa).canonical :=
  ite_canonical h (canonical_of_sameBytes (mscPlace_mem _ _) h)

theorem mscDrop_canonical {s : State} {pa n : Nat} (h : s.canonical) : (s.mscDrop pa n).canonical :=
  foldl_canonical (fun k => k) h

theorem askBank_canonical {s : State} {pa : Nat} (h : s.canonical) : (s.askBank pa).canonical := by
  unfold State.askBank
  split
  · exact h
  · split
    · exact h
    · exact ite_canonical h h

theorem grant_canonical {s : State} {line : Nat} {remoteSource : Bool} (h : s.canonical) : (s.grant line
    remoteSource).2.canonical := by
  unfold State.grant
  dsimp only
  split <;> exact h

theorem grantAway_canonical {s : State} {core line : Nat} (h : s.canonical) : (s.grantAway core line).2.canonical :=
  canonical_of_sameBytes (request_mem _ _ _ _) h

theorem txAbort_canonical {s : State} {gid cause code : Nat} (h : s.canonical) : (s.txAbort gid cause code).canonical :=
  ite_canonical h (leaveQueues_canonical h)

theorem engineLoads_canonical {s : State} {pa n : Nat} (h : s.canonical) : (s.engineLoads pa n).canonical :=
  ite_canonical h (foldl_canonical (fun k => k) h)

theorem homeLoads_canonical {s : State} {tenant a n : Nat} (h : s.canonical) : (s.homeLoads tenant a n).canonical := by
  unfold State.homeLoads
  split
  · exact ite_canonical h (engineLoads_canonical h)
  · exact h

theorem writeBack_canonical {s : State} {core line : Nat} {also : Sparse Nat} (h : s.canonical) : (s.writeBack core line
    also).canonical := by
  unfold State.writeBack
  split
  · exact h
  · exact ite_canonical h (ite_canonical (canonical_of_sameBytes (discard_mem _ _ _) h) (foldl_canonical (fun k =>
      writeAtHome_canonical _ _ k) h))

theorem writeBackGroup_canonical {s : State} {gid : Nat} (h : s.canonical) : (s.writeBackGroup gid).canonical :=
  foldl_canonical (fun k => writeBack_canonical k) h

theorem makeRoom_canonical {s : State} {core line : Nat} (h : s.canonical) : (s.makeRoom core line).canonical := by
  unfold State.makeRoom
  dsimp only
  split
  · exact h
  · split
    · exact h
    · exact writeBack_canonical (foldl_canonical (fun k => txAbort_canonical k) h)

theorem txLine_canonical {s : State} {core line hint : Nat} (h : s.canonical) : (s.txLine core line hint).canonical := by
  unfold State.txLine
  split
  · dsimp only
    split
    · exact h
    · exact makeRoom_canonical h
  · dsimp only
    split
    · exact h
    · exact makeRoom_canonical h

theorem l1Fetch_canonical {s : State} {core line sec hint : Nat} (h : s.canonical) : (s.l1Fetch core line sec hint).canonical :=
    by
  unfold State.l1Fetch
  split
  · dsimp only
    split
    · exact ite_canonical h (canonical_of_sameBytes (mscTouch_mem _ _ _ _ _) (ite_snd (ite_snd (grantAway_canonical h)
        (grant_canonical h)) (ite_snd (grantAway_canonical h) (grant_canonical h))))
    · exact canonical_of_sameBytes (mscTouch_mem _ _ _ _ _) (ite_snd (ite_snd (grantAway_canonical (makeRoom_canonical h))
        (grant_canonical (makeRoom_canonical h))) (ite_snd (grantAway_canonical (makeRoom_canonical h)) (grant_canonical
        (makeRoom_canonical h))))
  · dsimp only
    split
    · exact ite_canonical h (canonical_of_sameBytes (mscTouch_mem _ _ _ _ _) (ite_snd (ite_snd (grantAway_canonical h)
        (grant_canonical h)) (ite_snd (grantAway_canonical h) (grant_canonical h))))
    · exact canonical_of_sameBytes (mscTouch_mem _ _ _ _ _) (ite_snd (ite_snd (grantAway_canonical (makeRoom_canonical h))
        (grant_canonical (makeRoom_canonical h))) (ite_snd (grantAway_canonical (makeRoom_canonical h)) (grant_canonical
        (makeRoom_canonical h))))

theorem loadGlobal_canonical {s : State} {core pa n hint : Nat} {gid lane : Option Nat} (h : s.canonical) : (s.loadGlobal core
    pa n hint gid lane).2.canonical :=
  foldl_canonical (fun k => l1Fetch_canonical k) h

theorem storeGlobal_canonical {s : State} {core gid lane pa : Nat} {bs : List Byte} {hint : Nat} (h : s.canonical) :
    (s.storeGlobal core gid lane pa bs hint).canonical := by
  unfold State.storeGlobal
  split
  · dsimp only
    split
    · exact h
    · exact writeAtHome_canonical _ _ h
  · dsimp only
    split
    · exact h
    · exact writeAtHome_canonical _ _ h

theorem txJoin_canonical {s : State} {gid line : Nat} {write : Bool} (h : s.canonical) : (s.txJoin gid line
    write).2.canonical := by
  unfold State.txJoin
  split
  · exact h
  · exact ite_snd (txAbort_canonical h) h

theorem vaultHolds_canonical {s : State} {h' : VHeld} (h : s.canonical) : (s.vaultHolds h').2.canonical := by
  unfold State.vaultHolds
  split
  next e => exact (canonical_snd e (canonical_of_sameBytes (wakeArray_mem _ _) h) :)

theorem readArray_canonical {s : State} {a : Nat} {who : Reader} (h : s.canonical) : (s.readArray a who).2.canonical := by
  unfold State.readArray
  split
  next e =>
    exact ite_snd (canonical_snd e (canonical_of_sameBytes (wakeArray_mem _ _) h) :) (ite_canonical (canonical_snd e
        (canonical_of_sameBytes (wakeArray_mem _ _) h)) (canonical_snd e (canonical_of_sameBytes (wakeArray_mem _ _) h) :))

theorem addTo_canonical {s : State} {die obj : Nat} {err : Bool} {n key : Nat} (h : s.canonical) : (s.addTo die obj err n
    key).2.canonical := by
  unfold State.addTo
  split
  · dsimp only
    split <;> exact h
  · dsimp only
    split <;> exact vaultWrite_canonical _ h

theorem objOp_canonical {s : State} {die a : Nat} {k : ObjKind} {v : Nat} (h : s.canonical) : Holds State.canonical (s.objOp die
    a k v) :=
  holds_map (fun _ => setVault_canonical _ _ h)

theorem endFill_canonical {s : State} {team line : Nat} (h : s.canonical) : (s.endFill team line).canonical :=
  ite_canonical h h

/-! #### Operations of `Machine/Queues` -/

theorem unpop_canonical {s : State} {team q gid : Nat} {back : List (Nat × W64)} {wait : List Nat} (h : s.canonical) : (s.unpop
    team q gid back wait).canonical := by
  unfold State.unpop
  split
  · exact foldr_canonical (fun k => k) h
  · exact foldr_canonical (fun k => k) h
  · exact canonical_of_sameBytes (wakeQueue_mem _ _ _ _) h

theorem pushQueue_canonical {s : State} {team q gid lane : Nat} {v : W64} (h : s.canonical) : (s.pushQueue team q gid lane
    v).canonical := by
  unfold State.pushQueue
  dsimp only
  split
  · exact h
  · exact h
  · exact canonical_of_sameBytes (wakeQueue_mem _ _ _ _) h

theorem enginePush_canonical {s : State} {team q : Nat} {v : W64} (h : s.canonical) : Holds State.canonical (s.enginePush team q
    v) :=
  ite_of trivial (canonical_of_sameBytes (wakeQueue_mem _ _ _ _) h)

theorem engineTake_canonical {s : State} {team q : Nat} {counts : Bool} (h : s.canonical) : Holds (fun x => x.2.canonical)
    (s.engineTake team q counts) := by
  unfold State.engineTake
  split
  · dsimp only
    split
    · exact trivial
    · exact canonical_of_sameBytes (wakeQueue_mem _ _ _ _) h
  · dsimp only
    split
    · exact trivial
    · exact canonical_of_sameBytes (wakeQueue_mem _ _ _ _) h

theorem engineDone_canonical {s : State} {team q n : Nat} (h : s.canonical) : (s.engineDone team q n).canonical :=
  ite_canonical h h

/-! #### Operations of `Machine/Operands` -/

theorem writeDest_canonical {s : State} {gid i : Nat} {op : Op} {f : Full} {vals : List W64} (h : s.canonical) : (s.writeDest
    gid i op f vals).canonical := by
  unfold State.writeDest
  split
  · dsimp only
    split
    · exact h
    · exact pushQueue_canonical h
    · exact h
  · dsimp only
    split
    · exact h
    · exact pushQueue_canonical h
    · exact h

theorem Run.close_canonical {r : Run} {disabled : List Nat} (h : r.s.canonical) : (r.close disabled).canonical :=
  takeTrap_canonical h

theorem stayed_canonical {s : State} {i : Nat} (h : s.canonical) : (s.stayed i).canonical :=
  ite_canonical h h

theorem Run.lane_canonical {r : Run} {op : Op} {f : Full} {g : Group} {got : List (Nat × W64)}
    {body : State → Group → List (Nat × W64) → Nat → LaneStep} {i : Nat} (hbody : ∀ {a : State} {a_1 : Group}
    {a_2 : List (Nat × W64)} {a_3 : Nat}, a.canonical → (body a a_1 a_2 a_3).canonical) (h : r.s.canonical) : (r.lane op f g got
    body i).s.canonical := by
  unfold Run.lane
  split
  · exact ite_run h h
  · split
    next e =>
      split
      · exact ite_run h h
      · exact ite_run h (writeDest_canonical ((congrArg LaneStep.canonical e).mp (hbody h)))
    next e => exact ite_run h ((congrArg LaneStep.canonical e).mp (hbody h))
    · exact ite_run h (ite_run (txAbort_canonical h) h)
    next e =>
      exact ite_run h (ite_run (txAbort_canonical ((congrArg LaneStep.canonical e).mp (hbody h))) ((congrArg LaneStep.canonical
          e).mp (hbody h)))
    next e => exact ite_run h ((congrArg LaneStep.canonical e).mp (hbody h))
    next e => exact ite_run h (stayed_canonical ((congrArg LaneStep.canonical e).mp (hbody h)))

theorem Run.queues_canonical {r : Run} {op : Op} {f : Full} {g : Group} (h : r.s.canonical) : (r.queues op f g).canonical := by
  unfold Run.queues
  split
  · split
    · split
      · exact ite_canonical (canonical_of_sameBytes (wakeQueue_mem _ _ _ _) h) h
      · exact h
    · split
      · exact ite_canonical (canonical_of_sameBytes (wakeQueue_mem _ _ _ _) (unpop_canonical h)) (unpop_canonical h)
      · exact unpop_canonical h
  · split
    · exact ite_canonical (canonical_of_sameBytes (wakeQueue_mem _ _ _ _) h) h
    · exact h

theorem laneExec_canonical {s : State} {op : Op} {f : Full} {body : State → Group → List (Nat × W64) → Nat → LaneStep} (hbody :
    ∀ {a : State} {a_1 : Group} {a_2 : List (Nat × W64)} {a_3 : Nat}, a.canonical → (body a a_1 a_2 a_3).canonical) (h :
    s.canonical) : (laneExec op f s body).canonical := by
  unfold laneExec
  split
  · dsimp only
    split
    · exact h
    · exact txAbort_canonical h
  · split
    · dsimp only
      split
      · exact h
      · exact Run.close_canonical h
    · split
      · dsimp only
        split
        · exact h
        · exact Run.close_canonical (Run.queues_canonical (canonical_fold (g := Run.s) (fun _ _ k => Run.lane_canonical
            (fun h1 => hbody h1) k) (canonical_of_sameBytes (popAll_mem _ _ _ _ _) h)))
      · dsimp only
        split
        · exact h
        · exact Run.close_canonical (Run.queues_canonical (canonical_fold (g := Run.s) (fun _ _ k => Run.lane_canonical
            (fun h1 => hbody h1) k) h))

theorem finishAlu_canonical {s : State} {op : Op} {f : Full} {g : Group} {vals : List W64} {fl : FlagSet} (h : s.canonical) :
    (finishAlu s op f g vals fl).canonical := by
  unfold finishAlu
  split
  · exact trivial
  · exact h

theorem aluExec_canonical {s : State} {op : Op} {f : Full} {fn : Group → Nat → W64 → W64 → W64 → List W64 × FlagSet} (h :
    s.canonical) : (aluExec op f s fn).canonical :=
  laneExec_canonical (fun k => finishAlu_canonical k) h

theorem crossExec_canonical {s : State} {op : Op} {f : Full}
    {fn : Group → List Nat → (Nat → W64) → Nat → W64 → List W64 × FlagSet} (h : s.canonical) : (crossExec op f s
    fn).canonical :=
  laneExec_canonical (fun k => finishAlu_canonical k) h

/-! #### Operations of `Machine/Memory` -/

theorem eccTrap_canonical {s : State} {g : Group} {sp : Space} {p n : Nat} (h : s.canonical) : Holds (fun x => x.2.canonical)
    (s.eccTrap g sp p n) := by
  unfold State.eccTrap
  split <;> exact holds_map (fun _ => raiseError_canonical h)

theorem loadLine_canonical {s : State} {g : Group} {i p n hint : Nat} (h : s.canonical) : (s.loadLine g i p n hint).canonical :=
    by
  unfold State.loadLine
  split
  · split
    next e1 =>
      exact ite_of (canonical_snd e1 (txJoin_canonical h)) (ite_of (foldl_canonical (fun k => l1Fetch_canonical k)
          (canonical_snd e1 (txJoin_canonical h) :)) (foldl_canonical (fun k => l1Fetch_canonical k) (canonical_snd e1
          (txJoin_canonical h) :)))
  · exact foldl_canonical (fun k => l1Fetch_canonical k) h

theorem load_canonical {s : State} {g : Group} {i : Nat} {sp : Space} {a n hint : Nat} (h : s.canonical) : (s.load g i sp a n
    hint).canonical := by
  unfold State.load
  split
  · exact h
  · split
    · exact h
    · split
      · split
        next e1 => exact ite_of h (canonical_snd e1 (canonical_of_sameBytes (wakeArray_mem _ _) h))
        next e1 =>
          split
          next e2 =>
            exact ite_of h (canonical_some_snd e2 (eccTrap_canonical (canonical_snd e1 (canonical_of_sameBytes (wakeArray_mem _
                _) h))))
          · exact ite_of h (canonical_snd e1 (canonical_of_sameBytes (wakeArray_mem _ _) h))
      · dsimp only
        split
        next e1 => exact canonical_snd e1 (readArray_canonical h)
        next e1 =>
          split
          next e2 => exact canonical_some_snd e2 (eccTrap_canonical (canonical_snd e1 (readArray_canonical h)))
          · exact canonical_snd e1 (readArray_canonical h)
      · split
        · exact loadLine_canonical h
        · split
          · exact askBank_canonical h
          · split
            next e1 => exact canonical_some_snd e1 (eccTrap_canonical h)
            · split
              · exact h
              · exact loadLine_canonical (askBank_canonical h)

theorem storeLocal_canonical {s : State} {g : Group} {p : Nat} {bs : List Byte} (h : s.canonical) : (s.storeLocal g p
    bs).canonical :=
  canonical_of_sameBytes (complete_mem _ _ _) h

theorem store_canonical {s : State} {g : Group} {i : Nat} {sp : Space} {a : Nat} {bs : List Byte} {hint : Nat} (h :
    s.canonical) : (s.store g i sp a bs hint).canonical := by
  unfold State.store
  split
  · exact h
  · split
    · exact h
    · split
      · split
        · exact h
        · split
          next e1 =>
            exact ite_of (storeLocal_canonical (canonical_snd e1 (canonical_of_sameBytes (wakeArray_mem _ _) h))) (canonical_snd
                e1 (canonical_of_sameBytes (wakeArray_mem _ _) h))
      · exact vaultWrite_canonical _ h
      · split
        · exact h
        · split
          · exact h
          · split
            · split
              next e3 =>
                exact ite_of (ite_canonical (txLine_canonical (canonical_snd e3 (txJoin_canonical h))) (canonical_snd e3
                    (txJoin_canonical h))) (ite_canonical (txLine_canonical (canonical_snd e3 (txJoin_canonical h)))
                    (canonical_snd e3 (txJoin_canonical h)))
            · exact storeGlobal_canonical h

theorem loadExec_canonical {s : State} {op : Op} {f : Full} {n : Group → Nat} {vals : List Byte → List W64} (h : s.canonical) :
    (loadExec op f s n vals).canonical := by
  unfold loadExec
  refine laneExec_canonical ?_ h
  · intro _ _ _ _ k
    split
    next e => exact (congrArg Loaded.canonical e).mp (load_canonical k)
    next e => exact (congrArg Loaded.canonical e).mp (load_canonical k)
    next e => exact finishAlu_canonical ((congrArg Loaded.canonical e).mp (load_canonical k))

theorem scalarLoad_canonical {s : State} {op : Op} {f : Full} (h : s.canonical) : (scalarLoad op f s).canonical :=
  loadExec_canonical h

theorem runLoad_canonical {s : State} {op : Op} {f : Full} (h : s.canonical) : (runLoad op f s).canonical :=
  loadExec_canonical h

theorem storeExec_canonical {s : State} {op : Op} {f : Full} {n : Group → Nat} (h : s.canonical) : (storeExec op f s
    n).canonical := by
  unfold storeExec
  refine laneExec_canonical ?_ h
  · intro _ _ _ _ k
    split
    next e => exact (congrArg Stored.canonical e).mp (store_canonical k)
    next e => exact (congrArg Stored.canonical e).mp (store_canonical k)
    next e => exact (congrArg Stored.canonical e).mp (store_canonical k)

theorem scalarStore_canonical {s : State} {op : Op} {f : Full} (h : s.canonical) : (scalarStore op f s).canonical :=
  storeExec_canonical h

theorem runStore_canonical {s : State} {op : Op} {f : Full} (h : s.canonical) : (runStore op f s).canonical :=
  storeExec_canonical h

theorem atomicTx_canonical {s : State} {g : Group} {i p n : Nat} {nt : Bool} {mk : Nat → WriteOp} (h : s.canonical) :
    (s.atomicTx g i p n nt mk).canonical := by
  unfold State.atomicTx
  split
  next e =>
    split
    · exact canonical_snd e (txJoin_canonical h)
    · split
      next e1 =>
        exact ite_of (canonical_snd e1 (txJoin_canonical (canonical_snd e (txJoin_canonical h)))) (ite_of (foldl_canonical
            (fun k => l1Fetch_canonical k) (canonical_snd e1 (txJoin_canonical (canonical_snd e (txJoin_canonical h))) :))
            (foldl_canonical (fun k => l1Fetch_canonical k) (canonical_snd e1 (txJoin_canonical (canonical_snd e
            (txJoin_canonical h))) :)))

theorem atomicReach_canonical {s : State} {g : Group} {i : Nat} {sp : Space} {p n : Nat} (h : s.canonical) : (s.atomicReach g i
    sp p n).2.canonical := by
  unfold State.atomicReach
  split
  · exact canonical_of_sameBytes (wakeArray_mem _ _) h
  · exact ite_snd h (readArray_canonical h)
  · exact h

theorem atomic_canonical {s : State} {g : Group} {i : Nat} {sp : Space} {a n : Nat} {nt : Bool} {mk : Nat → WriteOp} (h :
    s.canonical) : (s.atomic g i sp a n nt mk).canonical := by
  unfold State.atomic
  split
  · exact h
  · split
    · exact h
    · split
      · exact h
      · split
        next e1 => exact canonical_snd e1 (atomicReach_canonical h)
        next e1 =>
          split
          next e2 => exact canonical_some_snd e2 (eccTrap_canonical (canonical_snd e1 (atomicReach_canonical h)))
          · split
            · exact canonical_of_sameBytes (complete_mem _ _ _) (canonical_snd e1 (atomicReach_canonical h) :)
            · split
              next e3 =>
                split
                · dsimp only
                  split
                  next e5 =>
                    exact (canonical_snd e5 (vaultHolds_canonical (canonical_snd e3 (canonical_snd e1 (atomicReach_canonical
                        h) :))) :)
                  next e5 =>
                    exact vaultPerform_canonical _ (canonical_snd e5 (vaultHolds_canonical (canonical_snd e3 (canonical_snd e1
                        (atomicReach_canonical h) :))))
                · dsimp only
                  split
                  next e4 =>
                    exact (canonical_snd e4 (vaultHolds_canonical (canonical_snd e3 (canonical_snd e1 (atomicReach_canonical
                        h) :))) :)
                  next e4 =>
                    exact vaultPerform_canonical _ (canonical_snd e4 (vaultHolds_canonical (canonical_snd e3 (canonical_snd e1
                        (atomicReach_canonical h) :))))
            · split
              · exact ite_of (canonical_snd e1 (atomicReach_canonical h)) (canonical_snd e1 (atomicReach_canonical h))
              · exact ite_of (atomicTx_canonical (canonical_snd e1 (atomicReach_canonical h))) (ite_of
                  (writeAtHome_canonical _ _ (writeBack_canonical (canonical_snd e1 (atomicReach_canonical h) :)))
                  (writeAtHome_canonical _ _ (writeBack_canonical (canonical_snd e1 (atomicReach_canonical h) :))))

theorem atomOperand_canonical {s : State} {f : Full} {g : Group} {i : Nat} (h : s.canonical) : (atomOperand f s g
    i).2.canonical :=
  ite_snd h h

theorem casOperands_canonical {s : State} {f : Full} {g : Group} {i : Nat} (h : s.canonical) : (casOperands f s g
    i).2.canonical :=
  ite_snd (ite_snd (ite_snd h h) (ite_snd h h)) (ite_snd h h)

theorem Atomic.finish_canonical {a : Atomic} {op : Op} {f : Full} {g : Group} (h : a.canonical) : (a.finish op f g).canonical :=
    by
  cases a with
  | old v s => exact finishAlu_canonical h
  | owed n s => exact h
  | trap t s => exact h
  | wait s => exact h

theorem execAtom_lands {s : State} {f : Full} : Lands s (execAtom f s) :=
  laneExec_canonical (fun k => Atomic.finish_canonical (atomic_canonical (atomOperand_canonical k)))

theorem execAtomCas_lands {s : State} {f : Full} : Lands s (execAtomCas f s) :=
  laneExec_canonical (fun k => Atomic.finish_canonical (atomic_canonical (casOperands_canonical k)))

theorem lineExec_canonical {s : State} {op : Op} {f : Full} {held : State → Nat → Bool}
    {act : State → Group → Nat → Nat → State} (hact : ∀ {a : State} {a_1 : Group} {a_2 a_3 : Nat}, a.canonical → (act a a_1 a_2
    a_3).canonical) (h : s.canonical) : (lineExec op f s held act).canonical := by
  unfold lineExec
  refine laneExec_canonical ?_ h
  · intro _ _ _ _ k
    split
    · exact k
    · split
      · exact k
      · exact ite_of k (hact k)

theorem execPref_lands {s : State} {f : Full} : Lands s (execPref f s) := by
  unfold execPref
  refine fun h => lineExec_canonical ?_ h
  exact fun k => ite_canonical k (l1Fetch_canonical (l1Fetch_canonical k))

theorem execLspres_lands {s : State} {f : Full} : Lands s (execLspres f s) := by
  unfold execLspres
  refine fun h => laneExec_canonical ?_ h
  exact fun k => ite_of trivial k

theorem execTxbegin_lands {s : State} {f : Full} : Lands s (execTxbegin f s) := by
  unfold execTxbegin
  dsimp only
  split
  · exact ite_of id id
  · exact ite_of id (fun h => txAbort_canonical h)

theorem commitTime_canonical {s : State} {t : Tx} (h : s.canonical) : (s.commitTime t).2.canonical :=
  ite_snd h h

theorem txQueue_canonical {s : State} {g : Group} {t : Tx} {c : Nat} (h : s.canonical) : (s.txQueue g t c).canonical :=
  foldl_canonical (fun k => ite_canonical k k) (foldl_canonical (fun k => k) h)

theorem execTxcommit_lands {s : State} {f : Full} : Lands s (execTxcommit f s) := by
  unfold execTxcommit
  dsimp only
  split
  · exact id
  · split
    · exact id
    · exact ite_of (fun h => txAbort_canonical h) (ite_of (fun h => txAbort_canonical h) (fun h => foldl_canonical (fun k =>
        releaseHold_canonical _ k) (txQueue_canonical (commitTime_canonical (writeBackGroup_canonical h)))))

theorem execTxabort_lands {s : State} {f : Full} : Lands s (execTxabort f s) := by
  unfold execTxabort
  split
  · dsimp only
    split
    · exact fun h => laneExec_canonical (fun k => k) h
    · split <;> exact fun h => laneExec_canonical (fun k => k) h
  · split
    · dsimp only
      split
      · exact fun h => laneExec_canonical (fun k => k) h
      · split <;> exact fun h => laneExec_canonical (fun k => k) h
    · split
      · dsimp only
        split
        · exact fun h => laneExec_canonical (fun k => k) h
        · split
          · exact fun h => laneExec_canonical (fun k => k) h
          · exact ite_of (fun h => canonical_of_sameBytes (popAll_mem _ _ _ _ _) h) (fun h => txAbort_canonical
              (canonical_of_sameBytes (popAll_mem _ _ _ _ _) h))
      · dsimp only
        split
        · exact fun h => laneExec_canonical (fun k => k) h
        · split
          · exact fun h => laneExec_canonical (fun k => k) h
          · exact ite_of id (fun h => txAbort_canonical h)

/-! #### Operations of `Machine/Latency` -/

theorem timeResults_canonical {s : State} {i : Instr} (h : s.canonical) : (s.timeResults i).canonical :=
  foldl_canonical (fun k => ite_canonical k (foldl_canonical (fun h1 => h1) k)) (foldl_canonical (fun k => useTlbs_canonical k)
      h)

/-! #### Operations of `Machine/Issue` -/

theorem endIssues_canonical {s : State} (h : s.canonical) : (s.endIssues).canonical :=
  foldl_canonical (fun k => k) h

theorem issuePartition_canonical {s : State} {core part : Nat} (h : s.canonical) : (s.issuePartition core part).canonical := by
  unfold State.issuePartition
  split
  · exact h
  · exact ite_canonical h h

theorem issueLane_canonical {s : State} {gid : Nat} {pc : W64} {picked : W32} (h : s.canonical) : (s.issueLane gid pc
    picked).canonical := by
  unfold State.issueLane
  split
  · exact h
  · split
    · exact h
    · dsimp only
      split
      · exact h
      · split
        · exact ite_of (takeTrap_canonical (txAbort_canonical h)) (takeTrap_canonical h)
        · split
          · exact takeTrap_canonical h
          · split
            · exact raiseError_canonical (takeTrap_canonical h)
            · exact timeResults_canonical (useTlb_canonical h)

theorem haltSeq_canonical {s : State} {team code addr : Nat} {tile : Option Nat} {pc : Option W64} (h : s.canonical) :
    (s.haltSeq team code addr tile pc).canonical := by
  unfold State.haltSeq
  refine ite_canonical h (foldl_canonical ?_ (releasePins_canonical h))
  · intro _ _ k
    dsimp only
    split
    · exact k
    · exact takeTrap_canonical k

theorem fetchSeq_canonical {s : State} {t : Team} {pc : Nat} (h : s.canonical) : HoldsOk (fun x => x.2.canonical) (s.fetchSeq t
    pc) := by
  unfold State.fetchSeq
  split
  · exact trivial
  · split
    · exact trivial
    · exact foldl_canonical (fun k => l1Fetch_canonical k) (useTlb_canonical h)

theorem issueSeq_canonical {s : State} {team : Nat} (h : s.canonical) : (s.issueSeq team).canonical := by
  unfold State.issueSeq
  split
  · split
    · exact h
    · split
      · exact h
      · split
        · exact haltSeq_canonical h
        next e2 =>
          split
          · exact (canonical_ok_snd e2 (fetchSeq_canonical h) :)
          · exact haltSeq_canonical (canonical_ok_snd e2 (fetchSeq_canonical h))
  · exact h

/-! #### Operations of `Machine/Rows` -/

theorem rowEcc_canonical {s : State} {c : RowCmd} {sector : Nat} (h : s.canonical) : (s.rowEcc c sector).canonical :=
  raiseError_canonical h

theorem rowReads_canonical {s : State} {ps : List (Nat × Nat)} (h : s.canonical) : (s.rowReads ps).canonical :=
  foldl_canonical (fun k => engineLoads_canonical (mscClean_canonical k)) h

theorem holdDests_canonical {s : State} {c : RowCmd} (h : s.canonical) : (s.holdDests c).canonical :=
  foldl_canonical (fun k => k) (foldl_canonical (fun k => mscClean_canonical k) h)

theorem shadowRow_canonical {s : State} {ps : List (Nat × Nat)} (h : s.canonical) : (s.shadowRow ps).canonical :=
  foldl_canonical (fun k => ite_canonical (mscShadow_canonical k) k) h

theorem rowComplete_canonical {s : State} {c : RowCmd} {t : Nat} (h : s.canonical) : (s.rowComplete c t).canonical :=
  ite_canonical h (canonical_of_sameBytes (complete_mem _ _ _) h)

theorem rowDone_canonical {s : State} {id status : Nat} (h : s.canonical) : (s.rowDone id status).canonical := by
  unfold State.rowDone
  split
  · exact h
  · exact ite_canonical (rowComplete_canonical h) (rowComplete_canonical h)

theorem rowCount_canonical {s : State} {c : RowCmd} (h : s.canonical) : (s.rowCount c).2.canonical := by
  unfold State.rowCount
  split
  · exact h
  · split
    next e => exact ite_snd h (canonical_snd e (addTo_canonical h) :)
    next e => exact ite_snd h (canonical_snd e (addTo_canonical h) :)

theorem countRow_canonical {s : State} {c : RowCmd} {rest : Nat → State → State} (hrest : ∀ {a : Nat} {a_1 : State},
    a_1.canonical → (rest a a_1).canonical) (h : s.canonical) : (s.countRow c rest).canonical := by
  unfold State.countRow
  split
  next e => exact (canonical_snd e (rowCount_canonical h) :)
  next e => exact hrest (canonical_snd e (rowCount_canonical h))

theorem rowPortDone_canonical {s : State} {c : RowCmd} (h : s.canonical) : (s.rowPortDone c).canonical :=
  ite_canonical (engineDone_canonical h) h

theorem performRow_canonical {s : State} {c : RowCmd} (h : s.canonical) : (s.performRow c).canonical :=
  foldl_canonical (fun k => releaseHold_canonical _ k) (foldl_canonical (fun k => mscDrop_canonical k) (foldl_canonical
      (fun k => ite_canonical k (performBytes_canonical _ _ _ k)) h))

theorem endRow_canonical {s : State} {id : Nat} (h : s.canonical) : (s.endRow id).canonical := by
  unfold State.endRow
  split
  · exact h
  · split
    · split
      · exact ite_canonical (rowComplete_canonical (foldl_canonical (fun k => releaseHold_canonical _ k) h)) (countRow_canonical
          (fun k => ite_canonical k k) (performRow_canonical (foldl_canonical (fun k => releaseHold_canonical _ k) h)))
      · split
        · exact ite_canonical (rowComplete_canonical (foldl_canonical (fun k => releaseHold_canonical _ k) h))
            (rowPortDone_canonical (performRow_canonical (foldl_canonical (fun k => releaseHold_canonical _ k) h)))
        · dsimp only
          split
          · exact rowComplete_canonical (foldl_canonical (fun k => releaseHold_canonical _ k) h)
          · split
            · exact countRow_canonical (fun k => rowPortDone_canonical k) (performRow_canonical (foldl_canonical (fun k =>
                releaseHold_canonical _ k) h))
            · exact engineWrite_canonical _ _ _ _ (performRow_canonical (foldl_canonical (fun k => releaseHold_canonical _ k)
                h))
    · refine ite_canonical h (countRow_canonical ?_ h)
      · intro _ _ k
        split
        · exact ite_canonical k k
        · exact rowPortDone_canonical k
    · exact h

theorem rowOpStep_canonical {s : State} {c : RowCmd} (h : s.canonical) : (s.rowOpStep c).canonical := by
  unfold State.rowOpStep
  dsimp only
  split
  · exact h
  · split
    · exact rowEcc_canonical (rowDone_canonical h)
    · exact rowReads_canonical h

theorem rowWork_canonical {s : State} {id : Nat} (h : s.canonical) : (s.rowWork id).canonical := by
  unfold State.rowWork
  split
  · exact h
  · exact ite_canonical (rowOpStep_canonical h) h

theorem rowBoundary_canonical {s : State} {id : Nat} (h : s.canonical) : (s.rowBoundary id).canonical := by
  unfold State.rowBoundary
  split
  · exact h
  · exact ite_canonical h (ite_canonical h (rowWork_canonical h))

theorem rowResume_canonical {s : State} {id : Nat} (h : s.canonical) : (s.rowResume id).canonical :=
  rowWork_canonical h

theorem rowStepOver_canonical {s : State} {c : RowCmd} (h : s.canonical) : (s.rowStepOver c).canonical := by
  unfold State.rowStepOver
  split
  · exact ite_canonical (rowDone_canonical (shadowRow_canonical h)) (rowBoundary_canonical (shadowRow_canonical h))
  · split
    · exact rowDone_canonical h
    · exact rowBoundary_canonical h

theorem runStep_canonical {s : State} {body : State → RowCmd → NearBank → StepEnd} (h : s.canonical) : (runStep s
    body).canonical := by
  unfold runStep
  dsimp only
  split
  · exact h
  · split
    · exact h
    · exact h
    · exact ite_canonical h (ite_canonical h h)

theorem issueRow_canonical {s : State} {id : Nat} (h : s.canonical) : (s.issueRow id).canonical := by
  unfold State.issueRow
  split
  · exact h
  · split
    · exact h
    · dsimp only
      split <;> exact h

theorem beginRow_canonical {s : State} {c : RowCmd} (h : s.canonical) : (s.beginRow c).canonical := by
  unfold State.beginRow
  split
  · exact rowWork_canonical (holdDests_canonical h)
  · split
    · exact rowDone_canonical h
    · split
      · exact rowDone_canonical (ite_canonical h h)
      · exact rowDone_canonical h
      · exact rowDone_canonical (ite_canonical (shadowRow_canonical (holdDests_canonical h)) (shadowRow_canonical
          (holdDests_canonical h)))
      · exact rowWork_canonical h

theorem startRow_canonical {s : State} {id : Nat} (h : s.canonical) : (s.startRow id).canonical := by
  unfold State.startRow
  split
  · exact h
  · split
    · dsimp only
      split
      · exact foldl_canonical (fun k => askBank_canonical k) h
      · split
        · exact rowEcc_canonical (rowDone_canonical h)
        · exact beginRow_canonical (foldl_canonical (fun k => engineLoads_canonical k) h)
    · exact h
    · exact rowDone_canonical (ite_canonical h h)

/-! #### Operations of `Machine/Ending` -/

theorem testTeamBar_canonical {s : State} {team : Nat} (h : s.canonical) : (s.testTeamBar team).canonical := by
  unfold State.testTeamBar
  split
  · exact h
  · exact ite_canonical h h

theorem testTree_canonical {s : State} {team : Nat} (h : s.canonical) : (s.testTree team).canonical := by
  unfold State.testTree
  split
  · exact h
  · split
    · exact h
    · exact ite_canonical h h

theorem arriveNum_canonical {s : State} {team b : Nat} {group : Option Nat} {quorum : Nat} (h : s.canonical) : (s.arriveNum team
    b group quorum).canonical :=
  ite_canonical h h

theorem settleOver_canonical {s : State} (h : s.canonical) : (s.settleOver).canonical :=
  foldl_canonical (fun k => k) h

theorem endTeam_canonical {s : State} {id : Nat} {normal : Bool} (h : s.canonical) : (s.endTeam id normal).canonical := by
  unfold State.endTeam
  split
  · exact h
  · split
    · exact h
    · split <;> split <;> exact settleOver_canonical (releasePins_canonical (foldl_canonical (fun k => k) h))

theorem endGroup_canonical {s : State} {g : Group} (h : s.canonical) : (s.endGroup g).canonical := by
  unfold State.endGroup
  dsimp only
  split
  · exact h
  · exact ite_canonical (endTeam_canonical h) (testTree_canonical (testTeamBar_canonical h))

theorem reap_canonical {s : State} (h : s.canonical) : (s.reap).canonical :=
  foldl_canonical (fun k => endGroup_canonical k) h

theorem abortLaunch_canonical {s : State} {die num status code : Nat} (h : s.canonical) : (s.abortLaunch die num status
    code).canonical := by
  unfold State.abortLaunch
  split
  · exact h
  · exact foldl_canonical (fun k => endTeam_canonical k) h

theorem trapJoin_canonical {s : State} {gid : Nat} (h : s.canonical) : (s.trapJoin gid).canonical := by
  unfold State.trapJoin
  dsimp only
  split
  · exact h
  · exact ite_canonical h (takeTrap_canonical h)

theorem settleJoins_canonical {s : State} (h : s.canonical) : (s.settleJoins).canonical :=
  foldl_canonical (fun k => trapJoin_canonical k) h

/-! #### Operations of `Machine/Control` -/

theorem lanesStay_canonical {s : State} {c : Cur} (h : s.canonical) : (c.lanesStay s).canonical :=
  foldl_canonical (fun k => stayed_canonical k) h

theorem groupExec_canonical {s : State} {op : Op} {f : Full} {body : State → Group → List Nat → List (Nat × W64) → GroupStep}
    (hbody : ∀ {a : State} {a_1 : Group} {a_2 : List Nat} {a_3 : List (Nat × W64)}, a.canonical → (body a a_1 a_2
    a_3).canonical) (h : s.canonical) : (groupExec op f s body).canonical := by
  unfold groupExec
  split
  · exact ite_canonical h (txAbort_canonical h)
  · split
    · exact ite_canonical h (takeTrap_canonical h)
    · dsimp only
      split
      · exact h
      · split
        · exact takeTrap_canonical h
        · split
          · split
            · exact lanesStay_canonical (unpop_canonical (canonical_of_sameBytes (popAll_mem _ _ _ _ _) h))
            · split
              next e2 => exact (congrArg GroupStep.canonical e2).mp (hbody (canonical_of_sameBytes (popAll_mem _ _ _ _ _) h))
              next e2 =>
                exact lanesStay_canonical (unpop_canonical ((congrArg GroupStep.canonical e2).mp (hbody (canonical_of_sameBytes
                    (popAll_mem _ _ _ _ _) h))))
              next e2 =>
                exact takeTrap_canonical (unpop_canonical ((congrArg GroupStep.canonical e2).mp (hbody (canonical_of_sameBytes
                    (popAll_mem _ _ _ _ _) h))))
          · split
            · exact lanesStay_canonical h
            · split
              next e2 => exact (congrArg GroupStep.canonical e2).mp (hbody h)
              next e2 => exact lanesStay_canonical ((congrArg GroupStep.canonical e2).mp (hbody h))
              next e2 => exact takeTrap_canonical ((congrArg GroupStep.canonical e2).mp (hbody h))

theorem transfer_canonical {s : State} {i : Nat} {target : W64} (h : s.canonical) : (s.transfer i target).canonical :=
  ite_of trivial h

theorem execJarr_lands {s : State} {f : Full} : Lands s (execJarr f s) := by
  unfold execJarr
  refine fun h => groupExec_canonical ?_ h
  exact fun k => ite_of k k

theorem execYield_lands {s : State} {f : Full} : Lands s (execYield f s) := by
  unfold execYield
  refine fun h => groupExec_canonical ?_ h
  exact fun k => ite_canonical k k

theorem execNap_lands {s : State} {f : Full} : Lands s (execNap f s) := by
  unfold execNap
  refine fun h => laneExec_canonical ?_ h
  exact fun k => ite_canonical k k

theorem pushRecord_canonical {s : State} {die num : Nat} {r : Record} (h : s.canonical) : (s.pushRecord die num r).canonical :=
    by
  unfold State.pushRecord
  split
  · exact h
  · split
    · exact h
    · exact engineWrite_canonical _ _ _ _ h

theorem spawnLane_canonical {s : State} {g : Group} {i r : Nat} {ready : Bool} {pushed : State → LaneStep} (hpushed : ∀
    {a : State}, a.canonical → (pushed a).canonical) (h : s.canonical) : (s.spawnLane g i r ready pushed).canonical := by
  unfold State.spawnLane
  split
  · dsimp only
    split
    · exact trivial
    · exact writeBackGroup_canonical h
  · dsimp only
    split
    · exact trivial
    · split
      · exact h
      · exact ite_of h (hpushed (pushRecord_canonical h))

theorem execJoin_lands {s : State} {f : Full} : Lands s (execJoin f s) := by
  unfold execJoin
  refine fun h => laneExec_canonical ?_ h
  · intro _ _ _ _ k
    dsimp only
    split
    · exact trivial
    · split
      · exact trivial
      · exact ite_of k (ite_of (writeBackGroup_canonical k) (writeAtHome_canonical _ _ (writeBack_canonical k)))

theorem execBarTree_lands {s : State} {f : Full} : Lands s (execBarTree f s) := by
  unfold execBarTree
  refine fun h => groupExec_canonical ?_ h
  exact fun k => ite_of k (testTree_canonical k)

theorem execMbar_lands {s : State} {f : Full} : Lands s (execMbar f s) := by
  unfold execMbar
  refine fun h => groupExec_canonical ?_ h
  · intro _ _ _ _ k
    split
    · dsimp only
      split
      · exact k
      · exact ite_of k (ite_of k (ite_of k (writeBackGroup_canonical k)))
    · dsimp only
      split
      · exact k
      · exact ite_of k (ite_of k (ite_of k (ite_of k (arriveNum_canonical k))))

theorem execTrap_lands {s : State} {f : Full} : Lands s (execTrap f s) := by
  unfold execTrap
  refine fun h => laneExec_canonical ?_ h
  exact fun k => trivial

theorem execBkpt_lands {s : State} {f : Full} : Lands s (execBkpt f s) := by
  unfold execBkpt
  refine fun h => laneExec_canonical ?_ h
  exact fun k => ite_of trivial k

theorem writeSr_canonical {s : State} {g : Group} {i n : Nat} {v : W64} (h : s.canonical) : HoldsOk State.canonical (s.writeSr g
    i n v) := by
  unfold State.writeSr
  split
  · exact trivial
  · split
    · exact trivial
    · split
      · exact trivial
      · split <;> exact h

theorem execRdsr_lands {s : State} {f : Full} : Lands s (execRdsr f s) := by
  unfold execRdsr
  refine fun h => laneExec_canonical ?_ h
  · intro _ _ _ _ k
    split
    · exact k
    · exact trivial

theorem wrsrLanes_canonical {s : State} {f : Full} (h : s.canonical) : (wrsrLanes f s).canonical := by
  unfold wrsrLanes
  refine laneExec_canonical ?_ h
  · intro _ _ _ _ k
    split
    next e => exact canonical_ok e (writeSr_canonical k)
    · exact trivial

theorem execWrsrMseqpc_lands {s : State} {f : Full} : Lands s (execWrsrMseqpc f s) := by
  unfold execWrsrMseqpc
  refine fun h => groupExec_canonical ?_ h
  · intro _ _ _ _ k
    split
    · exact k
    · exact ite_of k (ite_of k k)

theorem wakeAll_canonical {s : State} {team q : Nat} (h : s.canonical) : (s.wakeAll team q).canonical :=
  foldl_canonical (fun k => k) h

theorem flushQueue_canonical {s : State} {gid : Nat} {en : List Nat} {q : Nat} (h : s.canonical) : Holds State.canonical
    (s.flushQueue gid en q) := by
  unfold State.flushQueue
  dsimp only
  split
  · exact h
  · exact h
  · exact h
  · exact ite_of trivial (canonical_of_sameBytes (wakeQueue_mem _ _ _ _) (ite_canonical (foldl_canonical (fun k =>
      endFill_canonical k) h) h))

theorem execQbind_lands {s : State} {f : Full} : Lands s (execQbind f s) := by
  unfold execQbind
  refine fun h => groupExec_canonical ?_ h
  · intro _ _ _ _ k
    dsimp only
    split
    · exact k
    · split
      · exact k
      · split
        · exact k
        next e => exact wakeAll_canonical (canonical_some e (flushQueue_canonical k))

theorem execQflush_lands {s : State} {f : Full} : Lands s (execQflush f s) := by
  unfold execQflush
  refine fun h => groupExec_canonical ?_ h
  · intro _ _ _ _ k
    split
    · exact k
    next e => exact canonical_some e (flushQueue_canonical k)

/-! #### Operations of `Machine/Copies` -/

theorem objExec_canonical {s : State} {op : Op} {f : Full} {body : State → Group → Nat → Nat → Option State} (hbody : ∀
    {a : State} {a_1 : Group} {a_2 a_3 : Nat}, a.canonical → Holds State.canonical (body a a_1 a_2 a_3)) (h : s.canonical) :
    (objExec op f s body).canonical := by
  unfold objExec
  refine groupExec_canonical ?_ h
  · intro _ _ _ _ k
    dsimp only
    split
    · exact k
    · split
      · exact writeBackGroup_canonical k
      · split
        next e1 => exact canonical_snd e1 (readArray_canonical k)
        next e1 =>
          split
          · exact canonical_snd e1 (readArray_canonical k)
          next e2 => exact canonical_some e2 (hbody (canonical_snd e1 (readArray_canonical k)))

theorem execBobjInit_lands {s : State} {f : Full} : Lands s (execBobjInit f s) := by
  unfold execBobjInit
  refine fun h => objExec_canonical ?_ h
  exact fun k => ite_of trivial (setVault_canonical _ _ k)

theorem execBobjWait_lands {s : State} {f : Full} : Lands s (execBobjWait f s) := by
  unfold execBobjWait
  refine fun h => groupExec_canonical ?_ h
  · intro _ _ _ _ k
    dsimp only
    split
    · exact k
    · split
      next e1 => exact canonical_snd e1 (readArray_canonical k)
      next e1 => exact ite_of (canonical_snd e1 (readArray_canonical k)) (canonical_snd e1 (readArray_canonical k) :)

theorem copyExec_canonical {s : State} {op : Op} {two : Bool} {f : Full} (h : s.canonical) : (copyExec op two f s).canonical :=
  groupExec_canonical (fun k => ite_of k (ite_of k (ite_of k (foldl_canonical (fun h1 => h1) (writeBackGroup_canonical k))))) h

theorem passCopy_canonical {s : State} {l : List Slice} (h : s.canonical) : (s.passCopy l).canonical :=
  foldl_canonical (fun k => canonical_of_sameBytes (popWaited_mem _ _ _) k) h

theorem copyRoom_canonical {s : State} {cluster : Nat} (h : s.canonical) : (s.copyRoom cluster).2.canonical :=
  ite_snd h (ite_snd h (ite_snd h h))

theorem formCopy_canonical {s : State} {t : Team} {spill lost : Bool} (h : s.canonical) : (s.formCopy t spill lost).canonical :=
  passCopy_canonical h

theorem execCopyForm_lands {s : State} : Lands s (execCopyForm s) := by
  unfold execCopyForm
  split
  · exact id
  · split
    · exact id
    · split
      next e1 => exact fun h => canonical_snd e1 (copyRoom_canonical h)
      next e1 => exact fun h => formCopy_canonical (canonical_snd e1 (copyRoom_canonical h))

theorem settleRing_canonical {s : State} {x : Nat × Bool} (h : s.canonical) : (s.settleRing x).canonical := by
  unfold State.settleRing
  split
  next e =>
    split
    · exact (canonical_snd e h :)
    · exact (canonical_snd e h :)
    · split
      · dsimp only
        split <;> exact (canonical_snd e h :)
      · exact foldl_canonical (fun k => formCopy_canonical k) (canonical_snd e h :)

theorem settleRings_canonical {s : State} (h : s.canonical) : (s.settleRings).canonical :=
  foldl_canonical (fun k => settleRing_canonical k) h

theorem copyRead_canonical {s : State} {c : Copy} {a : Nat} (h : s.canonical) : (s.copyRead c a).canonical := by
  unfold State.copyRead
  split
  · split
    · exact h
    · exact ite_of h (ite_of (ite_of h (ite_of h (engineLoads_canonical h))) (ite_of (askBank_canonical h) (ite_of
        (raiseError_canonical h) (canonical_of_sameBytes (mscTouch_mem _ _ _ _ _) (askBank_canonical h)))))
  · exact ite_of h (ite_of (raiseError_canonical h) h)
  · split
    · exact h
    · split
      next e => exact canonical_snd e (readArray_canonical h)
      next e =>
        exact ite_of (raiseError_canonical (canonical_snd e (readArray_canonical h))) (canonical_snd e (readArray_canonical h))

theorem copyWrite_canonical {s : State} {c : Copy} {a : Nat} {bs : List Byte} (h : s.canonical) : (s.copyWrite c a
    bs).canonical := by
  unfold State.copyWrite
  dsimp only
  split
  · split
    · exact h
    · exact ite_of h (ite_of h (ite_of h (writeAtHome_canonical _ _ h)))
  · exact ite_of h h
  · split
    · exact vaultWrite_canonical _ h
    · exact vaultWrite_canonical _ h

theorem copyWords_canonical {s : State} {id n : Nat} (h : s.canonical) : (s.copyWords id n).canonical := by
  induction n generalizing s with
  | zero => exact h
  | succ n ih =>
    unfold State.copyWords
    split
    · exact h
    · next c _ =>
      have hr (a : Nat) : (s.copyRead c a).canonical := copyRead_canonical h
      dsimp only
      split
      · exact h
      · split
        next e => exact ((congrArg WordEnd.canonical e).mp (hr _))
        next e => exact ((congrArg WordEnd.canonical e).mp (hr _))
        next e => exact (congrArg WordEnd.canonical e).mp (hr _)
        next e => exact (congrArg WordEnd.canonical e).mp (hr _)
        next bs t e =>
          have hw (b : Nat) : (t.copyWrite c b bs).canonical := copyWrite_canonical ((congrArg WordEnd.canonical e).mp (hr _))
          split
          next e1 => exact ((congrArg WordEnd.canonical e1).mp (hw _))
          next e1 => exact ((congrArg WordEnd.canonical e1).mp (hw _))
          next e1 => exact (congrArg WordEnd.canonical e1).mp (hw _)
          next e1 => exact (congrArg WordEnd.canonical e1).mp (hw _)
          next e1 => exact ih ((congrArg WordEnd.canonical e1).mp (hw _))

theorem activate_canonical {s : State} {cluster : Nat} (h : s.canonical) : (s.activate cluster).canonical :=
  foldl_canonical (fun k => k) h

theorem copyTurn_canonical {s : State} {cluster : Nat} (h : s.canonical) : (s.copyTurn cluster).canonical := by
  unfold State.copyTurn
  dsimp only
  split
  · exact copyWords_canonical (activate_canonical h)
  · split
    · exact activate_canonical h
    · exact copyWords_canonical (activate_canonical h)

theorem copyCount_canonical {s : State} {c : Copy} (h : s.canonical) : (s.copyCount c).2.canonical := by
  unfold State.copyCount
  split
  next e => exact ite_snd h (canonical_snd e (addTo_canonical h) :)
  next e => exact ite_snd h (canonical_snd e (addTo_canonical h) :)

theorem unspill_canonical {s : State} {cluster : Nat} (h : s.canonical) : (s.unspill cluster).canonical := by
  unfold State.unspill
  split
  next e =>
    split
    · dsimp only
      split
      · exact h
      · exact ite_canonical h (canonical_snd e h :)
    · dsimp only
      split
      · exact h
      · exact ite_canonical h (canonical_snd e h :)

theorem execCopyEnd_lands {s : State} : Lands s (execCopyEnd s) := by
  unfold execCopyEnd
  split
  · exact id
  · split
    · exact fun h => unspill_canonical h
    · split
      · exact id
      · split
        next e1 => exact fun h => canonical_snd e1 (copyCount_canonical h)
        next e1 =>
          exact fun h => unspill_canonical (foldl_canonical (fun k => k) (ite_canonical (foldl_canonical (fun k =>
              endFill_canonical k) (canonical_snd e1 (copyCount_canonical h))) (canonical_snd e1 (copyCount_canonical h))))

theorem execTreePhaseComplete_lands {s : State} : Lands s (execTreePhaseComplete s) := by
  unfold execTreePhaseComplete
  dsimp only
  split
  · exact id
  · split
    · exact id
    · exact ite_of id (fun h => foldl_canonical (fun k => k) h)

theorem execTreeTagWithdraw_lands {s : State} : Lands s (execTreeTagWithdraw s) := by
  unfold execTreeTagWithdraw
  dsimp only
  split
  · exact fun h => abortLaunch_canonical h
  · exact id

theorem settleVaults_canonical {s : State} (h : s.canonical) : (s.settleVaults).canonical :=
  ite_canonical (foldl_canonical (fun k => ite_canonical k k) h) (releasePins_canonical (foldl_canonical (fun k => ite_canonical
      k k) h))

theorem reencodeErrors_canonical {s : State} {a : Nat} (h : s.canonical) : (s.reencodeErrors a).canonical :=
  foldl_canonical (fun k => raiseError_canonical k) h

theorem execRetentionIdleExpire_lands {s : State} : Lands s (execRetentionIdleExpire s) := by
  unfold execRetentionIdleExpire
  dsimp only
  split
  · exact fun h => ite_canonical h h
  · exact id

theorem execReencodeDone_lands {s : State} : Lands s (execReencodeDone s) := by
  unfold execReencodeDone
  dsimp only
  split
  · exact fun h => ite_canonical h (reencodeErrors_canonical h)
  · exact fun h => ite_canonical h (releasePins_canonical (reencodeErrors_canonical h))
  · exact id

/-! #### Operations of `Machine/Sequencer` -/

theorem seqExec_lands {s : State} {body : State → Team → Sequencer → SeqStep} (hbody : ∀ {a : State} {a_1 : Team}
    {a_2 : Sequencer}, a.canonical → (body a a_1 a_2).canonical) : Lands s (seqExec s body) := by
  unfold seqExec
  dsimp only
  split
  · split
    next e2 => exact fun h => (congrArg SeqStep.canonical e2).mp (hbody h)
    next e2 => exact fun h => (congrArg SeqStep.canonical e2).mp (hbody h)
    · exact id
    next e2 => exact fun h => (congrArg SeqStep.canonical e2).mp (hbody h)
    · exact fun h => haltSeq_canonical (ite_canonical (raiseError_canonical h) h)
  · exact id

theorem execMlda_lands {s : State} {slot : BitVec 2} {a b : BitVec 5} : Lands s (execMlda slot a b s) := by
  unfold execMlda
  refine seqExec_lands ?_
  exact fun h => ite_of trivial (ite_of trivial (ite_of trivial (ite_of trivial (ite_of trivial h))))

theorem execMldb_lands {s : State} {slot : BitVec 2} {a b : BitVec 5} : Lands s (execMldb slot a b s) := by
  unfold execMldb
  refine seqExec_lands ?_
  exact fun h => ite_of trivial (ite_of trivial (ite_of trivial (ite_of trivial (ite_of trivial h))))

theorem execBlockLoadPerformed_lands {s : State} : Lands s (execBlockLoadPerformed s) := by
  unfold execBlockLoadPerformed
  dsimp only
  split
  · split
    · exact id
    · split
      · exact ite_of (fun h => canonical_fold (g := fun x : Bool × State => x.2) (fun _ _ k => readArray_canonical k) h)
          (fun h => haltSeq_canonical (raiseError_canonical (canonical_fold (g := fun x : Bool × State => x.2) (fun _ _ k =>
          readArray_canonical k) h)))
      · exact ite_of (fun h => canonical_fold (g := fun x : Bool × State => x.2) (fun _ _ k => readArray_canonical k) h)
          (fun h => canonical_fold (g := fun x : Bool × State => x.2) (fun _ _ k => readArray_canonical k) h)
  · exact id

theorem execMunpin_lands {s : State} {slot : BitVec 3} : Lands s (execMunpin slot s) := by
  unfold execMunpin
  refine seqExec_lands ?_
  exact fun h => ite_of trivial (releasePins_canonical h)

theorem execMma_lands {s : State} {tl : BitVec 3} {a b : BitVec 2} {ka kb : Bool} : Lands s (execMma tl a b ka kb s) := by
  unfold execMma
  refine seqExec_lands ?_
  exact fun h => ite_of trivial (ite_of trivial (ite_of trivial (ite_of trivial (ite_of trivial (ite_of trivial h)))))

theorem feedArray_canonical {s : State} {core : Nat} (h : s.canonical) : (s.feedArray core).canonical := by
  unfold State.feedArray
  dsimp only
  split
  · exact h
  · split
    · exact h
    · split
      · exact h
      · split <;> exact h

theorem execMmaRetire_lands {s : State} : Lands s (execMmaRetire s) := by
  unfold execMmaRetire
  dsimp only
  split
  · split
    · exact ite_of id (fun h => feedArray_canonical (releasePins_canonical h))
    · exact id
  · exact id

theorem execMzero_lands {s : State} {tl : BitVec 3} : Lands s (execMzero tl s) := by
  unfold execMzero
  refine seqExec_lands ?_
  exact fun h => ite_of trivial h

theorem execMsparse_lands {s : State} {d : BitVec 5} : Lands s (execMsparse d s) := by
  unfold execMsparse
  refine seqExec_lands ?_
  exact fun h => ite_of trivial h

theorem vaultStoreRows_canonical {s : State} {t : Team} {num : Nat} {rows : List (Nat × List Byte)} (h : s.canonical) :
    (s.vaultStoreRows t num rows).canonical :=
  foldl_canonical (fun k => vaultWrite_canonical _ (ite_canonical k k)) h

theorem modSeq_canonical {s : State} {t : Nat} {f : Sequencer → Sequencer} (h : s.canonical) : (s.modSeq t f).canonical := h

theorem storeTile_lands {s : State} {b16 : Bool} {tl xa xb xc : Nat} : Lands s (storeTile s b16 tl xa xb xc) := by
  unfold storeTile
  refine seqExec_lands ?_
  intro _ _ _ h
  refine ite_of trivial (ite_of trivial (ite_of trivial (ite_of trivial (ite_of trivial (ite_of trivial (ite_of trivial ?_))))))
  exact modSeq_canonical (canonical_of_eq (vaultStoreRows_canonical h) rfl rfl)

theorem execMstPerformed_lands {s : State} : Lands s (execMstPerformed s) := by
  unfold execMstPerformed
  dsimp only
  split
  · exact id
  · exact ite_of id (fun h => vaultWrite_canonical _ h)

theorem execMstQ_lands {s : State} {tl : BitVec 3} : Lands s (execMstQ tl s) := by
  unfold execMstQ
  refine seqExec_lands ?_
  · intro _ _ _ h
    split
    · exact trivial
    · split
      · exact trivial
      · split
        · exact trivial
        · split
          · exact trivial
          · exact ite_of (foldl_canonical (fun k => getD_canonical (enginePush_canonical k) k) h) (foldl_canonical (fun k =>
              getD_canonical (enginePush_canonical k) k) h)

theorem execMsetI_lands {s : State} {d : BitVec 5} {sh : BitVec 2} {imm : BitVec 16} : Lands s (execMsetI d sh imm s) := by
  unfold execMsetI
  refine seqExec_lands ?_
  exact fun h => h

theorem execMsetQ_lands {s : State} {d : BitVec 5} : Lands s (execMsetQ d s) := by
  unfold execMsetQ
  refine seqExec_lands ?_
  · intro _ _ _ h
    split
    · exact trivial
    · split
      · exact h
      next e1 => exact (canonical_some_snd e1 (engineTake_canonical h) :)

theorem execMsetR_lands {s : State} {a : BitVec 5} : Lands s (execMsetR a s) := by
  unfold execMsetR
  refine seqExec_lands ?_
  · intro _ _ _ h
    split
    · exact trivial
    · split
      · exact h
      next e1 => exact canonical_some e1 (enginePush_canonical h)

theorem execMaddx_lands {s : State} {d a b : BitVec 5} {imm : BitVec 11} : Lands s (execMaddx d a b imm s) := by
  unfold execMaddx
  refine seqExec_lands ?_
  exact fun h => h

theorem execMloop_lands {s : State} {n : BitVec 5} {o : BitVec 16} : Lands s (execMloop n o s) := by
  unfold execMloop
  refine seqExec_lands ?_
  exact fun h => ite_of trivial (ite_of h h)

theorem execMbraAl_lands {s : State} {o : BitVec 16} : Lands s (execMbraAl o s) := by
  unfold execMbraAl
  refine seqExec_lands ?_
  exact fun h => h

theorem execMbraZ_lands {s : State} {a : BitVec 5} {o : BitVec 16} : Lands s (execMbraZ a o s) := by
  unfold execMbraZ
  refine seqExec_lands ?_
  exact fun h => ite_of h h

theorem execMbraNz_lands {s : State} {a : BitVec 5} {o : BitVec 16} : Lands s (execMbraNz a o s) := by
  unfold execMbraNz
  refine seqExec_lands ?_
  exact fun h => ite_of h h

theorem execMbraStop_lands {s : State} : Lands s (execMbraStop s) := by
  unfold execMbraStop
  refine seqExec_lands ?_
  exact fun h => ite_of trivial h

theorem execMsig_lands {s : State} {b : BitVec 4} {c : BitVec 6} : Lands s (execMsig b c s) := by
  unfold execMsig
  refine seqExec_lands ?_
  exact fun h => ite_of trivial (ite_of trivial (arriveNum_canonical h))

theorem execMwait_lands {s : State} {b : BitVec 4} {c : BitVec 6} : Lands s (execMwait b c s) := by
  unfold execMwait
  refine seqExec_lands ?_
  exact fun h => ite_of trivial (ite_of trivial (ite_canonical h (arriveNum_canonical h)))

/-! #### Operations of `Machine/Texture` -/

theorem loadTexels_canonical {s : State} {g : Group} {i size : Nat} {addrs : List Nat} (h : s.canonical) : (s.loadTexels g i
    size addrs).canonical := by
  unfold State.loadTexels
  dsimp only
  split
  · refine canonical_fold (g := fun x : List (Nat × Nat) × List (Nat × Trap) × Bool × State => x.2.2.2) ?_ h
    · intro _ _ k
      split
      next e1 => exact (congrArg Loaded.canonical e1).mp (load_canonical k)
      next e1 => exact (congrArg Loaded.canonical e1).mp (load_canonical k)
      next e1 => exact (congrArg Loaded.canonical e1).mp (load_canonical k)
  · refine ite_of (canonical_fold (g := fun x : List (Nat × Nat) × List (Nat × Trap) × Bool × State => x.2.2.2) ?_ h)
      (canonical_fold (g := fun x : List (Nat × Nat) × List (Nat × Trap) × Bool × State => x.2.2.2) ?_ h)
    · intro _ _ k
      split
      next e1 => exact (congrArg Loaded.canonical e1).mp (load_canonical k)
      next e1 => exact (congrArg Loaded.canonical e1).mp (load_canonical k)
      next e1 => exact (congrArg Loaded.canonical e1).mp (load_canonical k)
    · intro _ _ k
      split
      next e1 => exact (congrArg Loaded.canonical e1).mp (load_canonical k)
      next e1 => exact (congrArg Loaded.canonical e1).mp (load_canonical k)
      next e1 => exact (congrArg Loaded.canonical e1).mp (load_canonical k)

theorem descriptor_canonical {s : State} {g : Group} {i n : Nat} {kindOk : Nat → Bool} (h : s.canonical) : (s.descriptor g i n
    kindOk).canonical := by
  unfold State.descriptor
  dsimp only
  split
  · exact h
  · split
    next e => exact (congrArg Loaded.canonical e).mp (load_canonical h)
    next e => exact (congrArg Loaded.canonical e).mp (load_canonical h)
    next e =>
      split
      · exact (congrArg Loaded.canonical e).mp (load_canonical h)
      · exact ite_of ((congrArg Loaded.canonical e).mp (load_canonical h)) ((congrArg Loaded.canonical e).mp (load_canonical h))

theorem texExec_canonical {s : State} {op : Op} {o : TexOp} {f : Full} {n : Nat} {lams : Group → Nat → List W32} (h :
    s.canonical) : (texExec op o f s n lams).canonical := by
  unfold texExec
  refine laneExec_canonical ?_ h
  · intro _ _ _ _ k
    split
    next e => exact (congrArg Descr.canonical e).mp (descriptor_canonical k)
    next e => exact (congrArg Descr.canonical e).mp (descriptor_canonical k)
    next e =>
      split
      · dsimp only
        split
        next e1 =>
          exact (congrArg Texels.canonical e1).mp (loadTexels_canonical ((congrArg Descr.canonical e).mp (descriptor_canonical
              k)))
        next e1 =>
          exact (congrArg Texels.canonical e1).mp (loadTexels_canonical ((congrArg Descr.canonical e).mp (descriptor_canonical
              k)))
        next e1 =>
          exact (congrArg Texels.canonical e1).mp (loadTexels_canonical ((congrArg Descr.canonical e).mp (descriptor_canonical
              k)))
      · dsimp only
        split
        next e1 =>
          exact (congrArg Texels.canonical e1).mp (loadTexels_canonical ((congrArg Descr.canonical e).mp (descriptor_canonical
              k)))
        next e1 =>
          exact (congrArg Texels.canonical e1).mp (loadTexels_canonical ((congrArg Descr.canonical e).mp (descriptor_canonical
              k)))
        next e1 =>
          exact (congrArg Texels.canonical e1).mp (loadTexels_canonical ((congrArg Descr.canonical e).mp (descriptor_canonical
              k)))
      · dsimp only
        split
        next e1 =>
          exact (congrArg Texels.canonical e1).mp (loadTexels_canonical ((congrArg Descr.canonical e).mp (descriptor_canonical
              k)))
        next e1 =>
          exact (congrArg Texels.canonical e1).mp (loadTexels_canonical ((congrArg Descr.canonical e).mp (descriptor_canonical
              k)))
        next e1 =>
          exact finishAlu_canonical ((congrArg Texels.canonical e1).mp (loadTexels_canonical ((congrArg Descr.canonical e).mp
              (descriptor_canonical k))))

theorem execTqry_lands {s : State} {f : Full} : Lands s (execTqry f s) := by
  unfold execTqry
  refine fun h => laneExec_canonical ?_ h
  · intro _ _ _ _ k
    split
    next e => exact (congrArg Descr.canonical e).mp (descriptor_canonical k)
    next e => exact (congrArg Descr.canonical e).mp (descriptor_canonical k)
    next e => exact finishAlu_canonical ((congrArg Descr.canonical e).mp (descriptor_canonical k))

theorem unitRead_canonical {s : State} {t : Team} {a n : Nat} {descr : Bool} (h : s.canonical) : (s.unitRead t a n
    descr).canonical := by
  unfold State.unitRead
  split
  · dsimp only
    split
    · exact useTlb_canonical h
    · split
      · exact loadGlobal_canonical (useTlb_canonical h)
      · split
        · exact useTlb_canonical h
        · split
          · exact askBank_canonical (useTlb_canonical h)
          · split
            · exact raiseError_canonical (useTlb_canonical h)
            · split
              · exact ite_of (useTlb_canonical h) (useTlb_canonical h)
              · exact loadGlobal_canonical (askBank_canonical (useTlb_canonical h))
  · dsimp only
    split
    · exact useTlb_canonical h
    · split
      · exact loadGlobal_canonical (useTlb_canonical h)
      · split
        · exact useTlb_canonical h
        · split
          · exact askBank_canonical (useTlb_canonical h)
          · split
            · exact raiseError_canonical (useTlb_canonical h)
            · split
              · exact ite_of (useTlb_canonical h) (useTlb_canonical h)
              · exact loadGlobal_canonical (askBank_canonical (useTlb_canonical h))

theorem unitReads_canonical {s : State} {t : Team} {n : Nat} {addrs : List Nat} (h : s.canonical) : (s.unitReads t n
    addrs).2.2.2.canonical := by
  unfold State.unitReads
  refine canonical_fold (g := fun x : List (Nat × Nat) × Option (Nat × Nat × Bool) × Bool × State => x.2.2.2) ?_ h
  · intro _ _ k
    split
    next e => exact (congrArg UnitRead.canonical e).mp (unitRead_canonical k)
    next e => exact (congrArg UnitRead.canonical e).mp (unitRead_canonical k)
    next e => exact (congrArg UnitRead.canonical e).mp (unitRead_canonical k)

theorem writeRecord_canonical {s : State} {q : TexReq} {vals : List Nat} {stat : W64} (h : s.canonical) : (s.writeRecord q vals
    stat).canonical :=
  endFill_canonical h

theorem serveTex_canonical {s : State} {t : Team} {q : TexReq} (h : s.canonical) : (s.serveTex t q).canonical := by
  unfold State.serveTex
  refine ite_of (writeRecord_canonical h) (ite_of (writeRecord_canonical h) ?_)
  split
  next e => exact (congrArg UnitRead.canonical e).mp (unitRead_canonical h)
  next e => exact ((congrArg UnitRead.canonical e).mp (unitRead_canonical h))
  next v t e =>
    have ht : t.canonical := (congrArg UnitRead.canonical e).mp (unitRead_canonical h)
    split
    · exact writeRecord_canonical ht
    · refine ite_of (writeRecord_canonical ht) ?_
      dsimp only
      split
      next e1 => exact (congrArg (fun x => x.2.2.2.canonical) e1 |>.mp (unitReads_canonical ht))
      next e1 => exact congrArg (fun x => x.2.2.2.canonical) e1 |>.mp (unitReads_canonical ht)
      next e1 => exact writeRecord_canonical (congrArg (fun x => x.2.2.2.canonical) e1 |>.mp (unitReads_canonical ht))

theorem finishTex_canonical {s : State} {t : Team} {q : TexReq} {stat : W64} (h : s.canonical) : (s.finishTex t q
    stat).canonical := by
  unfold State.finishTex
  split
  · exact engineDone_canonical h
  · dsimp only
    split
    · exact h
    next e1 => exact engineDone_canonical (canonical_some e1 (enginePush_canonical h) :)

theorem execTextureRequestServe_lands {s : State} : Lands s (execTextureRequestServe s) := by
  unfold execTextureRequestServe
  split
  · exact id
  · split
    · dsimp only
      split
      · exact id
      · split
        · exact id
        · split
          · split
            · exact fun h => finishTex_canonical (ite_canonical (serveTex_canonical h) h)
            · exact fun h => ite_canonical (serveTex_canonical h) h
          · exact fun h => ite_canonical (serveTex_canonical h) h
    · split
      · dsimp only
        split
        · exact id
        · split
          · exact id
          · split
            · split
              · exact fun h => finishTex_canonical (ite_canonical (serveTex_canonical h) h)
              · exact fun h => ite_canonical (serveTex_canonical h) h
            · exact fun h => ite_canonical (serveTex_canonical h) h
      · split
        · dsimp only
          split
          · exact id
          · split
            · exact id
            · split
              · split
                · exact fun h => finishTex_canonical (ite_canonical (serveTex_canonical h) h)
                · exact fun h => ite_canonical (serveTex_canonical h) h
              · exact fun h => ite_canonical (serveTex_canonical h) h
        next e2 =>
          dsimp only
          split
          · exact fun h => (canonical_some_snd e2 (engineTake_canonical h) :)
          · split
            · exact fun h => (canonical_some_snd e2 (engineTake_canonical h) :)
            · split
              · split
                · exact fun h => finishTex_canonical (ite_canonical (serveTex_canonical (canonical_some_snd e2
                    (engineTake_canonical h) :)) (canonical_some_snd e2 (engineTake_canonical h) :))
                · exact fun h => ite_canonical (serveTex_canonical (canonical_some_snd e2 (engineTake_canonical h) :))
                    (canonical_some_snd e2 (engineTake_canonical h) :)
              · exact fun h => ite_canonical (serveTex_canonical (canonical_some_snd e2 (engineTake_canonical h) :))
                  (canonical_some_snd e2 (engineTake_canonical h) :)

/-! #### Operations of `Machine/Camera` -/

theorem tenantWrite_canonical {s : State} {tenant a : Nat} {bs : List Byte} {origin : Nat} (h : s.canonical) :
    (s.tenantWrite tenant a bs origin).2.canonical := by
  unfold State.tenantWrite
  split
  · exact h
  · exact canonical_fold (g := fun x : State × List Byte => x.1) (fun _ _ k => engineWrite_canonical _ _ _ _ k) h

theorem execFsplatW_lands {s : State} {f : Full} : Lands s (execFsplatW f s) := by
  unfold execFsplatW
  refine fun h => laneExec_canonical ?_ h
  exact fun k => ite_of trivial (ite_of trivial (ite_of k k))

theorem execSplatApply_lands {s : State} : Lands s (execSplatApply s) := by
  unfold execSplatApply
  split
  · exact id
  · exact fun h => engineDone_canonical (canonical_of_sameBytes (complete_mem _ _ _) h)

theorem dropSplat_canonical {s : State} {cam : Nat} (h : s.canonical) : (s.dropSplat cam).canonical := by
  unfold State.dropSplat
  split <;> exact h

theorem execSplatPortEntry_lands {s : State} : Lands s (execSplatPortEntry s) := by
  unfold execSplatPortEntry
  dsimp only
  split
  · exact id
  · split
    · exact id
    next e1 =>
      split
      · exact ite_of (fun h => (canonical_some_snd e1 (engineTake_canonical h) :)) (ite_of (fun h => engineDone_canonical
          (dropSplat_canonical (canonical_some_snd e1 (engineTake_canonical h) :))) (fun h => (canonical_some_snd e1
          (engineTake_canonical h) :)))
      · exact fun h => canonical_some_snd e1 (engineTake_canonical h)

theorem execFrameClose_lands {s : State} : Lands s (execFrameClose s) := by
  unfold execFrameClose
  split
  · exact id
  · dsimp only
    exact ite_of id (ite_of id (fun h => tenantWrite_canonical h))

theorem push_canonical {s : State} {l : List Work} (h : s.canonical) : (s.push l).canonical := h

theorem retireSr_canonical {s : State} (h : s.canonical) : s.retireSr.canonical := h

theorem postpone_canonical {s : State} (h : s.canonical) : s.postpone.canonical := h

theorem settleHeld_canonical {s : State} (h : s.canonical) : s.settleHeld.canonical := h

theorem modCamera_canonical {s : State} {n : Nat} {f : Camera → Camera} (h : s.canonical) : (s.modCamera n f).canonical := h

theorem modEhp_canonical {s : State} {n : Nat} {f : Ehps → Ehps} (h : s.canonical) : (s.modEhp n f).canonical := h

theorem spdmReply_canonical {s : State} {code : Nat} {bs : List Byte} (h : s.canonical) : (s.spdmReply code bs).canonical := h

theorem execFoldEnd_lands {s : State} : Lands s (execFoldEnd s) := by
  unfold execFoldEnd
  split
  · exact id
  · split
    · exact id
    · refine ite_of id ?_
      dsimp only
      split
      · exact fun h => modCamera_canonical (tenantWrite_canonical h)
      · exact fun h => push_canonical (homeLoads_canonical (modCamera_canonical (tenantWrite_canonical h)))

theorem ringWrite_canonical {s : State} {x : Session} {off : Nat} {bs : List Byte} (h : s.canonical) : (s.ringWrite x off
    bs).canonical := by
  unfold State.ringWrite
  dsimp only
  exact ite_canonical (tenantWrite_canonical h) (tenantWrite_canonical (tenantWrite_canonical h))

theorem encodeFrame_canonical {s : State} {x : Session} (h : s.canonical) : (s.encodeFrame x).canonical :=
  ite_canonical (homeLoads_canonical h) (ringWrite_canonical (homeLoads_canonical h))

theorem publishRing_canonical {s : State} {x : Session} (h : s.canonical) : (s.publishRing x).canonical :=
  foldl_canonical (fun k => tenantWrite_canonical k) h

theorem openRingOf_canonical {s : State} {x : Session} (h : s.canonical) : (s.openRingOf x).canonical := by
  unfold State.openRingOf
  split
  next e => exact tenantWrite_canonical (canonical_snd e (tenantWrite_canonical h))

theorem execEncLineTake_lands {s : State} : Lands s (execEncLineTake s) := by
  unfold execEncLineTake
  split
  · exact id
  · dsimp only
    split
    · exact fun h => publishRing_canonical h
    · split
      · exact fun h => publishRing_canonical h
      next e2 =>
        split
        · exact fun h => ite_canonical (encodeFrame_canonical (canonical_some_snd e2 (engineTake_canonical
            (publishRing_canonical h)) :)) (canonical_some_snd e2 (engineTake_canonical (publishRing_canonical h)) :)
        · exact fun h => (canonical_some_snd e2 (engineTake_canonical (publishRing_canonical h)) :)

/-! #### Operations of `Machine/Placing` -/

theorem placeTeam_canonical {s : State} {l : Launch} {num core : Nat} {sp : Spot} {tag : Option Nat} (h : s.canonical) :
    (s.placeTeam l num core sp tag).canonical :=
  foldl_canonical (fun k => k) h

theorem coresAwake_canonical {s : State} {l : List Nat} (h : s.canonical) : (s.coresAwake l).2.canonical := by
  unfold State.coresAwake
  refine canonical_fold (g := fun x : Bool × State => x.2) ?_ h
  · intro _ _ k
    split
    next e => exact (canonical_snd e (canonical_of_sameBytes (wakeArray_mem _ _) k) :)

theorem placeNext_canonical {s : State} {l : Launch} {closed : List Nat} (h : s.canonical) :
    Holds State.canonical (s.placeNext l closed) := by
  unfold State.placeNext
  extract_lets e wantsTag grid
  have hg : Holds (fun x => x.2.canonical) grid := by
    refine ite_of h ?_
    split
    · exact h
    · split <;> first | exact h | trivial
  split
  next eg _ =>
    have hs := canonical_some_snd eg hg
    extract_lets own
    have ho : Holds (fun x => x.2.canonical) own := by
      refine ite_of hs ?_
      split <;> first | exact hs | trivial
    clear_value own
    split
    · trivial
    next =>
      split
      · exact coresAwake_canonical hs
      next ec => exact foldl_canonical (fun k => placeTeam_canonical k) (canonical_snd ec (coresAwake_canonical ho))
  · trivial

/-! #### Operations of `Machine/Preempt` -/

theorem saveTeam_canonical {s : State} {t : Team} (h : s.canonical) : (s.saveTeam t).canonical := by
  unfold State.saveTeam
  split <;> exact releasePins_canonical (canonical_fold (g := fun x : List Group × State => x.2) (fun _ _ k => k) h)

theorem stopGroup_canonical {s : State} {gid : Nat} (h : s.canonical) : (s.stopGroup gid).canonical :=
  writeBackGroup_canonical (txAbort_canonical h)

theorem drainTeam_canonical {s : State} {id : Nat} (h : s.canonical) : (s.drainTeam id).canonical := by
  unfold State.drainTeam
  split
  · exact h
  · exact ite_canonical (saveTeam_canonical (ite_canonical (releasePins_canonical h) h)) (ite_canonical (releasePins_canonical
      h) h)

theorem execGroupPreempt_lands {s : State} : Lands s (execGroupPreempt s) := by
  unfold execGroupPreempt
  split
  · exact id
  · split
    · exact id
    · exact fun h => drainTeam_canonical (foldl_canonical (fun k => stopGroup_canonical k) h)

theorem restoreTeam_canonical {s : State} {v : Saved} {core : Nat} {sp : Spot} (h : s.canonical) : (s.restoreTeam v core
    sp).canonical :=
  foldl_canonical (fun k => k) h

theorem restoreUnit_canonical {s : State} {l : Launch} {v : Saved} {closed : List Nat} (h : s.canonical) : Holds State.canonical
    (s.restoreUnit l v closed) := by
  unfold State.restoreUnit
  split
  · exact trivial
  · dsimp only
    split
    · exact abortLaunch_canonical h
    · split
      · exact trivial
      · split
        next e1 => exact canonical_snd e1 (coresAwake_canonical h)
        next e1 => exact foldl_canonical (fun k => restoreTeam_canonical k) (canonical_snd e1 (coresAwake_canonical h))

theorem execGroupRestore_lands {s : State} : Lands s (execGroupRestore s) := by
  unfold execGroupRestore
  split
  · exact id
  · split
    · exact id
    · exact fun h => getD_canonical (restoreUnit_canonical h) h

theorem serve_canonical {s : State} {x : Launch × Option Nat} (h : s.canonical) : Holds State.canonical (s.serve x) := by
  unfold State.serve
  split
  · exact restoreUnit_canonical h
  · exact ite_of trivial (placeNext_canonical h)

theorem serveFirst_canonical {s : State} {l : List (Launch × Option Nat)} (h : s.canonical) : (s.serveFirst l).canonical := by
  induction l with
  | nil => exact h
  | cons x r ih =>
    unfold State.serveFirst
    refine ite_of h ?_
    split
    next e => exact (canonical_some e (serve_canonical h) :)
    · exact ih

theorem formFirst_canonical {s : State} {l : List BinCand} {no : List Nat} (h : s.canonical) : (s.formFirst l no).canonical :=
    by
  induction l generalizing no with
  | nil => exact h
  | cons c r ih =>
    unfold State.formFirst
    refine ite_of ih (ite_of h ?_)
    split
    · exact ih
    · split
      next e => exact canonical_snd e (coresAwake_canonical h)
      next e => exact (canonical_snd e (coresAwake_canonical h) :)

theorem rescue_canonical {s : State} {l : Launch} (h : s.canonical) : (s.rescue l).canonical := by
  unfold State.rescue
  split <;> exact h

theorem applyHints_canonical {s : State} (h : s.canonical) : (s.applyHints).canonical :=
  ite_canonical h h

/-! #### Operations of `Machine/Frames` -/

theorem mapDemand_canonical {s : State} {tenant a : Nat} (h : s.canonical) : (s.mapDemand tenant a).2.canonical := by
  unfold State.mapDemand
  split
  · exact h
  · split
    next e => split <;> exact (canonical_snd e h :)

theorem demandRange_canonical {s : State} {tenant a n : Nat} (h : s.canonical) : (s.demandRange tenant a n).canonical :=
  foldl_canonical (fun k => ite_canonical (mapDemand_canonical k) k) h

theorem readPieces_canonical {s : State} {ps : List (Nat × Nat)} (h : s.canonical) : (s.readPieces ps).2.canonical :=
  canonical_fold (g := fun x : List Byte × State => x.2) (fun _ _ k => ite_snd k (engineLoads_canonical k)) h

theorem tenantRead_canonical {s : State} {tenant a n : Nat} (h : s.canonical) : (s.tenantRead tenant a n).2.canonical := by
  unfold State.tenantRead
  dsimp only
  split
  · exact demandRange_canonical h
  · exact readPieces_canonical (demandRange_canonical h)

theorem textRead_canonical {s : State} {tenant a n : Nat} (h : s.canonical) : (s.textRead tenant a n).2.canonical := by
  unfold State.textRead
  split
  · exact h
  · exact canonical_fold (g := fun x : List Byte × State => x.2) (fun _ _ k => ite_snd k (engineLoads_canonical k)) h

/-! #### Operations of `Machine/Launching` -/

theorem checkLaunch_canonical {s : State} {tenant : Nat} {d : LaunchDesc} (h : s.canonical) : (s.checkLaunch tenant
    d).2.canonical := by
  unfold State.checkLaunch
  split
  next e =>
    split
    · exact (canonical_snd e (tenantRead_canonical h) :)
    · split
      next e1 =>
        split <;> exact ite_snd (canonical_snd e (tenantRead_canonical h) :) (canonical_snd e1 (ite_snd (canonical_snd e
            (tenantRead_canonical h) :) (tenantRead_canonical (canonical_snd e (tenantRead_canonical h)))) :)

theorem addLaunch_canonical {s : State} {l : Launch} {queue : Nat} (h : s.canonical) : (s.addLaunch l queue).canonical :=
  ite_canonical h h

theorem openRing_canonical {s : State} {l : Launch} {recs : List Record} (h : s.canonical) : (s.openRing l recs).canonical := by
  unfold State.openRing
  split
  · exact h
  · dsimp only
    split <;> exact foldl_canonical (fun k => pushRecord_canonical k) h

theorem takeLaunch_canonical {s : State} {tenant queue : Nat} {bs : List Byte} (h : s.canonical) : (s.takeLaunch tenant queue
    bs).2.canonical := by
  unfold State.takeLaunch
  dsimp only
  exact ite_canonical (openRing_canonical (addLaunch_canonical (checkLaunch_canonical h))) (addLaunch_canonical
      (checkLaunch_canonical h))

theorem execLaunchTake_lands {s : State} : Lands s (execLaunchTake s) := by
  unfold execLaunchTake
  dsimp only
  split
  · split <;> exact fun h => takeLaunch_canonical h
  · split
    · exact id
    · split
      · exact fun h => tenantRead_canonical h
      · exact fun h => takeLaunch_canonical (tenantRead_canonical h)

theorem execPoolRecordBin_lands {s : State} : Lands s (execPoolRecordBin s) := by
  unfold execPoolRecordBin
  dsimp only
  split
  · exact id
  · split
    · exact id
    · split
      · exact fun h => abortLaunch_canonical h
      · split <;> exact id

theorem writeCompletion_canonical {s : State} {l : Launch} (h : s.canonical) : (s.writeCompletion l).canonical := by
  unfold State.writeCompletion
  split
  next e => exact (canonical_snd e (tenantWrite_canonical h) :)
  next e => exact (canonical_snd e (tenantWrite_canonical h) :)

theorem raiseSignal_canonical {s : State} {l : Launch} (h : s.canonical) : (s.raiseSignal l).canonical := by
  unfold State.raiseSignal
  split
  · exact h
  · split
    · exact h
    · exact writeAtHome_canonical _ _ h

theorem endConsumer_canonical {s : State} {l : Launch} (h : s.canonical) : (s.endConsumer l).canonical := by
  unfold State.endConsumer
  split <;> exact h

theorem completeLaunch_canonical {s : State} {l : Launch} (h : s.canonical) : (s.completeLaunch l).canonical := by
  unfold State.completeLaunch
  split
  · exact h
  · split
    · exact h
    · split
      · exact h
      · split
        · exact ite_canonical h (writeCompletion_canonical (endConsumer_canonical h))
        · exact writeCompletion_canonical h
        · exact ite_canonical h (raiseSignal_canonical h)
        · exact h

theorem execLaunchComplete_lands {s : State} : Lands s (execLaunchComplete s) := by
  unfold execLaunchComplete
  split
  · exact id
  · exact fun h => completeLaunch_canonical h

theorem takeDeferred_canonical {s : State} {l : Launch} (h : s.canonical) : (s.takeDeferred l).canonical := by
  unfold State.takeDeferred
  split
  · exact h
  · dsimp only
    split
    next e => exact (canonical_snd e (tenantRead_canonical h) :)
    next e => exact openRing_canonical (canonical_snd e (tenantRead_canonical h))

theorem execConsumerDeferredTake_lands {s : State} : Lands s (execConsumerDeferredTake s) := by
  unfold execConsumerDeferredTake
  split
  · exact id
  · exact fun h => ite_canonical h (takeDeferred_canonical h)

/-! #### Operations of `Machine/Conjunction` -/

theorem placeSplice_canonical {s : State} {tenant : Nat} {items : List Emitted} (h : s.canonical) :
    (s.placeSplice tenant items).2.canonical := by
  unfold State.placeSplice
  dsimp only
  split
  · exact h
  · exact ⟨Memory.wf_setBytes _ _ h.1, h.2⟩

theorem member_canonical {s : State} {tenant : Nat} {d : LaunchDesc} {k : Kernel} (h : s.canonical) : (s.member tenant d
    k).2.canonical := by
  unfold State.member
  split
  next e => exact (canonical_snd e (textRead_canonical h) :)

theorem takeMembers_canonical {s : State} {tenant queue pflags : Nat} {transient : W64} {dp dc : LaunchDesc} {kp kc : Kernel}
    {rp : List Record} (h : s.canonical) : (s.takeMembers tenant queue pflags transient dp dc kp kc rp).canonical := by
  unfold State.takeMembers
  split
  next e =>
    split
    next e1 =>
      split
      next e2 =>
        split
        next e3 =>
          split
          · exact openRing_canonical (addLaunch_canonical (addLaunch_canonical (canonical_snd e3 (canonical_snd e2
              (canonical_snd e1 (member_canonical (canonical_snd e (member_canonical h))) :) :))))
          · dsimp only
            split
            next e5 =>
              exact openRing_canonical (addLaunch_canonical (addLaunch_canonical (canonical_snd e5 (placeSplice_canonical
                  (canonical_snd e3 (canonical_snd e2 (canonical_snd e1 (member_canonical (canonical_snd e (member_canonical
                  h))) :) :))))))
            next e5 =>
              exact addLaunch_canonical (addLaunch_canonical (canonical_snd e5 (placeSplice_canonical (canonical_snd e3
                  (canonical_snd e2 (canonical_snd e1 (member_canonical (canonical_snd e (member_canonical h))) :) :)))))

theorem takePair_canonical {s : State} {tenant queue : Nat} {pr pb cb : List Byte} (h : s.canonical) :
    (s.takePair tenant queue pr pb cb).canonical := by
  have hc : ((s.checkLaunch tenant (LaunchDesc.ofBytes pb)).2.checkLaunch tenant (LaunchDesc.ofBytes cb)).2.canonical :=
    checkLaunch_canonical (checkLaunch_canonical h)
  unfold State.takePair
  refine ite_of (addLaunch_canonical (addLaunch_canonical hc)) ?_
  split
  · exact takeMembers_canonical hc
  · exact addLaunch_canonical (addLaunch_canonical hc)

theorem execPairTake_lands {s : State} : Lands s (execPairTake s) := by
  unfold execPairTake
  dsimp only
  split
  · exact fun h => tenantRead_canonical h
  · split
    · exact ite_of (fun h => tenantRead_canonical (tenantRead_canonical (tenantRead_canonical h))) (fun h => takePair_canonical
        (tenantRead_canonical (tenantRead_canonical (tenantRead_canonical h))))
    · exact fun h => tenantRead_canonical (tenantRead_canonical (tenantRead_canonical h))

/-! #### Operations of `Machine/CoreEvents` -/

theorem execLongLatencyRetire_lands {s : State} : Lands s (execLongLatencyRetire s) := by
  unfold execLongLatencyRetire
  dsimp only
  split
  · exact id
  · split
    · exact fun h => takeTrap_canonical h
    · exact ite_of id (ite_of (fun h => ite_canonical h h) (fun h => pushQueue_canonical h))

theorem releaseTx_canonical {s : State} {gid : Nat} (h : s.canonical) : (s.releaseTx gid).canonical :=
  foldl_canonical (fun k => releaseHold_canonical _ k) h

theorem execTxAbortResume_lands {s : State} : Lands s (execTxAbortResume s) := by
  unfold execTxAbortResume
  split
  · exact fun h => txAbort_canonical h
  · exact id

theorem execPageWalk_lands {s : State} : Lands s (execPageWalk s) := by
  unfold execPageWalk
  split <;> exact id

theorem execTlbInvalidate_lands {s : State} : Lands s (execTlbInvalidate s) := by
  unfold execTlbInvalidate
  dsimp only
  split
  · exact id
  · exact ite_of (fun h => foldl_canonical (fun k => writeBack_canonical k) h) (fun h => foldl_canonical (fun k =>
      writeBack_canonical k) h)

theorem drift_canonical {s : State} (h : s.canonical) : (s.drift).canonical := by
  unfold State.drift
  split
  next e =>
    split
    · exact (canonical_snd e h :)
    · exact ite_canonical (canonical_snd e h :) (canonical_snd e h)
    · exact ite_canonical (canonical_snd e h) (canonical_snd e h :)
    · exact (canonical_snd e h :)

theorem tick_canonical {s : State} (h : s.canonical) : (s.tick).canonical := by
  unfold State.tick
  split
  next e =>
    exact ite_canonical (canonical_snd e (ite_snd h h)) (ite_canonical (canonical_snd e (ite_snd h h) :) (drift_canonical
        (canonical_snd e (ite_snd h h))))

theorem setTime_canonical {s : State} {st : TimeState} (h : s.canonical) : (s.setTime st).canonical :=
  ite_canonical (canonical_of_sameBytes (report_mem _ _) (ite_canonical (foldl_canonical (fun k => writeBack_canonical k) h) h))
      (ite_canonical (foldl_canonical (fun k => writeBack_canonical k) h) h)

/-! #### Operations of `Machine/RowSteps` -/

theorem rowLane_canonical {s : State} {op : Op} {f : Full} {cmd : Nat} {g : Group} {got : List (Nat × W64)} {i : Nat} (h :
    s.canonical) : (rowLane op f cmd s g got i).canonical := by
  unfold rowLane
  split
  next e => exact (congrArg Loaded.canonical e).mp (load_canonical h)
  next e => exact (congrArg Loaded.canonical e).mp (load_canonical h)
  next e => exact (congrArg Loaded.canonical e).mp (load_canonical h)

theorem rowExec_canonical {s : State} {op : Op} {cmd : Nat} {f : Full} (h : s.canonical) : (rowExec op cmd f s).canonical :=
  laneExec_canonical (fun k => rowLane_canonical k) h

theorem execRowWait_lands {s : State} {f : Full} : Lands s (execRowWait f s) := by
  unfold execRowWait
  refine fun h => laneExec_canonical ?_ h
  · intro _ _ _ _ k
    split
    · exact k
    · exact ite_canonical k k

theorem execStepOpen_lands {s : State} : Lands s (execStepOpen s) := by
  unfold execStepOpen
  split
  · exact id
  · split
    · exact fun h => rowEcc_canonical (rowDone_canonical h)
    · split
      · exact fun h => runStep_canonical (rowReads_canonical h)
      · exact fun h => runStep_canonical h

theorem macRun_canonical {s : State} {own : Bool} {v : BitVec 3} {c0 : BitVec 6} {n : BitVec 5} (h : s.canonical) : (macRun own
    v c0 n s).canonical :=
  runStep_canonical h

theorem execRowCmdEnter_lands {s : State} : Lands s (execRowCmdEnter s) := by
  unfold execRowCmdEnter
  dsimp only
  split
  · split
    · exact fun h => ite_canonical (startRow_canonical (ite_canonical h h)) (ite_canonical h h)
    · exact fun h => ite_canonical (startRow_canonical h) h
  · split
    · exact fun h => ite_canonical h h
    · exact id

theorem execRowStep_lands {s : State} : Lands s (execRowStep s) := by
  unfold execRowStep
  split
  · exact fun h => ite_canonical h (ite_canonical (rowStepOver_canonical h) (rowWork_canonical h))
  · exact id

theorem execRowSlotEnd_lands {s : State} : Lands s (execRowSlotEnd s) := by
  unfold execRowSlotEnd
  split
  · split
    · exact fun h => ite_canonical (rowResume_canonical h) h
    · exact id
  · exact id

theorem execRowRefreshDone_lands {s : State} : Lands s (execRowRefreshDone s) := by
  unfold execRowRefreshDone
  split
  · exact fun h => ite_canonical (rowResume_canonical h) h
  · exact id

theorem portRead_canonical {s : State} {c : RowCmd} {va : Nat} (h : s.canonical) : (s.portRead c va).2.canonical := by
  unfold State.portRead
  split
  · exact h
  · split
    · exact ite_snd h (engineLoads_canonical h)
    · split
      · exact rowEcc_canonical h
      · exact engineLoads_canonical h

theorem execRowCmdPortTake_lands {s : State} : Lands s (execRowCmdPortTake s) := by
  unfold execRowCmdPortTake
  dsimp only
  split
  · exact id
  · split
    · exact id
    next e1 =>
      split
      next e2 => exact fun h => (canonical_snd e2 (portRead_canonical (canonical_some_snd e1 (engineTake_canonical h) :)) :)
      next e2 => exact fun h => (canonical_snd e2 (portRead_canonical (canonical_some_snd e1 (engineTake_canonical h) :)) :)

/-! #### Operations of `Machine/Firmware` -/

theorem unhandled_canonical {s : State} {g : Group} (h : s.canonical) : (s.unhandled g).canonical := by
  unfold State.unhandled
  split
  · exact h
  · split
    · exact h
    · exact ite_canonical (abortLaunch_canonical h) (abortLaunch_canonical h)

theorem resolvePage_canonical {s : State} {tenant a : Nat} (h : s.canonical) : (s.resolvePage tenant a).2.canonical :=
  ite_snd h (ite_snd (mapDemand_canonical h) h)

theorem resolveAccess_canonical {s : State} {tenant a : Nat} {write : Bool} (h : s.canonical) : (s.resolveAccess tenant a
    write).2.canonical := by
  unfold State.resolveAccess
  split
  · split
    next e1 =>
      dsimp only
      split
      · exact h
      · split
        · exact h
        · split <;> exact (canonical_snd e1 (mapDemand_canonical h) :)
  · split
    next e =>
      dsimp only
      split
      · exact h
      · split
        · exact h
        · split <;> exact (canonical_snd e (mapDemand_canonical h) :)

theorem imageOf_canonical {s : State} {g : Group} (h : s.canonical) : (s.imageOf g).2.canonical :=
  ite_snd h h

theorem resolveGroup_canonical {s : State} {g : Group} (h : s.canonical) : (s.resolveGroup g).canonical := by
  unfold State.resolveGroup
  split
  · split
    next e1 => exact (canonical_snd e1 (resolvePage_canonical h) :)
    next e1 => exact unhandled_canonical (canonical_snd e1 (resolvePage_canonical h))
  · split
    · exact ite_canonical (ite_canonical h h) (unhandled_canonical h)
    · split
      · exact unhandled_canonical h
      · split
        next e1 => exact canonical_of_sameBytes (sendEvent_mem _ _ _) (canonical_snd e1 (imageOf_canonical h))

theorem resolveRecord_canonical {s : State} {l : Launch} {signal : Bool} (h : s.canonical) : (s.resolveRecord l
    signal).canonical := by
  unfold State.resolveRecord
  split
  · dsimp only
    split
    next e1 => exact (canonical_snd e1 (resolveAccess_canonical h) :)
    next e1 => exact canonical_of_sameBytes (report_mem _ _) (canonical_snd e1 (resolveAccess_canonical h))
  · dsimp only
    split
    next e => exact (canonical_snd e (resolveAccess_canonical h) :)
    next e => exact canonical_of_sameBytes (report_mem _ _) (canonical_snd e (resolveAccess_canonical h))

theorem resolveEntry_canonical {s : State} {die : Nat} {e : FaultEntry} (h : s.canonical) : (s.resolveEntry die e).canonical :=
    by
  unfold State.resolveEntry
  split
  · split
    · exact ite_canonical (resolveGroup_canonical h) h
    · exact h
  · split
    · exact h
    · split
      next e1 => exact (canonical_snd e1 (resolveAccess_canonical h) :)
      next e1 => exact (canonical_snd e1 (resolveAccess_canonical h) :)
  · split
    · exact h
    · split
      next e1 => exact (canonical_snd e1 (resolveAccess_canonical h) :)
      next e1 => exact rowDone_canonical (canonical_snd e1 (resolveAccess_canonical h))
  · split
    · exact h
    · split
      · exact h
      · split
        next e1 => exact (canonical_snd e1 (resolveAccess_canonical h) :)
        next e1 =>
          split
          · exact (canonical_snd e1 (resolveAccess_canonical h) :)
          · exact ite_canonical (canonical_snd e1 (resolveAccess_canonical h) :) (canonical_snd e1 (resolveAccess_canonical
              h) :)
  · split
    · exact h
    · exact resolveRecord_canonical h

theorem execFaultResolve_lands {s : State} : Lands s (execFaultResolve s) := by
  unfold execFaultResolve
  dsimp only
  split
  · exact id
  · exact fun h => resolveEntry_canonical h

theorem execSyncHoldTimeout_lands {s : State} : Lands s (execSyncHoldTimeout s) := by
  unfold execSyncHoldTimeout
  dsimp only
  split
  · exact ite_of id (fun h => unhandled_canonical h)
  · exact id

theorem tierMove_canonical {s : State} {tenant arg : Nat} (h : s.canonical) : (s.tierMove tenant arg).2.canonical := by
  unfold State.tierMove
  split
  next e =>
    dsimp only
    split
    · exact (canonical_snd e h :)
    · split
      · exact (canonical_snd e h :)
      · split
        · exact h
        · split
          · exact foldl_canonical (fun k => writeBack_canonical k) h
          · split
            · exact ite_snd (foldl_canonical (fun k => writeBack_canonical k) h) (foldl_canonical (fun k => writeBack_canonical
                k) h)
            · exact moveFrame_canonical _ _ _ (ite_snd (foldl_canonical (fun k => writeBack_canonical k) h) (foldl_canonical
                (fun k => writeBack_canonical k) h))

theorem serviceCall_canonical {s : State} {tenant svc : Nat} {arg : W64} (h : s.canonical) : (s.serviceCall tenant svc
    arg).2.canonical :=
  ite_snd h (ite_snd (tierMove_canonical h) (ite_snd h h))

theorem serviceCalls_canonical {s : State} {tenant svc : Nat} {l : List W64} (h : s.canonical) :
    (s.serviceCalls tenant svc l).2.canonical := by
  induction l generalizing s with
  | nil => exact h
  | cons a r ih =>
    unfold State.serviceCalls
    split
    next e => exact canonical_snd e (serviceCall_canonical h)
    next e =>
      have k := ih (canonical_snd e (serviceCall_canonical h))
      split
      next e1 => exact canonical_snd e1 k
      next e1 => exact canonical_snd e1 k

theorem answerLane_canonical {s : State} {gid i dst : Nat} {conv : Bool} {la : Nat} {v : W64} (h : s.canonical) : (s.answerLane
    gid i dst conv la v).canonical := by
  unfold State.answerLane
  split
  next e =>
    split
    · dsimp only
      split
      · exact (canonical_snd e h :)
      · exact h
    · dsimp only
      split
      · exact (canonical_snd e h :)
      · exact h

theorem execFwcallAnswer_lands {s : State} : Lands s (execFwcallAnswer s) := by
  unfold execFwcallAnswer
  split
  · exact id
  · split
    · split
      · exact id
      · split
        next e2 => exact fun h => canonical_snd e2 (serviceCalls_canonical h)
        next e2 =>
          exact fun h => foldl_canonical (fun k => answerLane_canonical k) (canonical_snd e2 (serviceCalls_canonical h))
    · exact id

theorem flushBlock_canonical {s : State} {base size : Nat} (h : s.canonical) : (s.flushBlock base size).canonical :=
  foldl_canonical (fun k => writeBack_canonical k) h

theorem spare_canonical {s : State} {x : PendingTest} (h : s.canonical) : (s.spare x).2.canonical := by
  unfold State.spare
  split
  · exact h
  · exact h
  · exact h
  · exact ite_snd h h
  · refine ite_snd h (foldl_canonical ?_ h)
    · intro _ _ k
      split
      next e1 =>
        split
        · exact (canonical_snd e1 k :)
        · exact moveFrame_canonical _ _ _ (canonical_snd e1 k)
  · exact h
  · exact h

theorem settleTest_canonical {s : State} {x : PendingTest} {pass : Bool} {open_ : List Nat} (h : s.canonical) : (s.settleTest x
    pass open_).canonical := by
  unfold State.settleTest
  split
  next e => exact (canonical_snd e (ite_snd h (spare_canonical h)) :)

theorem execTargetedTestDone_lands {s : State} : Lands s (execTargetedTestDone s) := by
  unfold execTargetedTestDone
  split
  · exact id
  · exact ite_of id (ite_of (fun h => ite_canonical (flushBlock_canonical h) h) (fun h => settleTest_canonical (ite_canonical
      (flushBlock_canonical h) h)))

/-! #### Operations of `Machine/HostQueues` -/

theorem haltQueue_canonical {s : State} {q : HostQueue} {h' : Halt} (h : s.canonical) : (s.haltQueue q h').canonical :=
  canonical_of_sameBytes (report_mem _ _) h

theorem packetDone_canonical {s : State} {q : HostQueue} {pk : List Byte} (h : s.canonical) : (s.packetDone q pk).canonical :=
  ite_canonical (foldl_canonical (fun k => canonical_of_sameBytes (sendEvent_mem _ _ _) k) h) h

theorem runPacket_canonical {s : State} {op : Nat} {check : State → HostQueue → List Byte → Option Halt × State}
    {act : State → HostQueue → List Byte → PacketEnd} {reach : State → HostQueue → List Byte → State}
    (hcheck : ∀ {t q pk}, t.canonical → (check t q pk).2.canonical)
    (hact : ∀ {t q pk}, t.canonical → (act t q pk).canonical)
    (hreach : ∀ {t q pk}, t.canonical → (reach t q pk).canonical) (h : s.canonical) :
    (s.runPacket op check act reach).canonical := by
  unfold State.runPacket
  split
  · exact h
  · split
    · exact ite_of h (packetDone_canonical h)
    · dsimp only
      refine ite_of h ?_
      split
      · exact haltQueue_canonical h
      · refine ite_of h (ite_of (haltQueue_canonical h) ?_)
        split
        next e => exact haltQueue_canonical (canonical_snd e (ite_snd (hcheck h) h))
        next t e =>
          have ht : t.canonical := canonical_snd e (ite_snd (hcheck h) h)
          refine ite_of (ite_of (hreach ht) ht) ?_
          split
          next e1 => exact haltQueue_canonical ((congrArg PacketEnd.canonical e1).mp (hact ht))
          next e1 => exact (congrArg PacketEnd.canonical e1).mp (hact ht)
          next e1 => exact (congrArg PacketEnd.canonical e1).mp (hact ht)
          next e1 => exact packetDone_canonical ((congrArg PacketEnd.canonical e1).mp (hact ht))

theorem checkDesc_canonical {s : State} {q : HostQueue} {a : Nat} (h : s.canonical) : (s.checkDesc q a).2.canonical := by
  unfold State.checkDesc
  split
  · exact h
  · split
    next e => exact (canonical_snd e (tenantRead_canonical h) :)
    next e => exact (canonical_snd e (tenantRead_canonical h) :)

theorem checkDescs_canonical {s : State} {q : HostQueue} {l : List Nat} (h : s.canonical) : (s.checkDescs q l).2.canonical := by
  induction l generalizing s with
  | nil => exact h
  | cons a r ih =>
    unfold State.checkDescs
    split
    next e => exact canonical_snd e (checkDesc_canonical h)
    next e =>
      have k := ih (canonical_snd e (checkDesc_canonical h))
      split
      next e1 => exact canonical_snd e1 k
      next e1 => exact canonical_snd e1 k

theorem execPktPair_lands {s : State} : Lands s (execPktPair s) := by
  unfold execPktPair
  refine fun h => runPacket_canonical ?_ (fun k => k) (fun k => k) h
  · intro _ _ _ k
    dsimp only
    split
    · exact k
    · split
      next e => exact (canonical_snd e (tenantRead_canonical k) :)
      next e => exact checkDescs_canonical (canonical_snd e (tenantRead_canonical k))

theorem execPktSignal_lands {s : State} : Lands s (execPktSignal s) := by
  unfold execPktSignal
  refine fun h => runPacket_canonical ?_ ?_ (fun k => k) h
  · intro _ _ _ k
    dsimp only
    split
    · exact k
    · split
      · exact k
      · split
        next e => exact (canonical_snd e (resolveAccess_canonical k) :)
        next e => exact (canonical_snd e (resolveAccess_canonical k) :)
  · intro _ _ _ k
    split
    · dsimp only
      split
      · exact k
      · exact ite_of (writeAtHome_canonical _ _ k) (writeAtHome_canonical _ _ k)
    · dsimp only
      split
      · exact k
      · exact ite_of (writeAtHome_canonical _ _ k) (writeAtHome_canonical _ _ k)

theorem waitMet_canonical {s : State} {q : HostQueue} {pk : List Byte} (h : s.canonical) : (s.waitMet q pk).2.canonical := by
  unfold State.waitMet
  split
  next e => exact (canonical_snd e (tenantRead_canonical h) :)
  next e => exact (canonical_snd e (tenantRead_canonical h) :)

theorem execPktWait_lands {s : State} : Lands s (execPktWait s) := by
  unfold execPktWait
  refine fun h => runPacket_canonical ?_ ?_ ?_ h
  · intro _ _ _ k
    dsimp only
    split
    · exact k
    · split
      · exact k
      · split
        next e => exact (canonical_snd e (resolveAccess_canonical k) :)
        next e => exact (canonical_snd e (resolveAccess_canonical k) :)
  · intro _ _ _ k
    split
    next e => exact canonical_snd e (waitMet_canonical k)
    next e => exact ite_of (canonical_snd e (waitMet_canonical k)) (canonical_snd e (waitMet_canonical k))
  · intro _ _ _ k
    split
    next e => exact (canonical_snd e (waitMet_canonical k) :)
    next e => exact canonical_snd e (waitMet_canonical k)

theorem execPktKill_lands {s : State} : Lands s (execPktKill s) := by
  unfold execPktKill
  refine fun h => runPacket_canonical (fun k => k) ?_ (fun k => k) h
  · intro _ _ _ k
    split
    · exact k
    · exact ite_of k (abortLaunch_canonical k)

theorem cameraPacket_canonical {s : State} {q : HostQueue} {pk : List Byte} (h : s.canonical) : (s.cameraPacket q
    pk).2.canonical := by
  unfold State.cameraPacket
  split
  next e => exact (canonical_snd e (tenantRead_canonical h) :)
  next e =>
    split
    · exact (canonical_snd e (tenantRead_canonical h) :)
    · dsimp only
      split
      next e1 => exact (canonical_snd e1 (tenantRead_canonical (canonical_snd e (tenantRead_canonical h))) :)
      next e1 => exact (canonical_snd e1 (tenantRead_canonical (canonical_snd e (tenantRead_canonical h))) :)

theorem execPktCamera_lands {s : State} : Lands s (execPktCamera s) := by
  unfold execPktCamera
  refine fun h => runPacket_canonical ?_ ?_ (fun k => k) h
  · intro _ _ _ k
    split
    · exact k
    · split
      next e => exact (canonical_snd e (cameraPacket_canonical k) :)
      next e => exact (canonical_snd e (cameraPacket_canonical k) :)
  · intro _ _ _ k
    split
    next e => exact canonical_snd e (cameraPacket_canonical k)
    next e =>
      dsimp only
      split
      · exact ite_of (canonical_snd e (cameraPacket_canonical k) :) (canonical_snd e (cameraPacket_canonical k) :)
      · exact (canonical_snd e (cameraPacket_canonical k) :)

theorem execQueueWatchdog_lands {s : State} : Lands s (execQueueWatchdog s) := by
  unfold execQueueWatchdog
  split
  · exact id
  · split
    · exact fun h => ite_canonical (haltQueue_canonical h) h
    · exact id

/-! #### Operations of `Machine/HostLink` -/

theorem protected_canonical {s : State} {role : Role → Bool} {act : State → Ehps → List Byte × State} (hact : ∀ {a : State}
    {a_1 : Ehps}, a.canonical → (act a a_1).2.canonical) (h : s.canonical) : (s.protected_ role act).canonical := by
  unfold State.protected_
  dsimp only
  split
  · exact h
  · split
    · exact h
    · split
      · exact h
      · exact ite_canonical h (hact h)

theorem operatorDoes_canonical {s : State} {f : State → State} (hf : ∀ {a : State}, a.canonical → (f a).canonical) (h :
    s.canonical) : (s.operatorDoes f).canonical :=
  ite_canonical h (protected_canonical (fun k => hf k) h)

theorem pfc_canonical {s : State} {bs : List Byte} (h : s.canonical) : (s.pfc bs).canonical :=
  ite_canonical h h

theorem sendOut_canonical {s : State} (h : s.canonical) : (s.sendOut).canonical :=
  ite_canonical h h

theorem execEventRetransmit_lands {s : State} : Lands s (execEventRetransmit s) := by
  unfold execEventRetransmit
  dsimp only
  split
  · exact id
  · exact ite_of id (ite_of id id)

theorem endDelivered_canonical {s : State} {id : Nat} (h : s.canonical) : (s.endDelivered id).canonical := by
  unfold State.endDelivered
  split
  · exact unhandled_canonical h
  · exact h

theorem detach_canonical {s : State} {t : Nat} (h : s.canonical) : (s.detach t).canonical :=
  foldl_canonical (fun k => endDelivered_canonical k) h

theorem spdmSession_canonical {s : State} {n : Nat} (h : s.canonical) : (s.spdmSession n).2.canonical := by
  unfold State.spdmSession
  split
  · exact h
  · exact ite_snd h h

theorem execEhpSpdm_lands {s : State} : Lands s (execEhpSpdm s) := by
  have hx (h : s.canonical) := spdmSession_canonical (n := s.ev.ehp.session) h
  unfold execEhpSpdm
  dsimp only
  generalize s.spdmSession s.ev.ehp.session = y at hx ⊢
  refine ite_of hx ?_
  split
  · exact hx
  · refine ite_of hx ?_
    split
    · exact hx
    · exact hx

theorem execGetVersion_lands {s : State} : Lands s (execGetVersion s) :=
  fun h => spdmReply_canonical (modEhp_canonical (spdmSession_canonical h))

theorem spdmWith_canonical {s : State} {ready : Ehps → Bool} {go : State → State} (hgo : ∀ {a : State}, a.canonical → (go
    a).canonical) (h : s.canonical) : (s.spdmWith ready go).canonical := by
  unfold State.spdmWith
  split
  · exact ite_canonical (hgo h) h
  · exact h

theorem execGetCapabilities_lands {s : State} : Lands s (execGetCapabilities s) := by
  unfold execGetCapabilities
  refine fun h => spdmWith_canonical ?_ h
  exact fun k => k

theorem execNegotiateAlgorithms_lands {s : State} : Lands s (execNegotiateAlgorithms s) :=
  fun h => spdmWith_canonical (fun k => spdmReply_canonical (modEhp_canonical k)) h

theorem execGetDigests_lands {s : State} : Lands s (execGetDigests s) := by
  unfold execGetDigests
  refine fun h => spdmWith_canonical ?_ h
  exact fun k => k

theorem execGetCertificate_lands {s : State} : Lands s (execGetCertificate s) := by
  unfold execGetCertificate
  refine fun h => spdmWith_canonical ?_ h
  exact fun k => k

theorem execChallenge_lands {s : State} : Lands s (execChallenge s) := by
  unfold execChallenge
  refine fun h => spdmWith_canonical ?_ h
  exact fun k => k

theorem execGetMeasurements_lands {s : State} : Lands s (execGetMeasurements s) := by
  unfold execGetMeasurements
  refine fun h => spdmWith_canonical ?_ h
  exact fun k => k

theorem execFinish_lands {s : State} : Lands s (execFinish s) := by
  unfold execFinish
  split
  · split
    next e1 =>
      dsimp only
      split
      · exact id
      · exact ite_of id (fun h => (canonical_snd e1 h :))
  · dsimp only
    split
    · exact id
    · exact ite_of id id

theorem execKeyUpdate_lands {s : State} : Lands s (execKeyUpdate s) :=
  fun h => spdmWith_canonical (fun k => spdmReply_canonical (modEhp_canonical k)) h

theorem execQctlCreate_lands {s : State} : Lands s (execQctlCreate s) := by
  unfold execQctlCreate
  refine fun h => operatorDoes_canonical ?_ h
  exact fun k => ite_canonical k k

theorem ring_canonical {s : State} {q : HostQueue} {wi : Nat} (h : s.canonical) : (s.ring q wi).canonical :=
  ite_canonical (haltQueue_canonical h) h

theorem execDoorbell_lands {s : State} : Lands s (execDoorbell s) := by
  unfold execDoorbell
  refine ite_of id (fun h => protected_canonical ?_ h)
  · intro _ _ k
    split
    · exact k
    · exact ring_canonical k

theorem setSetting_canonical {s : State} {x : Setting} {v : Nat} (h : s.canonical) : (s.setSetting x v).canonical := by
  unfold State.setSetting
  split
  · exact ite_canonical h h
  · exact ite_canonical h h
  · exact ite_canonical h h
  · exact ite_canonical (canonical_of_sameBytes (report_mem _ _) h) (ite_canonical h h)
  · exact ite_canonical (canonical_of_sameBytes (report_mem _ _) h) (ite_canonical h h)

theorem mgmtRead_canonical {s : State} {off : Nat} (h : s.canonical) : (s.mgmtRead off).2.canonical := by
  unfold State.mgmtRead
  split
  · exact h
  · split <;> exact h

theorem execMread_lands {s : State} : Lands s (execMread s) := by
  unfold execMread
  refine ite_of id (fun h => protected_canonical ?_ h)
  · intro _ _ k
    split
    · exact mgmtRead_canonical k
    · exact k

theorem execMwrite_lands {s : State} : Lands s (execMwrite s) := by
  unfold execMwrite
  refine fun h => operatorDoes_canonical ?_ h
  · intro _ k
    split
    · exact ite_canonical (canonical_of_sameBytes (report_mem _ _) k) k
    · split
      · exact setSetting_canonical k
      · exact k

theorem execMwriteBootConfirm_lands {s : State} : Lands s (execMwriteBootConfirm s) := by
  unfold execMwriteBootConfirm
  refine fun h => operatorDoes_canonical ?_ h
  · intro _ k
    split
    · exact ite_canonical k k
    · exact k

theorem execDebugAttach_lands {s : State} : Lands s (execDebugAttach s) := by
  unfold execDebugAttach
  refine fun h => operatorDoes_canonical ?_ h
  exact fun k => ite_canonical k (ite_canonical (detach_canonical k) k)

theorem execDebugResume_lands {s : State} : Lands s (execDebugResume s) := by
  unfold execDebugResume
  refine fun h => operatorDoes_canonical ?_ h
  exact fun k => ite_canonical k k

theorem execDebugEndGrid_lands {s : State} : Lands s (execDebugEndGrid s) := by
  unfold execDebugEndGrid
  refine fun h => operatorDoes_canonical ?_ h
  exact fun k => ite_canonical (endDelivered_canonical k) k

theorem execRdmaWrite_lands {s : State} : Lands s (execRdmaWrite s) := by
  unfold execRdmaWrite
  split
  · exact id
  · dsimp only
    split
    · exact id
    · split
      next e1 => exact fun h => (canonical_snd e1 (tenantWrite_canonical h) :)
      next e1 => exact fun h => (canonical_snd e1 (tenantWrite_canonical h) :)

theorem execRdmaRead_lands {s : State} : Lands s (execRdmaRead s) := by
  unfold execRdmaRead
  split
  · exact id
  · dsimp only
    split
    · exact id
    · split
      next e1 => exact fun h => (canonical_snd e1 (tenantRead_canonical h) :)
      next e1 => exact fun h => (canonical_snd e1 (tenantRead_canonical h) :)

/-! #### Operations of `Machine/Starts` -/

theorem coldTests_canonical {s : State} {n : Nat} (h : s.canonical) : (s.coldTests n).canonical := by
  induction n generalizing s with
  | zero => exact h
  | succ n ih => exact ih (spare_canonical h)

theorem unspare_canonical {s : State} {x : PendingTest} (h : s.canonical) : (s.unspare x).canonical := by
  unfold State.unspare
  split <;> exact h

theorem warmTests_canonical {s : State} (h : s.canonical) : (s.warmTests).canonical := by
  unfold State.warmTests
  refine foldl_canonical ?_ h
  · intro _ _ k
    split
    next e =>
      split
      · exact canonical_snd e k
      · exact settleTest_canonical (unspare_canonical (canonical_snd e k))
      · exact settleTest_canonical (canonical_snd e k)

theorem startTests_canonical {s : State} {warm : Bool} (h : s.canonical) : (s.startTests warm).canonical :=
  ite_canonical (warmTests_canonical h) (coldTests_canonical h)

theorem boot_canonical {s : State} {warm : Bool} {l : List Nat} (h : s.canonical) : (s.boot warm l).canonical := by
  induction l generalizing s with
  | nil => exact h
  | cons i r ih =>
    have ht : (s.startTests warm).drawNat.2.canonical := startTests_canonical h
    unfold State.boot
    exact ite_of (ih h) (ite_of (ih ht) (ite_of ht ht))

theorem failTrial_canonical {s : State} (h : s.canonical) : (s.failTrial).canonical := by
  unfold State.failTrial
  split <;> exact h

theorem start_canonical {s : State} {warm : Bool} (h : s.canonical) : (s.start warm).canonical :=
  boot_canonical (restarted_canonical _ (failTrial_canonical h))

theorem execStartTimeout_lands {s : State} : Lands s (execStartTimeout s) := by
  unfold execStartTimeout
  split
  · exact fun h => boot_canonical h
  · exact id

theorem execTrialConfirmTimeout_lands {s : State} : Lands s (execTrialConfirmTimeout s) := by
  unfold execTrialConfirmTimeout
  split
  · exact fun h => ite_canonical h h
  · exact id

/-! #### Operations of `Machine/Fabric` -/

theorem reroute_canonical {s : State} (h : s.canonical) : (s.reroute).canonical := by
  unfold State.reroute
  refine foldl_canonical ?_ h
  · intro _ _ k
    split
    · exact k
    · split
      · exact k
      · exact canonical_of_sameBytes (sendFlit_mem _ _) k

theorem forward_canonical {s : State} {into : Nat} {r : RemoteReq} (h : s.canonical) : (s.forward into r).canonical := by
  unfold State.forward
  split
  · exact h
  · exact canonical_of_sameBytes (sendFlit_mem _ _) h

theorem execFlitReceive_lands {s : State} : Lands s (execFlitReceive s) := by
  unfold execFlitReceive
  dsimp only
  split
  · exact id
  · exact ite_of id (ite_of (fun h => foldl_canonical (fun k => forward_canonical k) h) (fun h => ite_canonical
      (canonical_of_sameBytes (report_mem _ _) h) (canonical_of_sameBytes (report_mem _ _) h)))

theorem rekey_canonical {s : State} {n : Nat} {tx : Bool} (h : s.canonical) : (s.rekey n tx).canonical := by
  unfold State.rekey
  split
  · exact h
  · exact ite_canonical h (ite_canonical h h)

theorem execRekeyRetry_lands {s : State} : Lands s (execRekeyRetry s) := by
  unfold execRekeyRetry
  dsimp only
  split
  · exact fun h => ite_canonical (rekey_canonical h) h
  · exact id

theorem settleLinks_canonical {s : State} (h : s.canonical) : (s.settleLinks).canonical :=
  ite_canonical h h

theorem execBacklogHint_lands {s : State} : Lands s (execBacklogHint s) := by
  unfold execBacklogHint
  dsimp only
  split
  · exact ite_of id id
  · exact id

theorem answer_canonical {s : State} {r : RemoteReq} {a : RemoteAnswer} (h : s.canonical) : (s.answer r a).canonical :=
  canonical_of_sameBytes (answerTo_mem _ _ _ _ _) h

theorem remoteWrite_canonical {s : State} {r : RemoteReq} {op : WriteOp} (h : s.canonical) : (s.remoteWrite r op).canonical :=
  writeAtHome_canonical _ _ h

theorem remoteStore_canonical {s : State} {r : RemoteReq} {bs : List Byte} (h : s.canonical) : (s.remoteStore r bs).canonical :=
  foldl_canonical (fun k => writeAtHome_canonical _ _ k) h

theorem grantLines_canonical {s : State} {lines : List Nat} (h : s.canonical) : (s.grantLines lines).2.canonical := by
  unfold State.grantLines
  refine canonical_fold (g := fun x : Nat × State => x.2) ?_ h
  · intro _ _ k
    split
    next e => exact (canonical_snd e (grant_canonical k) :)

theorem performRemote_canonical {s : State} {r : RemoteReq} (h : s.canonical) : (s.performRemote r).canonical := by
  unfold State.performRemote
  split
  · exact answer_canonical h
  · split
    · exact answer_canonical h
    · split
      · exact ite_canonical (answer_canonical h) h
      · split
        · dsimp only
          split
          · exact answer_canonical h
          · split
            · exact answer_canonical h
            · exact remoteStore_canonical h
            · exact raiseError_canonical (answer_canonical h)
            · exact h
            · exact remoteWrite_canonical h
            · exact remoteWrite_canonical h
            · exact remoteWrite_canonical h
        · dsimp only
          split
          · exact answer_canonical h
          · split
            · exact answer_canonical h
            · exact remoteStore_canonical h
            · exact raiseError_canonical (answer_canonical h)
            · exact answer_canonical (grantLines_canonical (foldl_canonical (fun k => canonical_of_sameBytes
                (mscTouch_mem _ _ _ _ _) k) (engineLoads_canonical h)))
            · exact remoteWrite_canonical h
            · exact remoteWrite_canonical h
            · exact remoteWrite_canonical h

theorem execRemoteRequest_lands {s : State} : Lands s (execRemoteRequest s) := by
  unfold execRemoteRequest
  split
  · exact id
  · exact ite_of id (fun h => performRemote_canonical h)

theorem qpError_canonical {s : State} {q : QueuePair} (h : s.canonical) : (s.qpError q).canonical :=
  canonical_of_sameBytes (report_mem _ _) h

theorem workRequest_canonical {s : State} {q : QueuePair} {i : Nat} (h : s.canonical) : (s.workRequest q i).2.canonical :=
  tenantRead_canonical h

theorem startRequests_canonical {s : State} {num n : Nat} (h : s.canonical) : (s.startRequests num n).canonical := by
  induction n generalizing s with
  | zero => exact h
  | succ n ih =>
    unfold State.startRequests
    split
    · exact h
    · refine ite_of h ?_
      split
      next e => exact qpError_canonical (canonical_snd e (workRequest_canonical h))
      next t e =>
        have ht : t.canonical := canonical_snd e (workRequest_canonical h)
        refine ite_of (qpError_canonical ht) (ite_of (ih ht) ?_)
        split
        next e1 => exact qpError_canonical (canonical_snd e1 (tenantRead_canonical ht))
        next e1 => exact ih (canonical_snd e1 (tenantRead_canonical ht) :)

theorem execScaleoutDoorbell_lands {s : State} : Lands s (execScaleoutDoorbell s) := by
  unfold execScaleoutDoorbell
  split
  · exact id
  · exact fun h => ite_canonical h (startRequests_canonical h)

theorem signalAt_canonical {s : State} {tenant a : Nat} (h : s.canonical) : (s.signalAt tenant a).canonical := by
  unfold State.signalAt
  split
  · exact h
  · split
    · exact h
    · exact writeAtHome_canonical _ _ h

theorem execWorkRequestComplete_lands {s : State} : Lands s (execWorkRequestComplete s) := by
  unfold execWorkRequestComplete
  split
  · exact id
  · split
    · exact id
    · split
      · exact id
      · split
        · exact ite_of (fun h => signalAt_canonical h) (fun h => ite_canonical h (signalAt_canonical h))
        · dsimp only
          split
          · exact fun h => signalAt_canonical h
          · split
            next e3 => exact fun h => qpError_canonical (canonical_snd e3 (tenantWrite_canonical h))
            next e3 =>
              exact ite_of (fun h => (canonical_snd e3 (tenantWrite_canonical h) :)) (fun h => signalAt_canonical (canonical_snd
                  e3 (tenantWrite_canonical h) :))

theorem execRemoteErrorNak_lands {s : State} : Lands s (execRemoteErrorNak s) := by
  unfold execRemoteErrorNak
  split
  · exact id
  · exact fun h => ite_canonical h (qpError_canonical h)

/-! #### Operations of `Machine/Outside` -/

theorem l1Error_canonical {s : State} {core line sec : Nat} (h : s.canonical) : (s.l1Error core line sec).canonical := by
  unfold State.l1Error
  split
  · exact h
  · exact foldl_canonical (fun k => abortLaunch_canonical k) (raiseError_canonical h)

theorem copyError_canonical {s : State} {cluster : Nat} (h : s.canonical) : (s.copyError cluster).canonical :=
  canonical_of_sameBytes (report_mem _ _) h

theorem moveBlock_canonical {s : State} {num owner : Nat} (h : s.canonical) : (s.moveBlock num owner).canonical :=
  ite_of h ⟨h.1, Memory.wf_filter _ h.2⟩

theorem settleBlocks_canonical {s : State} (h : s.canonical) : (s.settleBlocks).canonical :=
  foldl_canonical (fun k => moveBlock_canonical k) h

theorem setBudget_canonical {s : State} {die tenant b t : Nat} (h : s.canonical) : (s.setBudget die tenant b t).canonical :=
  ite_canonical h h

theorem raiseMinsvn_canonical {s : State} {v : Nat} (h : s.canonical) : (s.raiseMinsvn v).canonical := by
  unfold State.raiseMinsvn
  split
  · exact ite_canonical h h
  · exact h

theorem plainWrite_canonical {s : State} {p : CapPlace} (h : s.canonical) : (s.plainWrite p).canonical := by
  unfold State.plainWrite
  split <;> exact h

theorem happen_canonical {s : State} {x : Happening} (h : s.canonical) : (s.happen x).canonical := by
  unfold State.happen
  split
  · exact raiseError_canonical h
  · exact h
  · exact h
  · exact h
  · exact l1Error_canonical h
  · exact copyError_canonical h
  · exact h
  · exact moveBlock_canonical h
  · exact ite_canonical h h
  · exact h
  · exact ite_canonical h h
  · exact setBudget_canonical h
  · exact raiseMinsvn_canonical h
  · exact ite_canonical h h
  · exact ite_canonical h h
  · exact ite_canonical h h
  · exact h
  · exact plainWrite_canonical h
  · exact ite_canonical h h
  · exact ite_canonical h h
  · exact h
  · exact h
  · exact ite_canonical h h
  · exact h
  · exact ite_canonical h h
  · exact h

/-! #### Operations of `Machine/Cycle` -/

theorem spend_canonical {s : State} {old : Nat} {b : Budget} (h : s.canonical) : (s.spend old b).canonical := by
  unfold State.spend
  dsimp only
  split
  · split <;> exact h
  · split <;> split <;> exact h

theorem settleWaits_canonical {s : State} (h : s.canonical) : (s.settleWaits).canonical :=
  foldl_canonical (fun k => k) h

theorem settleInbox_canonical {s : State} (h : s.canonical) : (s.settleInbox).canonical :=
  foldl_canonical (fun k => performRemote_canonical k) h

theorem feedArrays_canonical {s : State} (h : s.canonical) : (s.feedArrays).canonical :=
  foldl_canonical (fun k => feedArray_canonical k) h

theorem polls_canonical {s : State} (h : s.canonical) : (s.polls).canonical :=
  ite_canonical h (foldl_canonical (fun k => foldl_canonical (fun h1 => homeLoads_canonical h1) (homeLoads_canonical k))
      (foldl_canonical (fun k => homeLoads_canonical k) h))

theorem pass_canonical {s : State} (h : s.canonical) : s.pass.canonical := by
  have hb : (s.tick.budgets.foldl (fun t b => t.spend s.time b) s.tick).canonical :=
    foldl_canonical (fun k => spend_canonical k) (tick_canonical h)
  have hw := settleWaits_canonical (settleBlocks_canonical (settleVaults_canonical (settleOver_canonical
    (reap_canonical (settleJoins_canonical (postpone_canonical (retireSr_canonical hb)))))))
  have hh := settleRings_canonical (settleHeld_canonical (feedArrays_canonical (settleInbox_canonical hw)))
  exact sendOut_canonical (polls_canonical (applyHints_canonical (settleLinks_canonical hh)))

theorem refreshes_canonical {s : State} (h : s.canonical) : (s.refreshes).canonical :=
  foldl_canonical (fun k => ite_canonical k k) h

theorem testsOver_canonical {s : State} (h : s.canonical) : (s.testsOver).canonical :=
  foldl_canonical (fun k => k) h

theorem issueAll_canonical {s : State} {gated : Nat → Bool} (h : s.canonical) : (s.issueAll gated).canonical :=
  foldl_canonical (fun k => issuePartition_canonical k) h

theorem issueAgain_canonical {s : State} {gated : Nat → Bool} (h : s.canonical) : (s.issueAgain gated).canonical :=
  foldl_canonical (fun k => issuePartition_canonical k) h

theorem execIssueCycle_lands {s : State} : Lands s (execIssueCycle s) := by
  unfold execIssueCycle
  split
  · refine ite_of (fun h => ?_) (fun h => ?_)
    · have ht := tick_canonical h
      split
      · exact ite_of ht ht
      · exact ht
    · exact push_canonical (testsOver_canonical (refreshes_canonical (push_canonical (pass_canonical h))))
  · exact fun h => issueAll_canonical h
  · exact ite_of (fun h => endIssues_canonical h) (fun h => issueAgain_canonical h)

end Sys2Proof.Machine

namespace Sys2Proof.Machine

open Sys2Proof

/-- Every instruction and every event goes on to a next state, and keeps the memories canonical. -/
theorem exec_lands {s : State} (i : Instr) : Lands s (exec i s) := by
  cases i
  case p64Pair | yieldExpire | napWake | peerStateUpdate | l1LeaseExpire | sequencerIssue | poolBinAgeDue | budgetRefill
      | stallHintEnd | powerSample | rekeyInstallAck | rekeyOldAcked | budgetExhausted =>
    exact id
  case iadd | isub | imul | imulh | imad | imadw | idiv | irem | imin | imax | iabs | ineg | shl | shr | sar | rol | and
      | or | xor | andn | not | lea | sel | mov | movi | clz | popc | brev | icmp | pset | pand | por | pxor | pnot |
      pmov | cvt | fadd | fsub | fmul | ffma | fmin | fmax | fcmp | frcp | frsq | fsqrt | fexp2 | flog2 | fsin | fcos |
      fclass | frnd | hadd2 | hfma2 | badd2 | bfma2 | qadd4 | qmul4 | qcvt | bmm8 | bmo8 | bscat | bgath | bperm | bfx |
      bfi | fshl | fshr | wadd | wsub | wmul | wfma | wmin | wmax | wexp | wscl | wbcst | wset | wget | wsum | wcmp |
      wsel | wcvt | wfres | wpack | wlen | muelF | muelG | muelRot | txstat | iaddC32 | isubC32 | imulC32 | iminC32 |
      imaxC32 | shlC32 | shrC32 | sarC32 | andC32 | orC32 | xorC32 | andnC32 | rolC32 | faddC32 | fsubC32 | fmulC32 |
      fminC32 | fmaxC32 | hadd2C32 | badd2C32 | qadd4C32 | qmul4C32 | pandC32 | porC32 | pxorC32 | waddC32 | wsubC32 |
      wmulC32 | wminC32 | wmaxC32 =>
    exact aluExec_canonical
  case matchLanes | vote | voteMask | voteCnt | shfl | redux => exact crossExec_canonical
  case fsplatW => exact execFsplatW_lands
  case ldG | ldL | ldV => exact scalarLoad_canonical
  case stG | stL | stV => exact scalarStore_canonical
  case ldv | tld => exact runLoad_canonical
  case stv | tst => exact runStore_canonical
  case ldw => exact loadExec_canonical
  case stw => exact storeExec_canonical
  case atom => exact execAtom_lands
  case atomCas => exact execAtomCas_lands
  case cwb | cinv => exact lineExec_canonical (fun k => writeBack_canonical k)
  case pref => exact execPref_lands
  case fence => exact ite_of (fun h => txAbort_canonical h) (ite_of id (fun h => writeBackGroup_canonical h))
  case txbegin => exact execTxbegin_lands
  case txcommit => exact execTxcommit_lands
  case txabort => exact execTxabort_lands
  case bra | brx | ret => exact laneExec_canonical (fun k => transfer_canonical k)
  case call => exact laneExec_canonical (fun k => transfer_canonical (writeDest_canonical k))
  case jenr | jstr | jclr | barNumWait => exact groupExec_canonical (fun k => k)
  case jarr => exact execJarr_lands
  case yield => exact execYield_lands
  case nap => exact execNap_lands
  case exit => exact fun h => reap_canonical (laneExec_canonical (fun k => k) h)
  case spawn => exact fun h => laneExec_canonical (fun k => spawnLane_canonical (fun h1 => h1) k) h
  case cont => exact fun h => reap_canonical (laneExec_canonical (fun k => spawnLane_canonical (fun h1 => h1) k) h)
  case join => exact execJoin_lands
  case barTeam => exact groupExec_canonical (fun k => testTeamBar_canonical k)
  case barNumMeet | barNumPost => exact groupExec_canonical (fun k => arriveNum_canonical k)
  case barTree => exact execBarTree_lands
  case trap => exact execTrap_lands
  case fwcall => exact fun h => laneExec_canonical (fun k => k) (ite_canonical h (writeBackGroup_canonical h))
  case rdsr => exact execRdsr_lands
  case wrsr | wrsrTexbase => exact wrsrLanes_canonical
  case wrsrMseqpc => exact execWrsrMseqpc_lands
  case clockTime | clockCyc | qstat | tcstat => exact laneExec_canonical (fun k => finishAlu_canonical k)
  case bkpt => exact execBkpt_lands
  case nop => exact laneExec_canonical (fun k => k)
  case qbind => exact execQbind_lands
  case qflush => exact execQflush_lands
  case mbar => exact execMbar_lands
  case tsmpW | tups | tsmpF | tfet => exact texExec_canonical
  case tqry => exact execTqry_lands
  case lspres => exact execLspres_lands
  case tcopy | tcopy2d => exact copyExec_canonical
  case bobjInit => exact execBobjInit_lands
  case bobjExpect => exact objExec_canonical (fun k => objOp_canonical k)
  case bobjWait => exact execBobjWait_lands
  case rowCopy | rowFill | rowAnd | rowOr | rowXor | rowNot | rowMaj | rowAllb | rowBcst | rowMac | rowSadd | rowRdacc |
      rowProg =>
    exact rowExec_canonical
  case rowWait => exact execRowWait_lands
  case mma => exact execMma_lands
  case mzero => exact execMzero_lands
  case mlda => exact execMlda_lands
  case mldb => exact execMldb_lands
  case munpin => exact execMunpin_lands
  case mstF32 | mstB16 => exact storeTile_lands
  case mstQ => exact execMstQ_lands
  case msparse => exact execMsparse_lands
  case mloop => exact execMloop_lands
  case mbraAl => exact execMbraAl_lands
  case mbraZ => exact execMbraZ_lands
  case mbraNz => exact execMbraNz_lands
  case msetI => exact execMsetI_lands
  case msetQ => exact execMsetQ_lands
  case msetR => exact execMsetR_lands
  case maddx => exact execMaddx_lands
  case mwait => exact execMwait_lands
  case msig => exact execMsig_lands
  case macb | mace => exact macRun_canonical
  case stepLoop | stepEnd | stepClr => exact runStep_canonical
  case issueCycle => exact execIssueCycle_lands
  case longLatencyRetire => exact execLongLatencyRetire_lands
  case faultResolve => exact execFaultResolve_lands
  case laneReplay | refreshDue => exact fun h => ite_canonical h h
  case groupPreempt => exact execGroupPreempt_lands
  case groupRestore => exact execGroupRestore_lands
  case coreStructureUncorrectable =>
    exact fun h => raiseError_canonical (foldl_canonical (fun k => abortLaunch_canonical k) h)
  case timebaseFirstLock => exact ite_of id (ite_of (fun h => setTime_canonical h) (fun h => setTime_canonical h))
  case timebaseSourceLost | holdoverTimeout | unsyncedConverge => exact fun h => ite_canonical (setTime_canonical h) h
  case timebaseSourceRegained => exact ite_of id (fun h => ite_canonical (setTime_canonical h) h)
  case dirtyWritebackTimer => exact writeBack_canonical
  case fetchAtHome => exact fun h => ite_canonical h (l1Fetch_canonical h)
  case writeAtHome => exact engineWrite_canonical _ _ _ _
  case holdRelease => exact fun h => releaseHold_canonical _ (foldl_canonical (fun k => releaseTx_canonical k) h)
  case txAbortResume => exact execTxAbortResume_lands
  case txCommitPerform => exact releaseTx_canonical
  case pageWalk => exact execPageWalk_lands
  case tlbInvalidate => exact execTlbInvalidate_lands
  case mmaRetire => exact execMmaRetire_lands
  case mstPerformed => exact execMstPerformed_lands
  case treePhaseComplete => exact execTreePhaseComplete_lands
  case copyForm => exact execCopyForm_lands
  case copyTurn => exact fun h => foldl_canonical (fun k => copyTurn_canonical k) h
  case copyEnd => exact execCopyEnd_lands
  case retentionIdleExpire => exact execRetentionIdleExpire_lands
  case reencodeDone => exact execReencodeDone_lands
  case linkMeshFail => exact ite_of id (fun h => canonical_of_sameBytes (report_mem _ _) h)
  case treeTagWithdraw => exact execTreeTagWithdraw_lands
  case launchTake => exact execLaunchTake_lands
  case teamPlace => exact serveFirst_canonical
  case poolRecordBin => exact execPoolRecordBin_lands
  case poolGroupForm => exact formFirst_canonical
  case atRiskTest => exact fun h => foldl_canonical (fun k => rescue_canonical k) h
  case launchComplete => exact execLaunchComplete_lands
  case stallHint => exact ite_of id (fun h => applyHints_canonical h)
  case pairTake => exact execPairTake_lands
  case consumerDeferredTake => exact execConsumerDeferredTake_lands
  case rowCmdEnter => exact execRowCmdEnter_lands
  case rowStep => exact execRowStep_lands
  case rowSlotEnd => exact execRowSlotEnd_lands
  case rowRefreshDone => exact execRowRefreshDone_lands
  case rowCommandEnd => exact endRow_canonical
  case rowCmdPortTake => exact execRowCmdPortTake_lands
  case textureRequestServe => exact execTextureRequestServe_lands
  case splatApply => exact execSplatApply_lands
  case splatPortEntry => exact execSplatPortEntry_lands
  case frameClose => exact execFrameClose_lands
  case foldEnd => exact execFoldEnd_lands
  case encLineTake => exact execEncLineTake_lands
  case pktLaunch => exact runPacket_canonical (fun k => checkDesc_canonical k) (fun k => k) (fun k => k)
  case pktPair => exact execPktPair_lands
  case pktSignal => exact execPktSignal_lands
  case pktWait => exact execPktWait_lands
  case pktKill => exact execPktKill_lands
  case pktCamera => exact execPktCamera_lands
  case pktSession =>
    exact runPacket_canonical (fun k => ite_snd k (ite_snd k k)) (fun k => openRingOf_canonical k) (fun k => k)
  case queueWatchdog => exact execQueueWatchdog_lands
  case ehpSpdm => exact execEhpSpdm_lands
  case getVersion => exact execGetVersion_lands
  case getCapabilities => exact execGetCapabilities_lands
  case negotiateAlgorithms => exact execNegotiateAlgorithms_lands
  case getDigests => exact execGetDigests_lands
  case getCertificate => exact execGetCertificate_lands
  case challenge => exact execChallenge_lands
  case getMeasurements => exact execGetMeasurements_lands
  case keyExchange | ack => exact ite_of id id
  case finish => exact execFinish_lands
  case keyUpdate => exact execKeyUpdate_lands
  case endSession => exact fun h => spdmWith_canonical (fun k => foldl_canonical (fun h1 => detach_canonical h1) k) h
  case qctlCreate => exact execQctlCreate_lands
  case qctlResume | qctlDestroy => exact operatorDoes_canonical (fun k => k)
  case doorbell => exact execDoorbell_lands
  case mread => exact execMread_lands
  case mwrite => exact execMwrite_lands
  case mwriteWarmStart | image => exact protected_canonical (fun k => k)
  case mwriteBootConfirm => exact execMwriteBootConfirm_lands
  case debugAttach => exact execDebugAttach_lands
  case debugResume => exact execDebugResume_lands
  case debugEndGrid => exact execDebugEndGrid_lands
  case debugDetach => exact operatorDoes_canonical (fun k => detach_canonical k)
  case eventRetransmit => exact execEventRetransmit_lands
  case rdmaWrite => exact execRdmaWrite_lands
  case rdmaRead => exact execRdmaRead_lands
  case scaleoutDoorbell => exact execScaleoutDoorbell_lands
  case workRequestComplete => exact execWorkRequestComplete_lands
  case coldStart | warmStart => exact start_canonical
  case startTimeout => exact execStartTimeout_lands
  case trialConfirmTimeout => exact execTrialConfirmTimeout_lands
  case targetedTestDone => exact execTargetedTestDone_lands
  case overtempStop => exact canonical_of_sameBytes (report_mem _ _)
  case linkDown | linkUp => exact fun h => reroute_canonical h
  case remoteRequest => exact execRemoteRequest_lands
  case flitReceive => exact execFlitReceive_lands
  case rekeyDue => exact rekey_canonical
  case rekeyRetry => exact execRekeyRetry_lands
  case backlogHint => exact execBacklogHint_lands
  case fwcallAnswer => exact execFwcallAnswer_lands
  case mbraStop => exact execMbraStop_lands
  case stepOpen => exact execStepOpen_lands
  case syncHoldTimeout => exact execSyncHoldTimeout_lands
  case blockLoadPerformed => exact execBlockLoadPerformed_lands
  case stackFailure => exact fun h => foldl_canonical (fun k => rowDone_canonical k) h
  case remoteErrorNak => exact execRemoteErrorNak_lands
  case droppedFrame => exact fun h => ite_canonical h (ite_canonical (pfc_canonical h) h)

theorem Lands.of_canonical {s t : State} {r : Result} (ht : s.canonical → t.canonical) (l : Lands t r) : Lands s r := by
  cases r with
  | next u => exact fun h => l (ht h)
  | fault _ => exact l
  | refused _ => exact l

theorem Issued.finish_lands {s : State} {r : Issued} (hr : s.canonical → r.canonical) : Lands s r.finish := by
  cases r with
  | run i t => exact Lands.of_canonical hr (exec_lands i)
  | idle t => exact hr

theorem Lands.next {s : State} {r : Result} (l : Lands s r) : ∃ t, r = .next t := by
  cases r with
  | next t => exact ⟨t, rfl⟩
  | fault _ => exact l.elim
  | refused _ => exact l.elim

/-- What a stopped module would refuse lands, or the module is stopped. -/
theorem ite_lands {s : State} {b : Bool} {r : Result} (hb : b = true → s.stopped = true) (l : Lands s r) :
    Lands s (if b then .fault .moduleStopped else r) ∨
      (s.stopped = true ∧ (if b then .fault .moduleStopped else r) = .fault .moduleStopped) := by
  cases b with
  | false => exact .inl l
  | true => exact .inr ⟨hb rfl, rfl⟩

/-- A step lands unless the module is stopped: the agenda's first work runs, or, with nothing on it, the issue cycle. -/
theorem step_lands (s : State) : Lands s (step s) ∨ (s.stopped = true ∧ step s = .fault .moduleStopped) := by
  unfold step
  split
  · exact ite_lands id (Lands.of_canonical id (exec_lands _))
  · split
    · exact ite_lands (fun h => (Bool.and_eq_true_iff.mp h).1) (Lands.of_canonical id (exec_lands _))
    · exact ite_lands id (Issued.finish_lands fun h => issueLane_canonical h)
    · exact ite_lands id (Issued.finish_lands fun h => issueSeq_canonical h)
    · exact ite_lands id (fun h => happen_canonical h)
    · exact ite_lands id (Issued.finish_lands fun h => issueRow_canonical h)

/-- Settles O58: every instruction, event and happening lands in a canonical state, and a step that faults has no next state. -/
theorem stepsKeepGlobalAndVaultMemoryCanonical : Obligations.StepsKeepGlobalAndVaultMemoryCanonical := by
  intro s t h e
  obtain l | ⟨_, hf⟩ := step_lands s
  · exact (congrArg (Lands s) e).mp l h
  · rw [hf] at e
    cases e

/-- Settles O56: every instruction and every event goes on, and the only fault is that of a stopped module. -/
theorem everyStepGoesOnUnlessStopped : Obligations.EveryStepGoesOnUnlessStopped := fun s =>
  (step_lands s).imp_left Lands.next

end Sys2Proof.Machine

namespace Sys2Proof.Machine

open Sys2Proof

/-! ### Decoding what the encoder wrote (02, 10 R203, 18 R342)

A word is a concatenation of its fields, so each field that a decoder extracts is the one that the encoder put there; the
opcode maps invert their numbers; and `formWords` reads the two low bits. -/

namespace Encoding

theorem ofCode_code (op : Op) : Op.ofCode op.code = some op := by
  cases op <;> rfl

theorem code_lt (op : Op) : op.code < 2 ^ 10 := by
  cases op <;> decide

theorem cOfCode_code (c : COp) : COp.ofCode c.code = some c := by
  cases c <;> rfl

theorem cCode_lt (c : COp) : c.code < 2 ^ 7 := by
  cases c <;> decide

theorem ofCode_mod (op : Op) : Op.ofCode (op.code % 1024) = some op := by
  rw [show op.code % 1024 = op.code from Nat.mod_eq_of_lt (code_lt op), ofCode_code]

theorem cOfCode_mod (c : COp) : COp.ofCode (c.code % 128) = some c := by
  rw [show c.code % 128 = c.code from Nat.mod_eq_of_lt (cCode_lt c), cOfCode_code]

theorem toNat_mod_four {n : Nat} (w : BitVec n) : w.toNat % 4 = (w.extractLsb' 0 2).toNat := by
  simp

theorem words2_join (w : W64) : w.extractLsb' 32 32 ++ w.extractLsb' 0 32 = w := BitVec.extractLsb'_append_extractLsb'

/-! #### F64 and L96 instructions -/

theorem full_ofBits (op : Op) (f : Full) : Full.ofBits (f.bits op) f.lit = f := by
  cases f
  simp (disch := decide) only [Full.ofBits, Full.bits, bit, BitVec.extractLsb'_cast, BitVec.getLsbD_cast,
    BitVec.extractLsb'_append_eq_of_add_le, BitVec.extractLsb'_append_eq_of_le, BitVec.getLsbD_append, Nat.reduceSub,
    Nat.reduceLT, BitVec.extractLsb'_eq_self, if_true, if_false, BitVec.getLsbD_ofBool]
  simp

theorem full_opcode (op : Op) (f : Full) : (f.bits op).extractLsb' 3 10 = BitVec.ofNat 10 op.code := by
  simp (disch := decide) only [Full.bits, bit, BitVec.extractLsb'_cast, BitVec.extractLsb'_append_eq_of_add_le,
    BitVec.extractLsb'_append_eq_of_le, Nat.reduceSub, BitVec.extractLsb'_eq_self]

theorem full_reserved (op : Op) (f : Full) : (f.bits op).extractLsb' 62 2 = 0#2 := by
  simp (disch := decide) only [Full.bits, bit, BitVec.extractLsb'_cast, BitVec.extractLsb'_append_eq_of_le, Nat.reduceSub,
    BitVec.extractLsb'_eq_self]

theorem full_form (op : Op) (f : Full) : (f.bits op).toNat % 4 = if f.lit.isSome then 3 else 2 := by
  rw [toNat_mod_four]
  simp (disch := decide) only [Full.bits, bit, BitVec.extractLsb'_cast, BitVec.extractLsb'_append_eq_of_add_le,
    BitVec.extractLsb'_eq_self]
  split <;> rfl

theorem decodeFull_bits {op : Op} {f : Full} (h : f.illegal op = none) :
    decodeFull (f.bits op) f.lit = .ok (.ofFull op f) := by
  simp [decodeFull, full_reserved, full_opcode, ofCode_mod, full_ofBits, h]

theorem decodeWords_full {op : Op} {f : Full} (h : f.illegal op = none) :
    decodeWords (words2 (f.bits op) ++ f.lit.toList) = .ok (.ofFull op f) := by
  have hd := decodeFull_bits h
  have hf := full_form op f
  cases hl : f.lit with
  | none =>
    rw [hl] at hd hf
    simpa [decodeWords, words2, hf, words2_join] using hd
  | some l =>
    rw [hl] at hd hf
    simpa [decodeWords, words2, hf, words2_join] using hd

/-! #### C32 instructions and pairs -/

theorem comp_ofBits (c : COp) (x : Comp) : Comp.ofBits (x.bits c) = x := by
  cases x
  simp (disch := decide) only [Comp.ofBits, Comp.bits, bit, BitVec.extractLsb'_cast, BitVec.getLsbD_cast,
    BitVec.extractLsb'_append_eq_of_add_le, BitVec.extractLsb'_append_eq_of_le, BitVec.getLsbD_append, Nat.reduceSub,
    Nat.reduceLT, BitVec.extractLsb'_eq_self, if_true, if_false, BitVec.getLsbD_ofBool]
  simp

theorem comp_opcode (c : COp) (x : Comp) : (x.bits c).extractLsb' 3 7 = BitVec.ofNat 7 c.code := by
  simp (disch := decide) only [Comp.bits, bit, BitVec.extractLsb'_cast, BitVec.extractLsb'_append_eq_of_add_le,
    BitVec.extractLsb'_append_eq_of_le, Nat.reduceSub, BitVec.extractLsb'_eq_self]

theorem comp_form (c : COp) (x : Comp) : (x.bits c).toNat % 4 = 0 := by
  rw [toNat_mod_four]
  simp (disch := decide) only [Comp.bits, bit, BitVec.extractLsb'_cast, BitVec.extractLsb'_append_eq_of_add_le,
    BitVec.extractLsb'_eq_self]
  rfl

theorem decodeWords_comp {c : COp} {x : Comp} (h : x.illegal c = none) : decodeWords [x.bits c] = .ok (.ofComp c x) := by
  simp [decodeWords, comp_form, decodeC32, comp_opcode, cOfCode_mod, comp_ofBits, h]

theorem ofComp_of_comp? {i : Instr} {c : COp} {x : Comp} (h : i.comp? = some (c, x)) : Instr.ofComp c x = i := by
  unfold Instr.comp? at h
  split at h
  case h_31 => cases h
  all_goals
    cases h
    rfl

theorem pair_ofBits (as : Bool) (h0 h1 : Half) :
    Half.ofBits0 h0.op (pairBits as h0 h1) = h0 ∧ Half.ofBits1 h1.op (pairBits as h0 h1) = h1 := by
  cases h0
  cases h1
  simp (disch := decide) only [Half.ofBits0, Half.ofBits1, pairBits, bit, BitVec.extractLsb'_cast, BitVec.getLsbD_cast,
    BitVec.extractLsb'_append_eq_of_add_le, BitVec.extractLsb'_append_eq_of_le, BitVec.getLsbD_append, Nat.reduceSub,
    Nat.reduceLT, BitVec.extractLsb'_eq_self, if_true, if_false, BitVec.getLsbD_ofBool]
  simp

theorem pair_opcodes (as : Bool) (h0 h1 : Half) :
    (pairBits as h0 h1).extractLsb' 3 7 = BitVec.ofNat 7 h0.op.code ∧
      (pairBits as h0 h1).extractLsb' 33 7 = BitVec.ofNat 7 h1.op.code := by
  simp (disch := decide) only [pairBits, bit, BitVec.extractLsb'_cast, BitVec.extractLsb'_append_eq_of_add_le,
    BitVec.extractLsb'_append_eq_of_le, Nat.reduceSub, BitVec.extractLsb'_eq_self, and_self]

theorem pair_form (as : Bool) (h0 h1 : Half) : (pairBits as h0 h1).toNat % 4 = 1 := by
  rw [toNat_mod_four]
  simp (disch := decide) only [pairBits, bit, BitVec.extractLsb'_cast, BitVec.extractLsb'_append_eq_of_add_le,
    BitVec.extractLsb'_eq_self]
  rfl

theorem pair_reserved (as : Bool) (h0 h1 : Half) :
    (pairBits as h0 h1).getLsbD 32 = false ∧ (pairBits as h0 h1).getLsbD 63 = false ∧
      (pairBits as h0 h1).getLsbD 62 = false ∧ (pairBits as h0 h1).getLsbD 2 = as := by
  simp (disch := decide) only [pairBits, bit, BitVec.getLsbD_cast, BitVec.getLsbD_append, Nat.reduceSub, Nat.reduceLT,
    if_true, if_false, BitVec.getLsbD_ofBool]
  simp

theorem decodeWords_pair {as : Bool} {h0 h1 : Half} (i0 : h0.illegal = none) (i1 : h1.illegal = none)
    (ip : pairIllegal h0 h1 = none) : decodeWords (words2 (pairBits as h0 h1)) = .ok (.p64Pair as h0 h1) := by
  obtain ⟨e0, e1⟩ := pair_ofBits as h0 h1
  obtain ⟨c0, c1⟩ := pair_opcodes as h0 h1
  obtain ⟨r0, r1, r2, ra⟩ := pair_reserved as h0 h1
  have hd : decodeP64 (pairBits as h0 h1) = .ok (.p64Pair as h0 h1) := by
    simp only [decodeP64, r0, r1, r2, ra, c0, c1, BitVec.toNat_ofNat, Nat.reducePow, cOfCode_mod, e0, e1, i0, i1, ip,
      Bool.false_eq_true, if_false]
  simpa [decodeWords, words2, pair_form, words2_join] using hd

/-! #### Sequencer words and row-program steps -/


end Encoding

end Sys2Proof.Machine

namespace Sys2Proof.Machine

open Sys2Proof

namespace Encoding

theorem decodeSeq_encodeSeq {i : Instr} {w : W32} (h : encodeSeq i = some w) : decodeSeq w = .ok i := by
  cases i
  case mbraStop =>
    obtain rfl := Option.some.inj h
    rfl
  case mma | mzero | mlda | mldb | munpin | mstF32 | mstB16 | mstQ | msparse | mloop | mbraAl | mbraZ | mbraNz | msetI | msetQ
      | msetR | maddx | mwait | msig =>
    obtain rfl := Option.some.inj h
    simp (disch := decide) only [decodeSeq, bit, BitVec.extractLsb'_cast, BitVec.getLsbD_cast,
      BitVec.extractLsb'_append_eq_of_add_le, BitVec.extractLsb'_append_eq_of_le, BitVec.getLsbD_append, Nat.reduceSub,
      Nat.reduceLT, if_true, if_false, BitVec.extractLsb'_eq_self, BitVec.reduceToNat, BitVec.getLsbD_ofBool, decide_true,
      Bool.true_and] <;> rfl
  all_goals cases h

theorem decodeStep_encodeStep {i : Instr} {w : W32} (h : encodeStep i = some w) : decodeStep w = some i := by
  cases i
  case stepEnd | stepOpen | stepClr =>
    obtain rfl := Option.some.inj h
    rfl
  case macb | mace | stepLoop =>
    obtain rfl := Option.some.inj h
    simp (disch := decide) only [decodeStep, BitVec.extractLsb'_cast, BitVec.extractLsb'_append_eq_of_add_le,
      BitVec.extractLsb'_append_eq_of_le, BitVec.extractLsb'_eq_self, Nat.reduceSub, BitVec.reduceToNat]
    rfl
  all_goals cases h

theorem encodeStep_of_encodeSeq {i : Instr} {w : W32} (h : encodeSeq i = some w) : encodeStep i = none := by
  cases i
  case stepEnd | stepOpen | stepClr | macb | mace | stepLoop => cases h
  all_goals rfl

/-- An instruction with neither a full nor a compact form that is no pair is a word of a sequencer or of a row program. -/
theorem encode_of_word {i : Instr} (hf : i.full? = none) (hc : i.comp? = none) (hp : ∀ as h0 h1, i ≠ .p64Pair as h0 h1) :
    encode i = (encodeSeq i).toList ++ (encodeStep i).toList ∧
      i.stream = if (encodeSeq i).isSome then .sequencer else if (encodeStep i).isSome then .rowProgram else .event := by
  unfold encode Instr.stream
  rw [hf, hc]
  constructor
  · dsimp only
    split
    · exact absurd rfl (hp _ _ _)
    · rfl
  · simp only [Option.isSome_none, Bool.or_self, Bool.false_eq_true, if_false]

theorem decode_word {i : Instr} (hf : i.full? = none) (hc : i.comp? = none) (hp : ∀ as h0 h1, i ≠ .p64Pair as h0 h1) :
    (i.stream = .lane → decodeWords (encode i) = .ok i) ∧
    (i.stream = .sequencer → ∃ w, encode i = [w] ∧ decodeSeq w = .ok i) ∧
    (i.stream = .rowProgram → ∃ w, encode i = [w] ∧ decodeStep w = some i) := by
  obtain ⟨he, hs⟩ := encode_of_word hf hc hp
  rw [he, hs]
  cases hq : encodeSeq i with
  | some w => simpa [encodeStep_of_encodeSeq hq] using decodeSeq_encodeSeq hq
  | none =>
    cases ht : encodeStep i with
    | some w => simpa using decodeStep_encodeStep ht
    | none => simp

end Encoding

/-- Settles O59, by the form of the instruction: a full or a compact form, a pair, a sequencer word or a row-program step. -/
theorem decodeInvertsEncode : Obligations.DecodeInvertsEncode := by
  intro i hw
  unfold Instr.wellFormed at hw
  cases hf : i.full? with
  | some x =>
    obtain ⟨op, f⟩ := x
    simp only [hf, Bool.and_eq_true, Option.isNone_iff_eq_none, beq_iff_eq] at hw
    obtain ⟨hi, hc⟩ := hw
    have hd : decodeWords (encode i) = .ok i := by
      simpa only [encode, hf, hc] using Encoding.decodeWords_full hi
    have hs : i.stream = .lane := by simp [Instr.stream, hf]
    exact ⟨fun _ => hd, fun h => absurd (hs.symm.trans h) nofun, fun h => absurd (hs.symm.trans h) nofun⟩
  | none =>
    cases hc : i.comp? with
    | some x =>
      obtain ⟨c, y⟩ := x
      simp only [hf, hc, Option.isNone_iff_eq_none] at hw
      have hd : decodeWords (encode i) = .ok i := by
        simpa only [encode, hf, hc, Encoding.ofComp_of_comp? hc] using Encoding.decodeWords_comp hw
      have hs : i.stream = .lane := by simp [Instr.stream, hf, hc]
      exact ⟨fun _ => hd, fun h => absurd (hs.symm.trans h) nofun, fun h => absurd (hs.symm.trans h) nofun⟩
    | none =>
      by_cases hp : ∃ as h0 h1, i = .p64Pair as h0 h1
      · obtain ⟨as, h0, h1, rfl⟩ := hp
        simp only [hf, hc, Bool.and_eq_true, Option.isNone_iff_eq_none] at hw
        obtain ⟨⟨i0, i1⟩, ip⟩ := hw
        exact ⟨fun _ => Encoding.decodeWords_pair i0 i1 ip, nofun, nofun⟩
      · exact Encoding.decode_word hf hc fun as h0 h1 e => hp ⟨as, h0, h1, e⟩

end Sys2Proof.Machine

namespace Sys2Proof.Machine

open Sys2Proof

/-! ### Reset, the spec's words, and what a step runs -/

/-- Settles O60: each word decodes by evaluation. -/
theorem wordsOfTheSpecDecode : Obligations.WordsOfTheSpecDecode := by
  unfold Obligations.WordsOfTheSpecDecode
  decide

/-- Settles O57: memory has no cell, so each byte reads zero, and the rest of the state is what `State.reset` writes. -/
theorem resetState : Obligations.ResetState := by
  refine ⟨⟨rfl, rfl⟩, fun _ => rfl, fun _ => rfl, rfl, rfl, rfl, rfl, rfl, rfl, rfl, rfl, rfl, rfl, rfl, rfl, rfl, rfl, rfl,
    rfl, ?_, ?_, rfl, rfl⟩
  · exact List.length_replicate
  · decide

/-- The words at an address do not depend on the groups. -/
theorem State.fetchWords_modGroup (s : State) (gid : Nat) (F : Group → Group) (core tenant n a : Nat) :
    (s.modGroup gid F).fetchWords core tenant a n = s.fetchWords core tenant a n := by
  induction n generalizing a with
  | zero => rfl
  | succ n ih =>
    have hw : (s.modGroup gid F).fetchWord core tenant a = s.fetchWord core tenant a := rfl
    simp only [State.fetchWords, hw, ih]

theorem State.fetchAt_of_decoded {s : State} {core tenant : Nat} {pc : W64} {w0 : W32} {ws : List W32} {i : Instr}
    (h0 : s.fetchWord core tenant pc.toNat = .ok w0)
    (hws : s.fetchWords core tenant (pc.toNat + 4) (formWords w0 - 1) = (ws, none)) (hd : decodeWords (w0 :: ws) = .ok i) :
    s.fetchAt core tenant pc = .instr i (w0 :: ws) := by
  simp only [State.fetchAt, h0, hws, hd]

section

variable {s : State}

theorem State.issueLane_of_decoded {gid : Nat} {pc : W64} {ls w0 : W32} {g : Group} {i : Instr} {ws : List W32}
    (hg : s.group? gid = some g) (hcan : g.canIssue s.time = true) (hl : (s.readyAt g true pc).filter (inMask ls) ≠ [])
    (h0 : s.fetchWord g.core g.tenant pc.toNat = .ok w0)
    (hws : s.fetchWords g.core g.tenant (pc.toNat + 4) (formWords w0 - 1) = (ws, none)) (hd : decodeWords (w0 :: ws) = .ok i)
    (hr : rangeTrap i g.n g.m = none) (he : g.eccDetail ((s.readyAt g true pc).filter (inMask ls)) i = none) :
    let lanes := (s.readyAt g true pc).filter (inMask ls)
    let cur : Cur := { gid := gid, pc := pc, size := 4 * (w0 :: ws).length, lanes := maskOf lanes.contains, words := w0 :: ws,
                       team := g.team }
    s.issueLane gid pc ls = .run i (State.timeResults (({ (s.modGroup gid (fun x => x.noteIssue pc lanes)).modGroup gid
      (fun g => lanes.foldl (fun g j => g.retire j (endsWindow i (g.readP j (instrGuard i).1 != (instrGuard i).2))) g)
        with cur := cur } : State).useTlb g.core g.tenant pc.toNat) i) := by
  have hf : (s.modGroup gid (fun x => x.noteIssue pc ((s.readyAt g true pc).filter (inMask ls)))).fetchAt g.core g.tenant pc =
      .instr i (w0 :: ws) := State.fetchAt_of_decoded h0 ((s.fetchWords_modGroup ..).trans hws) hd
  have hne : ((s.readyAt g true pc).filter (inMask ls)).isEmpty = false := List.isEmpty_eq_false_iff.mpr hl
  unfold State.issueLane
  rw [hg]
  dsimp only
  rw [hcan, hne, hf]
  dsimp only
  rw [hr, he]
  rfl

theorem State.issueSeq_of_decoded {id : Nat} {t : Team} {q : Sequencer} {w : W32} {i : Instr} {s1 : State}
    (ht : s.team? id = some t) (hq : t.seq = some q) (hst : q.st = .running ∨ q.st = .blocked)
    (hp : s.preempting id = false) (hu : s.underTest 6 (t.core * 4 + q.slot) = false) (hx : s.textHeld t.tenant q.pc = false)
    (hf : s.fetchSeq t q.pc.toNat = .ok (w, s1)) (hd : decodeSeq w = .ok i) :
    s.issueSeq id = .run i { s1 with cur := { team := id, pc := q.pc, size := 4, words := [w] } } := by
  have hseq : s.seq? id = some q := by simp [State.seq?, ht, hq]
  have hgo : (q.st != .running && q.st != .blocked) = false := by
    obtain h | h := hst <;> rw [h] <;> rfl
  simp only [State.issueSeq, ht, hseq, hgo, hp, hu, hx, hf, hd, Bool.or_self, Bool.false_eq_true, if_false]

theorem State.issueRow_of_decoded {id : Nat} {c : RowCmd} {i : Instr} (hc : s.row? id = some c) (hst : c.st = .run)
    (hd : decodeStep (c.steps.getD (s.near c.stack c.pch).rpc 0) = some i) :
    s.issueRow id = .run i { s with
      cur := { team := c.team, cmd := id, size := 4, words := [c.steps.getD (s.near c.stack c.pch).rpc 0] } } := by
  have hrun : (c.st != .run) = false := by rw [hst]; rfl
  simp only [State.issueRow, hc, hrun, hd, Bool.false_eq_true, if_false]

end

/-- The work at the head of the agenda, with the state after it is taken off. -/
theorem step_of_agenda {s : State} {w : Work} {r : List Work} (hs : s.stopped = false) (h : s.agenda = w :: r) :
    step s = match w with
      | .event i x => exec i { s with agenda := r, ev := x, cur := {} }
      | .lane gid pc ls => (({ s with agenda := r } : State).issueLane gid pc ls).finish
      | .seq team => (({ s with agenda := r } : State).issueSeq team).finish
      | .outside x => .next (({ s with agenda := r, ev := {}, cur := {} } : State).happen x)
      | .row cmd => (({ s with agenda := r } : State).issueRow cmd).finish := by
  unfold step
  split
  next e => exact absurd (h.symm.trans e) nofun
  next w r e =>
    cases e.symm.trans h
    cases w <;> simp [hs]

/-- Settles O55, for each kind of work at the head of the agenda. -/
theorem stepRunsDecodedInstruction : Obligations.StepRunsDecodedInstruction := by
  intro s r hs s0
  refine ⟨?lane, ?seq, ?row, ?event, ?outside, ?idle⟩
  case lane =>
    intro gid pc ls g i w0 ws ha hg hcan hl h0 hws hd hr he
    exact (step_of_agenda hs ha).trans (congrArg Issued.finish (State.issueLane_of_decoded hg hcan hl h0 hws hd hr he))
  case seq =>
    intro id t q w i s1 ha ht hq hst hp hu hx hf hd
    exact (step_of_agenda hs ha).trans (congrArg Issued.finish (State.issueSeq_of_decoded ht hq hst hp hu hx hf hd))
  case row =>
    intro id c i ha hc hst w hd
    exact (step_of_agenda hs ha).trans (congrArg Issued.finish (State.issueRow_of_decoded hc hst hd))
  case event => exact fun i x ha => step_of_agenda hs ha
  case outside => exact fun x ha => step_of_agenda hs ha
  case idle =>
    intro ha
    unfold step
    split
    · simp [hs, ha]
    next e => exact absurd (ha.symm.trans e) nofun

end Sys2Proof.Machine

namespace Sys2Proof.Machine

open Sys2Proof

/-! ### Barriers (09 R181 to R184, 10 R201)

Nothing in a state says that the numbers of its groups differ, and `State.modGroup` changes every group of a number. The last
clause of `BarrierArrivals` reads the phase that a lane waits for in the team of each group it changes, `MBAR` in the team of
the issuing group alone; the two differ where a second group has the number and another team. -/

/-- Operands of an `MBAR` with `FAM` on barrier 0, its format word in register 8. -/
def mbarForm : Full :=
  { as := false, dst := 0, sa := 8, sb := 0, sc := 0, gp := 0, gn := false, la := 0, mod := 0, lit := none }

/-- A group of team `team`, its lanes at address 0. -/
def twinGroup (team : Nat) : Group := { id := 7, team := team, n := 256, m := 32, lanes := List.replicate 32 {} }

/-- A machine on lane 0 of group 7 of team 3, whose barrier 0 is in phase 1; another group 7 belongs to no placed team. -/
def twinGroups : State :=
  { State.reset with
    groups := [twinGroup 3, twinGroup 4]
    teams := [{ id := 3, size := 1, bars := [{ phase := true }], seq := some {} }]
    cur := { gid := 7, size := 8, lanes := 1, team := 3 } }

/-- What lane 0 of each group waits for after a result. -/
def Result.waits : Result → List LaneWait
  | .next t => t.groups.map (fun g => (g.lane 0).wait)
  | _ => []

theorem twinGroups_mbar_ready : Ready twinGroups .mbar mbarForm where
  here := by decide
  alive := by
    have all : ∀ i < 32, ((twinGroups.group 7).lane i).ended = false ∧ ((twinGroups.group 7).lane i).pend = [] := by decide
    exact fun i hi => all i (lt_of_inMask hi)
  tx := by decide
  safe := by decide
  legal := by decide
  range := by decide
  budget := by decide

/-- `MBAR` reads the phase that both groups wait for in the team of the issuing group. -/
theorem twinGroups_mbar_waits :
    Result.waits (exec (.mbar mbarForm) twinGroups) = [LaneWait.num 0 true true, LaneWait.num 0 true true] := by decide

/-- Refutes O17: with two groups of one number, the statement's `MBAR` lets the second wait for the phase of its own team, the
model's for that of the issuing group's team. -/
theorem not_barrierArrivals : ¬ Obligations.BarrierArrivals := by
  unfold Obligations.BarrierArrivals
  intro h
  obtain ⟨-, -, -, -, -, mbar⟩ := h twinGroups mbarForm (by decide)
  have claimed := mbar {} 0 twinGroups_mbar_ready ⟨by decide, by decide⟩ (by decide) (by decide) (by decide) (by decide) (by decide)
    (by decide)
  exact absurd (twinGroups_mbar_waits.symm.trans (congrArg Result.waits claimed)) (by decide)

end Sys2Proof.Machine

namespace Sys2Proof.Machine

open Sys2Proof

/-! ### Queue bindings and flushes (09 R191, R194) -/

/-- A fold of steps that keep the current issue keeps it. -/
theorem State.foldl_cur {α : Type} (F : State → α → State) (hF : ∀ s a, (F s a).cur = s.cur) (l : List α) (s : State) :
    (l.foldl F s).cur = s.cur := by
  induction l generalizing s with
  | nil => rfl
  | cons a r ih => exact (ih (F s a)).trans (hF s a)

@[simp] theorem State.wakeQueue_cur (s : State) (team q : Nat) (push : Bool) : (s.wakeQueue team q push).cur = s.cur :=
  State.foldl_cur (fun s (x : Nat × Nat) =>
    s.modLane x.1 x.2 (fun l => if l.park == 3 && l.aux == q then { l with park := 0 } else l)) (fun _ _ => rfl) _ s

@[simp] theorem State.wakeAll_cur (s : State) (team q : Nat) : (s.wakeAll team q).cur = s.cur :=
  State.foldl_cur (fun s (x : Nat × Nat) =>
    s.modLane x.1 x.2 (fun l => if l.park == 3 && l.aux == q then { l with park := 0 } else l)) (fun _ _ => rfl) _ s

@[simp] theorem State.endFill_cur (s : State) (team line : Nat) : (s.endFill team line).cur = s.cur :=
  (apply_ite State.cur _ _ _).trans (ite_self _)

theorem State.flushQueue_cur {s t : State} {gid q : Nat} {en : List Nat} (h : s.flushQueue gid en q = some t) :
    t.cur = s.cur := by
  unfold State.flushQueue at h
  dsimp only at h
  split at h
  · cases h; rfl
  · cases h; rfl
  · cases h; rfl
  · split at h
    · cases h
    · cases h
      rw [State.wakeQueue_cur]
      split
      · exact State.foldl_cur _ (fun s (e : QEntry) => State.endFill_cur s _ _) _ _
      · rfl

/-- Settles O23: `QFLUSH` and `QBIND` are whole-issue instructions whose body lets every enabled lane go on. -/
theorem queueBindingAndFlushing : Obligations.QueueBindingAndFlushing := by
  intro s f hen
  refine ⟨fun t h hflush => ?flush, fun h hq hok => ⟨fun hport hinst => ?same, fun t hother hflush => ?other⟩⟩
  case flush =>
    have hq : noQueue .qflush f := noQueue_of_fields h.legal rfl nofun (.inl rfl)
    refine congrArg _ (groupExec_of_go h hq hen ?_ (State.flushQueue_cur hflush))
    simp only [State.group_id, hflush]
  case same =>
    refine congrArg _ (groupExec_of_go h hq hen ?_ rfl)
    simp only [poppedBy_zero, hok, hport, hinst, beq_self_eq_true, Bool.and_self, Bool.not_true, Bool.false_eq_true, if_true,
      if_false]
  case other =>
    refine congrArg _ (groupExec_of_go h hq hen ?body ?cur)
    case cur => exact (State.wakeAll_cur _ _ _).trans (State.flushQueue_cur hflush)
    have hnew := Bool.eq_false_iff.2 fun e => hother.elim (fun hp => hp (beq_iff_eq.1 (Bool.and_eq_true_iff.1 e).1))
      fun hi => hi (beq_iff_eq.1 (Bool.and_eq_true_iff.1 e).2)
    simp only [poppedBy_zero, hok, hnew, State.group_id, hflush, Bool.not_true, Bool.false_eq_true, if_false]

end Sys2Proof.Machine

namespace Sys2Proof.Machine

open Sys2Proof

/-! ### Lanes whose result depends on their own lane in the middle of an issue -/

section
variable {s : State} {op : Op} {f : Full} {body : State → Group → List (Nat × W64) → Nat → LaneStep}
  {vals : Nat → List W64} {fl : Nat → FlagSet}

theorem Run.plainLanes_res (h : Ready s op f) (hq : noQueue op f) (hla : (f.la == 0 || !f.isLong op) = true)
    (hb : ∀ t g1 ds, Mid s t (s.group s.cur.gid) g1 ds (fun i => destVals (dest op f) (vals i)) fl → ∀ i ∈ s.enabledFor f,
      body t (s.group s.cur.gid) (s.noneGot f) i = .res t (vals i) (fl i))
    (ls : List Nat) (hsub : ∀ i ∈ ls, i ∈ s.enabledFor f) (r : Run) (g1 : Group) (ds : List Nat)
    (hm : Mid s r.s (s.group s.cur.gid) g1 ds (fun i => destVals (dest op f) (vals i)) fl)
    (hset : r.set = (s.group s.cur.gid).txSet) (hroom : r.full = []) :
    ∃ t g2, ls.foldl (fun r i => r.plainLane s op f body i) r = { r with s := t, done := r.done ++ ls } ∧
      Mid s t (s.group s.cur.gid) g2 (ds ++ ls) (fun i => destVals (dest op f) (vals i)) fl := by
  induction ls generalizing r g1 ds with
  | nil => exact ⟨r.s, g1, by simp, by simpa using hm⟩
  | cons i ls ih =>
    have hi := hsub i List.mem_cons_self
    obtain ⟨lt, on⟩ := mem_enabledFor hi
    obtain ⟨t, g2, first, mid⟩ := Run.lane_res (got := s.noneGot f) (body := fun t g _ i => body t g (s.noneGot f) i) hm hset
      hroom h.tx hq lt (dest_isReg h hq) hla (h.alive i on).1 (h.alive i on).2 (hb r.s g1 ds hm i hi)
    obtain ⟨t', g3, rest, mid'⟩ := ih (fun j hj => hsub j (List.mem_cons_of_mem _ hj))
      { r with s := t, done := r.done ++ [i] } g2 (ds ++ [i]) mid hset hroom
    refine ⟨t', g3, ?_, by simpa using mid'⟩
    rw [List.foldl_cons, show r.plainLane s op f body i = { r with s := t, done := r.done ++ [i] } from first, rest]
    simp

/-- What an issue leaves on which every lane completes, its result taken from the state at its turn. -/
theorem laneExec_effect_of_mid (h : Ready s op f) (hq : noQueue op f) (hla : (f.la == 0 || !f.isLong op) = true)
    (hb : ∀ t g1 ds, Mid s t (s.group s.cur.gid) g1 ds (fun i => destVals (dest op f) (vals i)) fl → ∀ i ∈ s.enabledFor f,
      body t (s.group s.cur.gid) (s.noneGot f) i = .res t (vals i) (fl i)) :
    LaneEffect s (laneExec op f s body) f (fun i => destVals (dest op f) (vals i)) fl := by
  obtain ⟨t, g2, run, mid⟩ := Run.plainLanes_res h hq hla hb (s.enabledFor f) (fun _ hi => hi) s.openRun _ [] (Mid.start h.here _ _)
    rfl rfl
  rw [laneExec_of_noQueue body h hq, run]
  exact Run.close_res rfl (by simpa using mid) (List.nil_append _) rfl rfl rfl h.tx h.alive

end

/-- Where no lane raises a flag, the lanes stay as they were until the issue ends. -/
theorem Mid.lane_of_no_flag {s t : State} {g g1 : Group} {ds : List Nat} {out : Nat → List (RCell × W64)}
    (h : Mid s t g g1 ds out (fun _ => 0)) (i : Nat) : g1.lane i = g.lane i := by
  rw [h.lanes i]
  simp

/-! ### Reads of system registers (09 R188, R189, R193) -/

/-- A system register does not depend on what the lanes of an issue write. -/
theorem Mid.readSr {s t : State} {g g1 : Group} {ds : List Nat} {out : Nat → List (RCell × W64)}
    (h : Mid s t g g1 ds out (fun _ => 0)) (i n : Nat) : t.readSr g1 i n = s.readSr g i n := by
  calc
    t.readSr g1 i n = t.readSr { g1 with lanes := g.lanes } i n := by
      unfold State.readSr
      rw [h.lane_of_no_flag i]
      rfl
    _ = t.readSr { g1 with g := g.g, w := g.w, p := g.p, k := g.k, bad := g.bad, kser := g.kser, lanes := g.lanes } i n := rfl
    _ = t.readSr g i n := by rw [h.frame]
    _ = ({ t with groups := s.groups } : State).readSr g i n := rfl
    _ = s.readSr g i n := by rw [h.only.rest]

/-- The counts of a queue do not depend on what the lanes of an issue write. -/
theorem Mid.queueCounts {s t : State} {g1 : Group} {ds : List Nat} {out : Nat → List (RCell × W64)}
    (h : Mid s t (s.group s.cur.gid) g1 ds out (fun _ => 0)) (team q i : Nat) :
    t.queueCounts team q s.cur.gid i = s.queueCounts team q s.cur.gid i := by
  have teams : t.team team = s.team team := (congrArg (State.team · team) h.only.rest :)
  unfold State.queueCounts
  rw [teams, State.group_of_group? h.here, h.lane_of_no_flag i]

theorem OnlyGroup.time {s t : State} (h : OnlyGroup s t) : t.time = s.time := (congrArg State.time h.rest :)
theorem OnlyGroup.ticks {s t : State} (h : OnlyGroup s t) : t.ticks = s.ticks := (congrArg State.ticks h.rest :)
theorem OnlyGroup.cores {s t : State} (h : OnlyGroup s t) : t.cores = s.cores := (congrArg State.cores h.rest :)
theorem OnlyGroup.team {s t : State} (h : OnlyGroup s t) (id : Nat) : t.team id = s.team id := (congrArg (State.team · id) h.rest :)

/-- Settles O21: the register is the same for every lane of the issue, at its turn. -/
theorem systemRegisterReads : Obligations.SystemRegisterReads := by
  intro f
  refine ⟨?time, ?cyc, computes_of_alu _ (fun _ => rfl) fun _ _ _ _ => rfl, fun s h hq hla => ?counts, fun s h hq hsome => ?rdsr⟩
  case time =>
    refine computes_of_body (fun _ s g _ _ => finishAlu s .clock f g [w64 s.time] 0) (fun _ => rfl) fun s _ hq t only i _ => ?_
    rw [finishAlu_of_noQueue hq, only.time]
  case cyc =>
    refine computes_of_body (fun _ s g _ _ => finishAlu s .clock f g [w64 ((s.ticks - (s.cores.getD g.core {}).reset) / 5)] 0)
      (fun _ => rfl) fun s _ hq t only i _ => ?_
    rw [finishAlu_of_noQueue hq, only.ticks, only.cores]
  case counts =>
    refine ⟨_, rfl, laneExec_effect_of_mid h hq (by simp [hla]) fun t g1 ds mid i hi => ?_⟩
    simp only [State.group_id, mid.queueCounts, mid.only.team]
    rw [finishAlu_of_noQueue hq]
    simp only [beq_iff_eq, apply_ite w64]
    rfl
  case rdsr =>
    refine ⟨_, rfl, laneExec_effect_of_mid h hq (by simp [not_isLong hq rfl (by decide)]) fun t g1 ds mid i hi => ?_⟩
    obtain ⟨v, hv⟩ := Option.isSome_iff_exists.1 (hsome i hi)
    simp only [State.group_id, State.group_of_group? mid.here, mid.readSr, hv]
    rfl

end Sys2Proof.Machine

namespace Sys2Proof.Machine

open Sys2Proof

/-! ### A start of the sequencer (10 R199)

`WRSR` to `MSEQPC` is an instruction of the whole issue: its enabled lanes go on before the lanes whose guard is false, where
the statement lets all go on from the lowest. The order shows in a second group of the same number (nothing in a state says that
there is none), whose lanes are owed the same register of the whole group. -/

/-- Operands of a `WRSR` to `MSEQPC` from register 8, guarded by predicate 1. -/
def seqStartForm : Full :=
  { as := false, dst := 0, sa := 8, sb := 0x50, sc := 0, gp := 1, gn := false, la := 0, mod := 0, lit := none }

/-- A lane that is owed a value for `k0`. -/
def owedLane (v : W64) : Lane := { pend := [{ serial := 1, window := 0, cells := [(.k 0, some v)] }] }

/-- A machine on lanes 0 and 1 of group 7, predicate 1 true on lane 1 alone; both lanes of another group 7 are owed `k0`. -/
def owedTwins : State :=
  { State.reset with
    groups := [(twinGroup 3).writeP 1 1 true, { twinGroup 4 with lanes := [owedLane 1, owedLane 2] }]
    teams := [{ id := 3, seq := some {} }]
    cur := { gid := 7, size := 8, lanes := 3, team := 3 } }

/-- The register `k0` of each group after a result. -/
def Result.k0s : Result → List W64
  | .next t => t.groups.map (fun g => g.readK 0)
  | _ => []

theorem owedTwins_enabled : OneLane owedTwins seqStartForm 1 := by
  show owedTwins.enabledFor seqStartForm = [1]
  decide

theorem owedTwins_ready : Ready owedTwins .wrsr seqStartForm where
  here := by decide
  alive := by
    have all : ∀ i < 32, ((owedTwins.group 7).lane i).ended = false ∧ ((owedTwins.group 7).lane i).pend = [] := by decide
    exact fun i hi => all i (lt_of_inMask hi)
  tx := by decide
  safe := by decide
  legal := by decide
  range := by decide
  budget := by decide

/-- Lane 1 goes on first, and the value that lane 0 is owed stands last. -/
theorem owedTwins_k0s : Result.k0s (exec (.wrsrMseqpc seqStartForm) owedTwins) = [0, 1] := by decide

/-- Refutes O22: the start of a sequencer lets lane 1 go on before lane 0. -/
theorem not_systemRegisterWrites : ¬ Obligations.SystemRegisterWrites := by
  unfold Obligations.SystemRegisterWrites
  rintro ⟨-, h⟩
  obtain ⟨-, -, -, -, start, -⟩ := h owedTwins seqStartForm 1 owedTwins_enabled owedTwins_ready ⟨by decide, by decide⟩
  have claimed := start {} (by decide) (by decide) (by decide) (.inl (by decide)) (by decide)
  exact absurd (owedTwins_k0s.symm.trans (congrArg Result.k0s claimed)) (by decide)

end Sys2Proof.Machine

namespace Sys2Proof.Machine

open Sys2Proof

/-! ### What a write at its home changes (11 R225, 17 R309, R312) -/

/-- Nothing but memory, the L1s, the homes, the memory-side cache, the ports, the queues and what leaves the module differs from
`s` in `t`; no group and no launch, above all. -/
structure HomeOnly (s t : State) : Prop where
  rest : { t with mem := s.mem, l1 := s.l1, homes := s.homes, msc := s.msc, mscB := s.mscB, predict := s.predict, l1use := s.l1use,
                  queues := s.queues, ports := s.ports, routes := s.routes, free := s.free, answers := s.answers, events := s.events,
                  outbox := s.outbox, ehp := s.ehp, errors := s.errors } = s

theorem HomeOnly.refl (s : State) : HomeOnly s s := ⟨rfl⟩

theorem HomeOnly.trans {s t u : State} (h : HomeOnly s t) (k : HomeOnly t u) : HomeOnly s u :=
  ⟨(congrArg (fun x : State =>
    { x with mem := s.mem, l1 := s.l1, homes := s.homes, msc := s.msc, mscB := s.mscB, predict := s.predict, l1use := s.l1use,
             queues := s.queues, ports := s.ports, routes := s.routes, free := s.free, answers := s.answers, events := s.events,
             outbox := s.outbox, ehp := s.ehp, errors := s.errors }) k.rest).trans h.rest⟩

theorem HomeOnly.foldl {α : Type} (F : State → α → State) (hF : ∀ s a, HomeOnly s (F s a)) (l : List α) (s : State) :
    HomeOnly s (l.foldl F s) := by
  induction l generalizing s with
  | nil => exact .refl s
  | cons a l ih => exact (hF s a).trans (ih _)

theorem HomeOnly.groups {s t : State} (h : HomeOnly s t) : t.groups = s.groups := (congrArg State.groups h.rest :)
theorem HomeOnly.cur {s t : State} (h : HomeOnly s t) : t.cur = s.cur := (congrArg State.cur h.rest :)
theorem HomeOnly.launches {s t : State} (h : HomeOnly s t) : t.launches = s.launches := (congrArg State.launches h.rest :)

theorem HomeOnly.mscPlace (s : State) (fresh : MscLine) : HomeOnly s (s.mscPlace fresh) := by
  unfold State.mscPlace
  dsimp only
  split
  · exact ⟨rfl⟩
  · split <;> exact ⟨rfl⟩

/-- A touch leaves the cache, marks a line of it, or places one. -/
theorem State.mscTouch_cases (s : State) (pa hint : Nat) (write whole : Bool) (P : State → Prop) (none : P s)
    (mark : ∀ l, P { s with l1use := s.l1use + 1, msc := l })
    (place : ∀ l, P (State.mscPlace { s with l1use := s.l1use + 1 } l)) : P (s.mscTouch pa hint write whole) := by
  rw [State.mscTouch]
  split
  · exact none
  · dsimp only
    split
    · exact mark _
    · exact place _

theorem HomeOnly.mscTouch (s : State) (pa hint : Nat) (write whole : Bool) : HomeOnly s (s.mscTouch pa hint write whole) := by
  have counted : HomeOnly s { s with l1use := s.l1use + 1 } := ⟨rfl⟩
  exact State.mscTouch_cases s pa hint write whole (HomeOnly s) (.refl s) (fun _ => ⟨rfl⟩) fun l => counted.trans (.mscPlace _ l)

theorem HomeOnly.touchWritten (s : State) (w : HWrite) (bs : List (Nat × Byte)) : HomeOnly s (s.touchWritten w bs) := by
  unfold State.touchWritten
  refine HomeOnly.foldl _ (fun u x => ?_) _ s
  exact HomeOnly.mscTouch _ _ _ _ _

theorem HomeOnly.sendTo (s : State) (pa : Nat) : HomeOnly s (s.sendTo pa) := by
  unfold State.sendTo
  split <;> exact ⟨rfl⟩

theorem HomeOnly.answerTo (s : State) (src tag pa : Nat) (a : RemoteAnswer) : HomeOnly s (s.answerTo src tag pa a) := by
  have listed : HomeOnly s { s with answers := s.answers ++ [(src, tag, a)] } := ⟨rfl⟩
  exact listed.trans (.sendTo _ _)

theorem HomeOnly.request (s : State) (core : Option Nat) (line till : Nat) : HomeOnly s (s.request core line till) := by
  unfold State.request
  split
  · exact .refl s
  · unfold State.sendOn
    dsimp only
    split <;> exact ⟨rfl⟩

theorem HomeOnly.sendEvent (s : State) (session : Nat) (body : List Byte) : HomeOnly s (s.sendEvent session body) := by
  unfold State.sendEvent
  split <;> exact ⟨rfl⟩

theorem HomeOnly.report (s : State) (e : ErrorRec) : HomeOnly s (s.report e) := by
  refine .trans (t := if capIs s.errCap 4 then
    { s with errors := (s.errors ++ [{ e with time := s.time }]).drop ((s.errors.length + 1) - 4096) } else s) ?_
    (.foldl _ (fun s _ => .sendEvent s _ _) _ _)
  split
  · exact ⟨rfl⟩
  · exact .refl s

theorem HomeOnly.discard (s : State) (line : Nat) (writers : List Nat) : HomeOnly s (s.discard line writers) :=
  .foldl _ (fun s _ => .report s _) _ s

/-- Nothing but what a write of bytes at its home changes differs from `s` in `t`: of a group outside a transaction, its
completion time. -/
structure WriteOnly (s t : State) : Prop where
  cur   : t.cur = s.cur
  group : ∀ gid g, s.group? gid = some g → g.tx = none → ∃ w, t.group? gid = some { g with wctime := w }

theorem WriteOnly.refl (s : State) : WriteOnly s s := ⟨rfl, fun _ g h _ => ⟨g.wctime, h⟩⟩

theorem WriteOnly.trans {s t u : State} (h : WriteOnly s t) (k : WriteOnly t u) : WriteOnly s u :=
  ⟨k.cur.trans h.cur, fun gid g hg htx => by
    obtain ⟨w, hw⟩ := h.group gid g hg htx
    exact k.group gid { g with wctime := w } hw htx⟩

theorem WriteOnly.foldl {α : Type} (F : State → α → State) (hF : ∀ s a, WriteOnly s (F s a)) (l : List α) (s : State) :
    WriteOnly s (l.foldl F s) := by
  induction l generalizing s with
  | nil => exact .refl s
  | cons a l ih => exact (hF s a).trans (ih _)

theorem HomeOnly.write {s t : State} (h : HomeOnly s t) : WriteOnly s t :=
  ⟨h.cur, fun gid g hg _ => ⟨g.wctime, by rw [State.group?, h.groups]; exact hg⟩⟩

theorem WriteOnly.complete (s : State) (gid : Option Nat) (t : Nat) : WriteOnly s (s.complete gid t) := by
  unfold State.complete
  split
  next => exact .refl s
  next id =>
    split
    next =>
      refine ⟨rfl, fun j g hg _ => ?_⟩
      by_cases h : j = id
      · subst h
        refine ⟨max g.wctime t, ?_⟩
        rw [State.group?_modGroup s j (fun g => { g with wctime := max g.wctime t }) fun _ => rfl, hg]
        rfl
      · exact ⟨g.wctime, (State.group?_modGroup_ne s (fun g => { g with wctime := max g.wctime t }) (fun _ => rfl) h).trans hg⟩
    next => exact ⟨rfl, fun _ g hg _ => ⟨g.wctime, hg⟩⟩

theorem Group.txKill_id (g : Group) (cause code : Nat) : (g.txKill cause code).id = g.id := by
  unfold Group.txKill
  split
  · rfl
  · split <;> rfl

/-- A conflict only kills open transactions. -/
theorem WriteOnly.txWriteConflict (s : State) (line : Nat) (other : Group → Bool) : WriteOnly s (s.txWriteConflict line other) := by
  let hit := fun g : Group => match g.tx with
    | none => g
    | some t => if (t.reads.contains line || t.writes.contains line) && other g then g.txKill 1 0 else g
  have ids : ∀ g, (hit g).id = g.id := fun g => by
    simp only [hit]
    split
    · rfl
    · split
      · exact g.txKill_id 1 0
      · rfl
  refine ⟨rfl, fun gid g hg htx => ⟨g.wctime, ?_⟩⟩
  have find : (s.groups.map hit).find? (fun g => g.id == gid) = (s.group? gid).map hit := by
    rw [List.find?_map, State.group?]
    exact congrArg (Option.map hit) (congrArg (List.find? · s.groups) (funext fun g => by simp [ids]))
  refine find.trans ?_
  have still : hit g = g := by simp only [hit, htx]
  exact (congrArg (Option.map hit) hg).trans (congrArg some still)

theorem WriteOnly.completeAll (s : State) (w : HWrite) (t : Nat) : WriteOnly s (s.completeAll w t false) :=
  .foldl (fun s id => s.complete (some id) t) (fun s id => .complete s (some id) t) _ s

/-- Bytes that are performed at their home. -/
theorem WriteOnly.perform (s : State) (line : Nat) (w : HWrite) (t : Nat) {bs : List (Nat × Byte)} (hop : w.op = .store bs) :
    WriteOnly s (s.perform line w t) := by
  have given : ∀ (u : State) old, u.giveOld w old t = u := fun u old => by
    unfold State.giveOld
    rw [hop]
    split <;> rfl
  have shown : ∀ u : State, HomeOnly u (u.showSignal line) := fun u => ⟨rfl⟩
  have stored : HomeOnly s { s with mem := Memory.setCells s.mem (w.op.apply s.mem).1 } := ⟨rfl⟩
  unfold State.perform State.performBytes
  refine .trans ?_ (HomeOnly.touchWritten _ _ _).write
  dsimp only
  rw [given]
  refine .trans (.trans stored.write (.trans (.txWriteConflict _ line w.isOther) (.completeAll _ w t))) ?_
  split
  · exact (shown _).write
  · exact ((HomeOnly.answerTo _ _ _ _ _).trans (shown _)).write

/-- Bytes that reach their home. -/
theorem WriteOnly.writeAtHome (s : State) (line : Nat) (w : HWrite) {bs : List (Nat × Byte)} (hop : w.op = .store bs) :
    WriteOnly s (s.writeAtHome line w) := by
  have queued : ∀ (u : State) h, HomeOnly u (u.setHome h) := fun u h => ⟨rfl⟩
  unfold State.writeAtHome
  dsimp only
  split
  · exact ((HomeOnly.trans (t := s.drawNat.2) ⟨rfl⟩ (.request _ _ _ _)).trans (queued _ _)).write
  · split
    · exact (queued _ _).write
    · split
      · exact .perform s line { w with sent := s.ticks } _ hop
      · split <;> exact (queued _ _).write

theorem WriteOnly.writeBack (s : State) (core line : Nat) (also : Sparse Nat) : WriteOnly s (s.writeBack core line also) := by
  have cleaned : ∀ l, HomeOnly s (s.setL1 l) := fun l => ⟨rfl⟩
  have dropped : ∀ u : State, HomeOnly u (u.dropL1 core line) := fun u => ⟨rfl⟩
  unfold State.writeBack
  split
  next => exact .refl s
  next l _ =>
    split
    next => exact .refl s
    next =>
      refine (cleaned { l with dirty := [], since := none, owners := [], hints := [] }).write.trans ?_
      dsimp only
      split
      · exact ((dropped _).trans (.discard _ _ _)).write
      · exact .foldl _ (fun u o => .writeAtHome u line _ rfl) _ _

theorem WriteOnly.writeBackGroup (s : State) (gid : Nat) : WriteOnly s (s.writeBackGroup gid) :=
  .foldl (fun u (l : L1Line) => u.writeBack l.core l.line) (fun u l => .writeBack u l.core l.line _) _ s

/-- An access that only writes back keeps its group, outside a transaction, but for the completion time. -/
theorem WriteOnly.accessKeeps {s t : State} (h : WriteOnly s t) (here : (s.group? s.cur.gid).isSome = true)
    (htx : (s.group s.cur.gid).tx = none) : AccessKeeps s t := by
  obtain ⟨g, hg⟩ := Option.isSome_iff_exists.1 here
  rw [State.group_of_group? hg] at htx
  refine ⟨h.cur, ?_⟩
  rw [State.group_of_group? hg]
  exact h.group _ g hg htx

end Sys2Proof.Machine

namespace Sys2Proof.Machine

open Sys2Proof

/-! ### Software traps and firmware calls (09 R186, R187) -/

/-- Lanes of an issue that go on leave everything but themselves. -/
theorem State.goOn_group {s : State} {op : Op} {f : Full} (h : Ready s op f) {ls : List Nat} (hn : ls.Nodup)
    (hls : ∀ i ∈ ls, inMask s.cur.lanes i = true) :
    ∃ g1, (s.goOn ls).group? s.cur.gid = some g1 ∧ { g1 with lanes := (s.group s.cur.gid).lanes } = s.group s.cur.gid ∧
      ∀ j, (g1.lane j).pc = if j ∈ ls then s.pastPc j else ((s.group s.cur.gid).lane j).pc := by
  obtain ⟨g, hg⟩ := Option.isSome_iff_exists.1 h.here
  have alive := h.alive
  have own := State.group_of_group? hg
  rw [own] at alive
  obtain ⟨frame, lane⟩ := Group.advanceAll_lanes ls s.cur.size hn g fun i hi =>
    ⟨(alive i (hls i hi)).2, Group.lane_lt (alive i (hls i hi)).1⟩
  refine ⟨g.advanceAll ls s.cur.size, ?_, own ▸ frame, fun j => ?_⟩
  · rw [State.goOn, State.group?_modGroup _ _ (fun g => g.advanceAll ls s.cur.size) fun g => g.advanceAll_id ls _, hg]
    rfl
  · rw [lane j, State.pastPc, own]
    split <;> rfl

theorem State.mem_disabledFor {s : State} {f : Full} {i : Nat} (h : i ∈ s.disabledFor f) :
    inMask s.cur.lanes i = true ∧ i ∉ s.enabledFor f := by
  obtain ⟨hi, he⟩ := List.mem_filter.1 h
  exact ⟨(inMask_lanesOf.1 hi).2, by simpa using he⟩

theorem State.mem_disabledFor_iff {s : State} {f : Full} {i : Nat} (hi : inMask s.cur.lanes i = true) :
    i ∈ s.disabledFor f ↔ i ∉ s.enabledFor f := by
  simp [State.disabledFor, inMask_lanesOf.2 ⟨lt_of_inMask hi, hi⟩]

theorem disabledFor_nodup (s : State) (f : Full) : (s.disabledFor f).Nodup := (lanesOf_nodup _).sublist List.filter_sublist

section
variable {s : State} {op : Op} {f : Full} {body : State → Group → List (Nat × W64) → Nat → LaneStep} {x : Trap}

theorem Run.lanes_trap (h : Ready s op f) (hx : x.isMem = false)
    (hb : ∀ i ∈ s.enabledFor f, body s (s.group s.cur.gid) (s.noneGot f) i = .trap x) (ls : List Nat)
    (hsub : ∀ i ∈ ls, i ∈ s.enabledFor f) (traps : List (Nat × Trap)) (back : List (Nat × W64)) :
    ∃ back', ls.foldl (fun r i => r.plainLane s op f body i) { s.openRun with traps := traps, back := back } =
      { s.openRun with traps := traps ++ ls.map (fun i => (i, x)), back := back' } := by
  induction ls generalizing traps back with
  | nil => exact ⟨back, by simp⟩
  | cons i ls ih =>
    have hi := hsub i List.mem_cons_self
    have takes : ({ s.openRun with traps := traps, back := back } : Run).Takes i :=
      ⟨(State.openRun_takes h hi).alive, (State.openRun_takes h hi).stays, rfl⟩
    have step : ({ s.openRun with traps := traps, back := back } : Run).plainLane s op f body i =
        { s.openRun with traps := traps ++ [(i, x)], back := back ++ [(i, poppedBy (s.noneGot f) i)] } :=
      Run.lane_of_trap takes (by rw [hx]; rfl) (hb i hi)
    obtain ⟨back', rest⟩ := ih (fun j hj => hsub j (List.mem_cons_of_mem _ hj)) (traps ++ [(i, x)])
      (back ++ [(i, poppedBy (s.noneGot f) i)])
    refine ⟨back', ?_⟩
    rw [List.foldl_cons, step, rest, List.append_assoc]
    rfl

/-- Every enabled lane traps alike: the other lanes go on, and the traps are taken. -/
theorem laneExec_of_trap (h : Ready s op f) (hq : noQueue op f) (hx : x.isMem = false)
    (hb : ∀ i ∈ s.enabledFor f, body s (s.group s.cur.gid) (s.noneGot f) i = .trap x) :
    laneExec op f s body = (s.goOn (s.disabledFor f)).takeTrap s.cur.gid s.cur.pc s.cur.words
      ((s.enabledFor f).map (fun i => (i, x))) := by
  obtain ⟨back, run⟩ := Run.lanes_trap h hx hb (s.enabledFor f) (fun _ hi => hi) [] []
  rw [laneExec_of_noQueue body h hq]
  refine (congrArg (Run.close · (s.disabledFor f)) run).trans (Run.close_of_none rfl (fun j => ?_) rfl)
  exact Run.aborted_of_inIssue (r := { s.openRun with traps := _, back := _ }) h (InIssue.start h) rfl j

end

/-- Of equal traps one is reported. -/
theorem reportTrap_replicate {ls : List Nat} {x : Trap} (hne : ls ≠ []) (hx : x.isMem = false) (ha : x.addr = 0) :
    reportTrap (ls.map (fun i => (i, x))) = some x := by
  have best : ∀ l : List Nat, (l.map (fun i => (i, x))).foldl (fun b y => if y.2.rank < b.rank then y.2 else b) x = x := fun l => by
    induction l with
    | nil => rfl
    | cons i l ih => simpa using ih
  cases ls with
  | nil => exact absurd rfl hne
  | cons i l =>
    simp only [List.map_cons, reportTrap, best, hx, Bool.false_eq_true, if_false]
    rw [← ha]

/-- What the trap registers hold after every enabled lane has trapped with a cause and the number in `SB`. -/
def SoftTrapped (s t : State) (f : Full) (c : Nat) : Prop :=
  let g' := t.group s.cur.gid
  g'.stopped = true ∧ g'.trapCause = BitVec.ofNat 16 (c + 256 * f.sb.toNat) ∧ g'.trapPc = s.cur.pc ∧ g'.trapAddr = 0 ∧
    g'.trapW0 = s.cur.words.getD 1 0 ++ s.cur.words.getD 0 0 ∧ g'.trapW1 = s.cur.words.getD 2 0 ∧
    (∀ i, i < 32 → inMask g'.trapMask i = (s.enabledFor f).contains i)

/-- What an issue keeps on which the enabled lanes stay, where `stay` holds, and the others go on. -/
def OthersGoOn (s t : State) (f : Full) (stay : Prop) : Prop :=
  SameMemory s t ∧ (∀ i c, (t.group s.cur.gid).readCell i c = (s.group s.cur.gid).readCell i c) ∧
    ∀ i, i < 32 → (stay → i ∈ s.enabledFor f → ((t.group s.cur.gid).lane i).pc = ((s.group s.cur.gid).lane i).pc) ∧
      ((¬ stay ∨ i ∉ s.enabledFor f) → inMask s.cur.lanes i = true → ((t.group s.cur.gid).lane i).pc = s.pastPc i)

/-- The state after every enabled lane has trapped with a cause and the number in `SB`. -/
def State.softTrap (s : State) (f : Full) (c : Nat) : State :=
  (s.goOn (s.disabledFor f)).takeTrap s.cur.gid s.cur.pc s.cur.words
    ((s.enabledFor f).map (fun i => (i, { cause := c, detail := f.sb.toNat })))

section
variable {s : State} {op : Op} {f : Full} {c : Nat}

theorem State.softTrap_of_none (h : s.enabledFor f = []) : s.softTrap f c = s.goOn (s.disabledFor f) := by
  rw [State.softTrap, h]
  rfl

/-- The group after the trap: the group whose other lanes have gone on, with its trap registers. -/
theorem State.softTrap_group? {g1 : Group} (hc : c = 0x0C ∨ c = 0x0D) (hen : s.enabledFor f ≠ [])
    (here : (s.goOn (s.disabledFor f)).group? s.cur.gid = some g1) :
    (s.softTrap f c).group? s.cur.gid = some (g1.trapped { cause := c, detail := f.sb.toNat } s.cur.pc s.cur.words
      ((s.enabledFor f).map (fun i => (i, { cause := c, detail := f.sb.toNat }))) s.ticks) := by
  have plain : (Trap.mk c f.sb.toNat 0).isMem = false := by
    obtain rfl | rfl := hc <;> rfl
  exact State.takeTrap_group? (reportTrap_replicate hen plain rfl) here

theorem softTrapped_softTrap (h : Ready s op f) (hc : c = 0x0C ∨ c = 0x0D) (hen : s.enabledFor f ≠ []) :
    SoftTrapped s (s.softTrap f c) f c := by
  obtain ⟨g1, here, -, -⟩ := State.goOn_group h (disabledFor_nodup s f) fun i hi => (State.mem_disabledFor hi).1
  rw [SoftTrapped, State.group_of_group? (State.softTrap_group? hc hen here)]
  refine ⟨rfl, rfl, rfl, rfl, rfl, rfl, fun i hi => (inMask_maskOf _ hi).trans ?_⟩
  rw [List.any_map, List.contains_eq_any_beq]
  exact congrArg (s.enabledFor f).any (funext fun j => BEq.comm)

theorem stopped_of_none (h : Ready s op f) (hen : s.enabledFor f = []) :
    ((s.softTrap f c).group s.cur.gid).stopped = (s.group s.cur.gid).stopped := by
  obtain ⟨g1, here, frame, -⟩ := State.goOn_group h (disabledFor_nodup s f) fun i hi => (State.mem_disabledFor hi).1
  rw [State.softTrap_of_none hen, State.group_of_group? here, ← frame]

theorem othersGoOn_softTrap (h : Ready s op f) (hc : c = 0x0C ∨ c = 0x0D) {stay : Prop} (hs : stay) :
    OthersGoOn s (s.softTrap f c) f stay := by
  obtain ⟨g1, here, frame, pcs⟩ := State.goOn_group h (disabledFor_nodup s f) fun i hi => (State.mem_disabledFor hi).1
  have memory : SameMemory s (s.softTrap f c) :=
    SameMemory.trans (t := s.goOn (s.disabledFor f)) (.of_eq rfl rfl rfl) (State.takeTrap_memory _ _ _ _ _)
  have after : (∀ i c', ((s.softTrap f c).group s.cur.gid).readCell i c' = g1.readCell i c') ∧
      ∀ i, (((s.softTrap f c).group s.cur.gid).lane i).pc = (g1.lane i).pc := by
    by_cases hen : s.enabledFor f = []
    · rw [State.softTrap_of_none hen, State.group_of_group? here]
      exact ⟨fun _ _ => rfl, fun _ => rfl⟩
    · rw [State.group_of_group? (State.softTrap_group? hc hen here)]
      exact ⟨fun i c' => g1.trapped_readCell _ i c', fun i => g1.trapped_pc _ i⟩
  obtain ⟨cells, lanes⟩ := after
  refine ⟨memory, fun i c' => (cells i c').trans (Group.readCell_of_lanes frame i c'), fun i hi => ⟨fun _ on => ?_, fun off hm => ?_⟩⟩
  · rw [lanes, pcs, if_neg fun k => (State.mem_disabledFor k).2 on]
  · rw [lanes, pcs, if_pos ((State.mem_disabledFor_iff hm).2 (off.resolve_left fun k => k hs))]

end

/-- A state whose group differs in nothing but its lanes, and there in nothing that an issue reads. -/
structure SameIssue (s t : State) : Prop where
  cur   : t.cur = s.cur
  here  : (s.group? s.cur.gid).isSome = true → (t.group? s.cur.gid).isSome = true
  frame : { t.group s.cur.gid with lanes := (s.group s.cur.gid).lanes } = s.group s.cur.gid
  lanes : ∀ i, ((t.group s.cur.gid).lane i).ended = ((s.group s.cur.gid).lane i).ended ∧
    ((t.group s.cur.gid).lane i).pend = ((s.group s.cur.gid).lane i).pend ∧
    ((t.group s.cur.gid).lane i).pc = ((s.group s.cur.gid).lane i).pc

section
variable {s t : State} {op : Op} {f : Full}

theorem SameIssue.enabledFor (h : SameIssue s t) (f : Full) : t.enabledFor f = s.enabledFor f := by
  rw [State.enabledFor, State.enabledFor, h.cur, ← h.frame]
  rfl

theorem SameIssue.pastPc (h : SameIssue s t) (i : Nat) : t.pastPc i = s.pastPc i := by
  obtain ⟨-, -, pc⟩ := h.lanes i
  rw [State.pastPc, h.cur, pc]
  rfl

theorem SameIssue.ready (h : SameIssue s t) (hr : Ready s op f) : Ready t op f := by
  have tx : (t.group s.cur.gid).tx = (s.group s.cur.gid).tx := (congrArg Group.tx h.frame :)
  have size : (t.group s.cur.gid).n = (s.group s.cur.gid).n ∧ (t.group s.cur.gid).m = (s.group s.cur.gid).m :=
    ⟨(congrArg Group.n h.frame :), (congrArg Group.m h.frame :)⟩
  obtain ⟨n, m⟩ := size
  refine ⟨by rw [h.cur]; exact h.here hr.here, fun i hi => ?_, by rw [h.cur, tx]; exact hr.tx, ?_, hr.legal,
    by rw [h.cur, n, m]; exact hr.range, by rw [h.cur, n, m]; exact hr.budget⟩
  · obtain ⟨ended, pend, -⟩ := h.lanes i
    rw [h.cur, ended, pend]
    exact hr.alive i (h.cur ▸ hi)
  · have inTx : ∀ i, (t.group s.cur.gid).inTx i = (s.group s.cur.gid).inTx i := fun i => by rw [Group.inTx, tx]; rfl
    rw [State.unsafeIssue, h.enabledFor, h.cur]
    simp only [inTx]
    exact hr.safe

theorem SameIssue.softTrapped {u : State} {c : Nat} (h : SameIssue s t) (ht : SoftTrapped t u f c) : SoftTrapped s u f c := by
  unfold SoftTrapped at ht
  rwa [h.cur, h.enabledFor] at ht

theorem SameIssue.othersGoOn {u : State} {stay : Prop} (h : SameIssue s t) (hm : SameMemory s t) (ht : OthersGoOn t u f stay) :
    OthersGoOn s u f stay := by
  obtain ⟨memory, cells, pcs⟩ := ht
  rw [h.cur, h.enabledFor] at pcs
  rw [h.cur] at cells
  refine ⟨hm.trans memory, fun i c => (cells i c).trans (Group.readCell_of_lanes h.frame i c), fun i hi => ⟨fun hs on => ?_, fun off hl => ?_⟩⟩
  · exact ((pcs i hi).1 hs on).trans (h.lanes i).2.2
  · exact ((pcs i hi).2 off hl).trans (h.pastPc i)

theorem SameIssue.modLanes (s : State) (ls : List Nat) (F : Lane → Lane)
    (hF : ∀ l, (F l).ended = l.ended ∧ (F l).pend = l.pend ∧ (F l).pc = l.pc) :
    SameIssue s (s.modGroup s.cur.gid (fun g => g.modLanes ls F)) := by
  have id : ∀ g : Group, (g.modLanes ls F).id = g.id := fun g => g.modLanes_id ls F
  have group := State.group_modGroup s s.cur.gid (fun g => g.modLanes ls F) id s.cur.gid
  refine ⟨rfl, fun h => ?_, ?_, fun i => ?_⟩
  · rw [State.group?_modGroup s _ (fun g => g.modLanes ls F) id, Option.isSome_map, h]
  · rw [group]
    split
    · exact Group.modLanes_rest ls F _
    · rfl
  · rw [group]
    split
    · exact ⟨Group.lane_modLanes_keeps Lane.ended F (fun l => (hF l).1) ls _ i,
        Group.lane_modLanes_keeps Lane.pend F (fun l => (hF l).2.1) ls _ i,
        Group.lane_modLanes_keeps Lane.pc F (fun l => (hF l).2.2) ls _ i⟩
    · exact ⟨rfl, rfl, rfl⟩

end

/-- The lanes that pass the closing check of a spliced loop at a `TRAP` (16 R303). -/
def State.checkPast (s : State) (f : Full) : List Nat :=
  if (match s.launch? (s.team (s.group s.cur.gid).team).die (s.team (s.group s.cur.gid).team).launch with
    | some l => (l.origin s.cur.pc.toNat).1 == 3
    | none => false) then s.disabledFor f else []

/-- `TRAP` counts the checks that are passed, and takes its trap. -/
theorem execTrap_eq {s : State} {f : Full} (h : Ready s .trap f) :
    exec (.trap f) s = .next ((s.modGroup s.cur.gid (fun g => g.modLanes (s.checkPast f) (fun l =>
      { l with checks := l.checks + 1 }))).softTrap f 0x0C) := by
  have same := SameIssue.modLanes s (s.checkPast f) (fun l => { l with checks := l.checks + 1 }) fun _ => ⟨rfl, rfl, rfl⟩
  have ready := same.ready h
  have run := laneExec_of_trap (body := fun _ _ _ _ => .trap { cause := 0x0C, detail := f.sb.toNat }) ready
    (noQueue_of_fields h.legal rfl nofun (.inl rfl)) rfl fun _ _ => rfl
  have counted : exec (.trap f) s = .next (laneExec .trap f (s.modGroup (s.group s.cur.gid).id (fun g =>
      g.modLanes (s.checkPast f) (fun l => { l with checks := l.checks + 1 })))
        (fun _ _ _ _ => .trap { cause := 0x0C, detail := f.sb.toNat })) := rfl
  rw [counted, State.group_id]
  exact congrArg _ run

theorem execTrap_of_no_launch {s : State} {f : Full} (h : Ready s .trap f)
    (hl : s.launch? (s.team (s.group s.cur.gid).team).die (s.team (s.group s.cur.gid).team).launch = none) :
    exec (.trap f) s = .next (s.softTrap f 0x0C) := by
  have idle : s.modGroup s.cur.gid (fun g => g.modLanes [] (fun l => { l with checks := l.checks + 1 })) = s := by
    simp [State.modGroup, updWhere, Group.modLanes]
  have none : s.checkPast f = [] := by
    unfold State.checkPast
    rw [hl]
    rfl
  rw [execTrap_eq h, none, idle]

/-- `BKPT` traps while a session is attached to the tenant. -/
theorem execBkpt_of_session {s : State} {f : Full} (h : Ready s .bkpt f)
    (hd : s.debugs.any (fun x => x.2 == (s.group s.cur.gid).tenant) = true) : exec (.bkpt f) s = .next (s.softTrap f 0x0D) :=
  congrArg _ (laneExec_of_trap h (noQueue_of_fields h.legal rfl nofun (.inl rfl)) rfl fun _ _ => if_pos hd)

/-- `BKPT` has no effect while none is. -/
theorem execBkpt_of_no_session {s : State} {f : Full} (h : Ready s .bkpt f)
    (hd : s.debugs.any (fun x => x.2 == (s.group s.cur.gid).tenant) = false) :
    Completes (exec (.bkpt f) s) (fun t => LaneEffect s t f (fun _ => []) (fun _ => 0)) := by
  have hq : noQueue .bkpt f := noQueue_of_fields h.legal rfl nofun (.inl rfl)
  refine ⟨_, rfl, laneExec_effect_of_mid (vals := fun _ => []) h hq (by simp [not_isLong hq rfl (by decide)]) fun t _ _ mid _ _ => ?_⟩
  have debugs : t.debugs = s.debugs := (congrArg State.debugs mid.only.rest :)
  simp only [debugs, hd, Bool.false_eq_true, if_false]

theorem execBkpt_goOn {s : State} {f : Full} (h : Ready s .bkpt f)
    (hd : s.debugs.any (fun x => x.2 == (s.group s.cur.gid).tenant) = false) :
    exec (.bkpt f) s = .next (s.goOn (lanesOf s.cur.lanes)) := by
  have hq : noQueue .bkpt f := noQueue_of_fields h.legal rfl nofun (.inl rfl)
  refine congrArg _ ((laneExec_of_done (next := fun t _ => t) h hq rfl (fun t i only _ => ?_) fun t i _ => .refl s t i).trans ?_)
  · have debugs : t.debugs = s.debugs := (congrArg State.debugs only.same :)
    simp only [debugs, hd, Bool.false_eq_true, if_false]
  · rw [foldl_ignore]

/-- Where no lane stays, all go on. -/
theorem othersGoOn_goOn {s : State} {op : Op} {f : Full} (h : Ready s op f) {ls : List Nat} (hn : ls.Nodup)
    (hls : ∀ i, i ∈ ls ↔ inMask s.cur.lanes i = true) {stay : Prop} (hs : ¬ stay) :
    ((s.goOn ls).group s.cur.gid).stopped = (s.group s.cur.gid).stopped ∧ OthersGoOn s (s.goOn ls) f stay := by
  obtain ⟨g1, here, frame, pcs⟩ := State.goOn_group h hn fun i hi => (hls i).1 hi
  rw [OthersGoOn, State.group_of_group? here]
  refine ⟨(congrArg Group.stopped frame :), .of_eq rfl rfl rfl, fun i c => Group.readCell_of_lanes frame i c,
    fun i _ => ⟨fun k => absurd k hs, fun _ hm => ?_⟩⟩
  rw [pcs, if_pos ((hls i).2 hm)]

/-! #### `FWCALL` -/

/-- What a group waits for once a lane has made a firmware call with an argument: its own call, or one with the lane added. -/
def GroupWait.call (w : GroupWait) (f : Full) (i : Nat) (a : W64) : GroupWait :=
  match w with
  | .fwcall ls svc d x la as => .fwcall (ls ||| (1#32 <<< i)) svc d x la (as ++ [a])
  | _ => .fwcall (1#32 <<< i) f.sb.toNat f.dst.toNat f.xd (if f.isLong .fwcall then f.la.toNat else 0) [a]

/-- The calls of several lanes add up. -/
theorem GroupWait.foldl_call (f : Full) (a : Nat → W64) (ls : List Nat) (m : W32) (svc d : Nat) (x : Bool) (la : Nat) (as : List W64) :
    ls.foldl (fun (w : GroupWait) i => w.call f i (a i)) (.fwcall m svc d x la as) =
      GroupWait.fwcall (ls.foldl (fun m i => m ||| (1#32 <<< i)) m) svc d x la (as ++ ls.map a) := by
  induction ls generalizing m as with
  | nil => simp
  | cons i ls ih => simpa [GroupWait.call] using ih (m ||| (1#32 <<< i)) (as ++ [a i])

/-- The lanes of a list make a mask. -/
theorem foldl_mask_eq_maskOf (ls : List Nat) : ls.foldl (fun m i => m ||| (1#32 <<< i)) 0#32 = maskOf ls.contains := by
  refine BitVec.eq_of_getLsbD_eq fun i hi => ?_
  have bits := getLsbD_foldl_mask (fun _ => true) hi ls 0#32
  simp only [if_true, Bool.true_and, BitVec.getLsbD_zero, Bool.false_or] at bits
  rw [bits]
  refine Eq.trans ?_ (inMask_maskOf ls.contains hi).symm
  rw [List.contains_eq_any_beq]
  exact congrArg ls.any (funext fun j => BEq.comm)

theorem GroupWait.foldl_call_none (f : Full) (a : Nat → W64) {ls : List Nat} (hne : ls ≠ []) :
    ls.foldl (fun (w : GroupWait) i => w.call f i (a i)) .none =
      GroupWait.fwcall (maskOf ls.contains) f.sb.toNat f.dst.toNat f.xd (if f.isLong .fwcall then f.la.toNat else 0) (ls.map a) := by
  cases ls with
  | nil => exact absurd rfl hne
  | cons i ls =>
    have first : GroupWait.none.call f i (a i) =
        .fwcall (1#32 <<< i) f.sb.toNat f.dst.toNat f.xd (if f.isLong .fwcall then f.la.toNat else 0) [a i] := rfl
    rw [List.foldl_cons, first, GroupWait.foldl_call, ← foldl_mask_eq_maskOf]
    simp

/-- One lane of a group makes its call and goes on. -/
def Group.callLane (f : Full) (size : Nat) (a : Nat → W64) (w : GroupWait) (g : Group) (i : Nat) : Group :=
  { g.advance i size with wait := w.call f i (a i) }

/-- A lane that goes on does not touch what its group waits for. -/
theorem Group.advance_wait (g : Group) (w : GroupWait) {i : Nat} (size : Nat) (hp : (g.lane i).pend = []) :
    ({ g with wait := w } : Group).advance i size = { g.advance i size with wait := w } := by
  rw [Group.advance_lane g i size hp, Group.advance_lane { g with wait := w } i size hp]
  rfl

theorem Group.advanceAll_wait (w : GroupWait) (size : Nat) (ls : List Nat) (hn : ls.Nodup) (g : Group)
    (hp : ∀ i ∈ ls, (g.lane i).pend = []) :
    ({ g with wait := w } : Group).advanceAll ls size = { g.advanceAll ls size with wait := w } := by
  induction ls generalizing g with
  | nil => rfl
  | cons i ls ih =>
    have hi := List.nodup_cons.1 hn
    have first := Group.advance_wait g w size (hp i List.mem_cons_self)
    have rest := ih hi.2 (g.advance i size) fun j hj => by
      have other : j ≠ i := fun e => hi.1 (e ▸ hj)
      rw [Group.advance_lane_ne g size other]
      exact hp j (List.mem_cons_of_mem _ hj)
    exact (congrArg (Group.advanceAll · ls size) first).trans rest

/-- Lanes that make their calls one after another all go on, and their group waits for all the calls. -/
theorem Group.foldl_callLane (f : Full) (size : Nat) (a : Nat → W64) (ls : List Nat) (hn : ls.Nodup) (g : Group)
    (hp : ∀ i ∈ ls, (g.lane i).pend = []) :
    ls.foldl (fun g i => g.callLane f size a g.wait i) g =
      { g.advanceAll ls size with wait := ls.foldl (fun w i => w.call f i (a i)) g.wait } := by
  induction ls generalizing g with
  | nil => rfl
  | cons i ls ih =>
    have hi := List.nodup_cons.1 hn
    have left : ∀ j ∈ ls, ((g.advance i size).lane j).pend = [] := fun j hj => by
      have other : j ≠ i := fun e => hi.1 (e ▸ hj)
      rw [Group.advance_lane_ne g size other]
      exact hp j (List.mem_cons_of_mem _ hj)
    rw [List.foldl_cons, ih hi.2 (g.callLane f size a g.wait i) left, Group.callLane,
      Group.advanceAll_wait _ size ls hi.2 (g.advance i size) left]
    rfl

/-- The state after one lane's call. -/
def State.callLane (f : Full) (size : Nat) (a : Nat → W64) (gid : Nat) (s : State) (i : Nat) : State :=
  s.modGroup gid (fun g => g.callLane f size a (s.group gid).wait i)

theorem Group.callLane_id (f : Full) (size : Nat) (a : Nat → W64) (w : GroupWait) (g : Group) (i : Nat) :
    (g.callLane f size a w i).id = g.id := g.advance_id i size

theorem State.foldl_callLane_group? (f : Full) (size : Nat) (a : Nat → W64) (gid : Nat) (ls : List Nat) {s : State} {g : Group}
    (h : s.group? gid = some g) :
    (ls.foldl (State.callLane f size a gid) s).group? gid = some (ls.foldl (fun g i => g.callLane f size a g.wait i) g) := by
  induction ls generalizing s g with
  | nil => exact h
  | cons i ls ih =>
    refine ih ?_
    rw [State.callLane, State.group?_modGroup s gid (fun g => g.callLane f size a (s.group gid).wait i)
      fun g => g.callLane_id f size a _ i, h, State.group_of_group? h]
    rfl

/-- The calls of an issue, on the state in which its group's stores are written back. -/
theorem execFwcall_eq {s : State} {f : Full} (h : Ready s .fwcall f) (hq : noQueue .fwcall f)
    (hb : Ready (s.writeBackGroup s.cur.gid) .fwcall f) :
    let b := s.writeBackGroup s.cur.gid
    exec (.fwcall f) s = .next (((b.enabledFor f).foldl (State.callLane f b.cur.size
      (fun i => srcA .fwcall f (b.group b.cur.gid) i 0) b.cur.gid) b).goOn (b.disabledFor f)) := by
  intro b
  have start : exec (.fwcall f) s = .next (laneExec .fwcall f (if s.unsafeIssue .fwcall f then s else b) (fun s g got i =>
    let a := srcA .fwcall f g i (poppedBy got i)
    let w := match (s.group g.id).wait with
      | .fwcall ls svc d x la as => GroupWait.fwcall (ls ||| (1#32 <<< i)) svc d x la (as ++ [a])
      | _ => .fwcall (1#32 <<< i) f.sb.toNat f.dst.toNat f.xd (if f.isLong .fwcall then f.la.toNat else 0) [a]
    .gone (s.modGroup g.id (fun g => { g.advance i s.cur.size with wait := w })))) := rfl
  rw [start, h.safe]
  refine congrArg _ (laneExec_of_gone hb hq (fun t i only _ => ?_) fun t i only => ?_)
  · simp only [State.group_id, State.poppedBy_noneGot, only.cur]
    rfl
  · exact .of_modGroup t i _ (fun g => g.callLane_id f _ _ _ i) (fun g => g.tickWindows_tx i) fun g j hj =>
      congrArg Lane.ended (g.advance_lane_ne _ hj)

theorem enabled_append_disabled_nodup (s : State) (f : Full) : (s.enabledFor f ++ s.disabledFor f).Nodup :=
  List.nodup_append.2 ⟨enabledFor_nodup s f, disabledFor_nodup s f, fun _ he _ hd e =>
    (State.mem_disabledFor hd).2 (e ▸ he)⟩

theorem mem_enabled_append_disabled {s : State} {f : Full} {i : Nat} :
    i ∈ s.enabledFor f ++ s.disabledFor f ↔ inMask s.cur.lanes i = true := by
  refine ⟨fun h => ?_, fun h => ?_⟩
  · obtain h | h := List.mem_append.1 h
    · exact (mem_enabledFor h).2
    · exact (State.mem_disabledFor h).1
  · by_cases he : i ∈ s.enabledFor f
    · exact List.mem_append_left _ he
    · exact List.mem_append_right _ ((State.mem_disabledFor_iff h).2 he)

/-- The group after the calls of an issue. -/
theorem State.calls_group? {s : State} {op : Op} {f : Full} (h : Ready s op f) (size : Nat) (hsize : s.cur.size = size) (a : Nat → W64) :
    ∃ g1, (((s.enabledFor f).foldl (State.callLane f size a s.cur.gid) s).goOn (s.disabledFor f)).group? s.cur.gid = some g1 ∧
      g1.wait = (s.enabledFor f).foldl (fun (w : GroupWait) i => w.call f i (a i)) (s.group s.cur.gid).wait ∧
      { g1 with lanes := (s.group s.cur.gid).lanes, wait := (s.group s.cur.gid).wait } = s.group s.cur.gid ∧
      ∀ j, inMask s.cur.lanes j = true → (g1.lane j).pc = s.pastPc j := by
  obtain ⟨g, hg⟩ := Option.isSome_iff_exists.1 h.here
  have alive := h.alive
  have own := State.group_of_group? hg
  rw [own] at alive
  subst hsize
  have cur : ((s.enabledFor f).foldl (State.callLane f s.cur.size a s.cur.gid) s).cur = s.cur :=
    State.foldl_cur (State.callLane f s.cur.size a s.cur.gid) (fun _ _ => rfl) _ s
  have nodup := List.nodup_append.1 (enabled_append_disabled_nodup s f)
  obtain ⟨enNodup, disNodup, apart⟩ := nodup
  have called := State.foldl_callLane_group? f s.cur.size a s.cur.gid (s.enabledFor f) hg
  rw [Group.foldl_callLane f s.cur.size a _ enNodup g fun i hi => (alive i (mem_enabledFor hi).2).2] at called
  have owed : ∀ i ∈ s.disabledFor f, ((g.advanceAll (s.enabledFor f) s.cur.size).lane i).pend = [] := fun i hi => by
    have off := (State.mem_disabledFor hi).2
    rw [Group.advanceAll_lane_ne _ off]
    exact (alive i (State.mem_disabledFor hi).1).2
  have all : (g.advanceAll (s.enabledFor f) s.cur.size).advanceAll (s.disabledFor f) s.cur.size =
      g.advanceAll (s.enabledFor f ++ s.disabledFor f) s.cur.size := List.foldl_append.symm
  obtain ⟨frame, lane⟩ := Group.advanceAll_lanes (s.enabledFor f ++ s.disabledFor f) s.cur.size
    (enabled_append_disabled_nodup s f) g fun i hi => by
      have hm := mem_enabled_append_disabled.1 hi
      exact ⟨(alive i hm).2, Group.lane_lt (alive i hm).1⟩
  refine ⟨{ g.advanceAll (s.enabledFor f ++ s.disabledFor f) s.cur.size with
    wait := (s.enabledFor f).foldl (fun (w : GroupWait) i => w.call f i (a i)) g.wait }, ?_, by rw [own], ?_, fun j hj => ?_⟩
  · rw [State.goOn, cur, State.group?_modGroup _ _ (fun g => g.advanceAll (s.disabledFor f) s.cur.size)
      fun g => g.advanceAll_id _ _, called, Option.map_some,
      Group.advanceAll_wait _ s.cur.size (s.disabledFor f) disNodup (g.advanceAll (s.enabledFor f) s.cur.size) owed, all]
  · rw [own]
    exact (congrArg (fun x : Group => { x with wait := g.wait }) frame :)
  · refine (congrArg Lane.pc (lane j)).trans ?_
    rw [if_pos (mem_enabled_append_disabled.2 hj), State.pastPc, own]

/-- Settles O20. -/
theorem softwareTrapsAndFirmwareCalls : Obligations.SoftwareTrapsAndFirmwareCalls := by
  refine ⟨fun s f => ⟨fun h => ?trap, fun h => ?bkpt, fun h hq htx hwait => ?calls⟩, fun s f hen => ⟨fun h hl => ?trapEq, fun h hd => ?bkptEq,
    fun h hd => execBkpt_of_no_session h hd, fun i h1 h hq hback hwait => ?callEq⟩⟩
  case trapEq => exact execTrap_of_no_launch h hl
  case bkptEq => exact execBkpt_of_session h hd
  case trap =>
    have same := SameIssue.modLanes s (s.checkPast f) (fun l => { l with checks := l.checks + 1 }) fun _ => ⟨rfl, rfl, rfl⟩
    refine ⟨_, execTrap_eq h, fun hen => ?_, fun hen => ?_, ?_⟩
    · exact same.softTrapped (softTrapped_softTrap (same.ready h) (.inl rfl) (same.enabledFor f ▸ hen))
    · exact (stopped_of_none (same.ready h) ((same.enabledFor f).trans hen)).trans (congrArg Group.stopped same.frame :)
    · exact same.othersGoOn (.of_eq rfl rfl rfl) (othersGoOn_softTrap (same.ready h) (.inl rfl) trivial)
  case bkpt =>
    cases hd : s.debugs.any (fun x => x.2 == (s.group s.cur.gid).tenant) with
    | true =>
      refine ⟨_, execBkpt_of_session h hd, fun _ hen => softTrapped_softTrap h (.inr rfl) hen, fun off => ?_, ?_⟩
      · exact stopped_of_none h (off.resolve_left fun k => k rfl)
      · exact othersGoOn_softTrap h (.inr rfl) rfl
    | false =>
      have every : ∀ i, i ∈ lanesOf s.cur.lanes ↔ inMask s.cur.lanes i = true := fun i =>
        ⟨fun k => (inMask_lanesOf.1 k).2, fun k => inMask_lanesOf.2 ⟨lt_of_inMask k, k⟩⟩
      obtain ⟨stopped, others⟩ := othersGoOn_goOn (f := f) h (lanesOf_nodup _) every Bool.false_ne_true
      exact ⟨_, execBkpt_goOn h hd, fun on => absurd on Bool.false_ne_true, fun _ => stopped, others⟩
  case calls =>
    have keeps := (WriteOnly.writeBackGroup s s.cur.gid).accessKeeps h.here htx
    have ready := keeps.ready h
    obtain ⟨w, group⟩ := keeps.group
    obtain ⟨g1, here, wait, frame, pcs⟩ := State.calls_group? ready _ rfl
      fun i => srcA .fwcall f ((s.writeBackGroup s.cur.gid).group (s.writeBackGroup s.cur.gid).cur.gid) i 0
    refine ⟨_, execFwcall_eq h hq ready, ?_⟩
    rw [keeps.1] at here frame wait pcs ⊢
    rw [State.group_of_group? here]
    refine ⟨?_, fun i c => ?_, fun i hm => ?_⟩
    · rw [wait, group, keeps.enabledFor, hwait]
      by_cases hen : s.enabledFor f = []
      · rw [if_pos hen, hen]
        rfl
      · rw [if_neg hen]
        exact GroupWait.foldl_call_none f _ hen
    · have lanes : { g1 with lanes := (s.group s.cur.gid).lanes, wait := (s.group s.cur.gid).wait, wctime := (s.group s.cur.gid).wctime } =
          s.group s.cur.gid := by
        rw [group] at frame
        exact (congrArg (fun x : Group => { x with wctime := (s.group s.cur.gid).wctime }) frame :)
      rw [← lanes]
      cases c <;> rfl
    · rw [pcs i hm, State.pastPc, State.pastPc, keeps.1, group]
      rfl
  case callEq =>
    rw [execFwcall_eq h hq (hback.symm ▸ h), hback, show s.enabledFor f = [i] from h1]
    simp only [List.foldl_cons, List.foldl_nil, State.callLane, hwait]
    rfl

end Sys2Proof.Machine

namespace Sys2Proof.Machine

open Sys2Proof

/-! ### Continuations (09 R178 to R180) -/

theorem State.giveOld_cur (s : State) (w : HWrite) (old : W64) (t : Nat) : (s.giveOld w old t).cur = s.cur := by
  unfold State.giveOld
  split
  · rfl
  · split <;> rfl

/-- A write that is performed at its home is none of the current issue's own. -/
theorem State.perform_cur (s : State) (line : Nat) (w : HWrite) (t : Nat) : (s.perform line w t).cur = s.cur := by
  have shown : ∀ u : State, (u.showSignal line).cur = u.cur := fun _ => rfl
  have stored : ∀ m, (State.txWriteConflict { s with mem := m } line w.isOther).cur = s.cur := fun _ => rfl
  unfold State.perform State.performBytes
  refine (HomeOnly.touchWritten _ _ _).cur.trans ((shown _).trans ?_)
  split
  · exact (State.giveOld_cur _ _ _ _).trans ((WriteOnly.completeAll _ w t).cur.trans (stored _))
  · exact (HomeOnly.answerTo _ _ _ _ _).cur.trans
      ((State.giveOld_cur _ _ _ _).trans ((WriteOnly.completeAll _ w t).cur.trans (stored _)))

theorem State.writeAtHome_cur (s : State) (line : Nat) (w : HWrite) : (s.writeAtHome line w).cur = s.cur := by
  have drawn : HomeOnly s s.drawNat.2 := ⟨rfl⟩
  have queued : ∀ (u : State) h, (u.setHome h).cur = u.cur := fun u h => rfl
  unfold State.writeAtHome
  dsimp only
  split
  · exact (drawn.trans (.request _ _ _ _)).cur
  · split
    · exact queued _ _
    · split
      · exact State.perform_cur s line { w with sent := s.ticks } _
      · split <;> exact queued _ _

/-- A write of an engine moves the completion time of no launch. -/
theorem State.perform_launches (s : State) (line : Nat) {w : HWrite} (t : Nat) (hg : w.gid = none) (ha : w.also = []) :
    (s.perform line w t).launches = s.launches := by
  have shown : ∀ u : State, (u.showSignal line).launches = u.launches := fun _ => rfl
  have given : ∀ (u : State) old, u.giveOld w old t = u := fun u old => by rw [State.giveOld, hg]
  have completed : ∀ u : State, u.completeAll w t false = u := fun u => by rw [State.completeAll, hg, ha]; rfl
  have stored : ∀ m, (State.txWriteConflict { s with mem := m } line w.isOther).launches = s.launches := fun _ => rfl
  unfold State.perform State.performBytes
  dsimp only
  rw [given, completed]
  refine (HomeOnly.touchWritten _ _ _).launches.trans ((shown _).trans ?_)
  split
  · exact stored _
  · exact (HomeOnly.answerTo _ _ _ _ _).launches.trans (stored _)

theorem State.writeAtHome_launches (s : State) (line : Nat) {w : HWrite} (hg : w.gid = none) (ha : w.also = []) :
    (s.writeAtHome line w).launches = s.launches := by
  have drawn : HomeOnly s s.drawNat.2 := ⟨rfl⟩
  have queued : ∀ (u : State) h, (u.setHome h).launches = u.launches := fun u h => rfl
  unfold State.writeAtHome
  dsimp only
  split
  · exact (drawn.trans (.request _ _ _ _)).launches
  · split
    · exact queued _ _
    · split
      · exact State.perform_launches s line (w := { w with sent := s.ticks }) _ hg ha
      · split <;> exact queued _ _

theorem State.engineWrite_keeps (s : State) (pa : Nat) (bs : List Byte) (origin : Nat) :
    (s.engineWrite none pa bs origin).launches = s.launches ∧ (s.engineWrite none pa bs origin).cur = s.cur := by
  unfold State.engineWrite
  dsimp only
  constructor
  · exact foldl_keeps State.launches _ (fun s line => s.writeAtHome_launches line rfl rfl) _ s
  · exact foldl_keeps State.cur _ (fun s line => s.writeAtHome_cur line _) _ s

theorem State.launch?_modLaunch (s : State) (die num : Nat) (F : Launch → Launch) (hF : ∀ l, (F l).die = l.die ∧ (F l).num = l.num) :
    (s.modLaunch die num F).launch? die num = (s.launch? die num).map F := by
  rw [State.launch?, State.modLaunch, find_updWhere _ _ _ _ (by simp [hF])]
  cases h : s.launches.find? (fun l => l.die == die && l.num == num) with
  | none => simp [State.launch?, h]
  | some l =>
    have := List.find?_some h
    simp_all [State.launch?]

theorem State.pushRecord_cur (s : State) (die num : Nat) (r : Record) : (s.pushRecord die num r).cur = s.cur := by
  unfold State.pushRecord
  split
  · rfl
  · dsimp only
    split
    · rfl
    · exact (State.engineWrite_keeps _ _ _ _).2

/-- A record stands last in the ring that it enters. -/
theorem State.pushRecord_ring {s : State} {die num : Nat} (r : Record) {l : Launch} (h : s.launch? die num = some l) :
    ∃ l', (s.pushRecord die num r).launch? die num = some l' ∧ l'.ring = l.ring ++ [r] := by
  refine ⟨{ l with ring := l.ring ++ [r], pushed := l.pushed + 1 }, ?_, rfl⟩
  have pushed : (s.modLaunch die num (fun l => { l with ring := l.ring ++ [r], pushed := l.pushed + 1 })).launch? die num =
      some { l with ring := l.ring ++ [r], pushed := l.pushed + 1 } := by
    rw [State.launch?_modLaunch s die num (fun l => { l with ring := l.ring ++ [r], pushed := l.pushed + 1 }) fun _ => ⟨rfl, rfl⟩, h]
    rfl
  unfold State.pushRecord
  rw [h]
  dsimp only
  split
  · exact pushed
  · rw [State.launch?, (State.engineWrite_keeps _ _ _ _).1]
    exact pushed

/-- A lane of `SPAWN` or `CONT` whose group has nothing outstanding and whose record finds room. -/
theorem State.spawnLane_of_room {s : State} {g : Group} {i r : Nat} {l : Launch} (pushed : State → LaneStep)
    (ht : spawnTrap g (recordOf g i r s.time) = none)
    (hl : s.launch? (s.team g.team).die (s.team g.team).launch = some l) (hroom : l.ring.length < 2 ^ l.desc.ringLog2) :
    s.spawnLane g i r true pushed =
      pushed (s.pushRecord (s.team g.team).die (s.team g.team).launch (recordOf g i r s.time)) := by
  simp only [State.spawnLane, ht, hl, Nat.not_le.2 hroom, Bool.not_true, Bool.false_eq_true, if_false]

/-- A source field that no queue register may stand in, and no destination. -/
theorem noQueue_of_plain_source {op : Op} {f : Full} {n a : Nat} (h : f.illegal op = none) (hm : (op.shape f).mem = .no)
    (ha : (op.shape f).sa = .g n a false) (hd : (op.shape f).dst = .unused) : noQueue op f := by
  have plain : (!(op.shape f).nform && f.xa) = false := by
    have legal := Full.sa_ok h hm
    rw [ha] at legal
    cases hx : !(op.shape f).nform && f.xa with
    | false => rfl
    | true => simp [Cls.check, hx] at legal
  have hpop : f.popsQueue op = false := by simp [Full.popsQueue, Bool.and_comm f.xa, plain]
  have hdst : destQueue op f = none := destQueue_of_unused_or_j (.inl hd)
  exact ⟨by simp [popQueueOf, hpop, hdst], hdst⟩

/-- Settles O16. -/
theorem continuationsEnterTheRing : Obligations.ContinuationsEnterTheRing := by
  refine ⟨fun s die num r l h => ⟨_, rfl, State.pushRecord_ring r h⟩, fun s f i h1 hdr htx => ?_⟩
  refine ⟨fun l ht hl hroom => ⟨fun h => ?spawn, fun h => ?cont⟩, fun p h hq hp hanswer hroute hready => ?join⟩
  case spawn =>
    have hq : noQueue .spawn f := noQueue_of_plain_source h.legal rfl rfl rfl
    have body := State.spawnLane_of_room (fun t => .res t [] 0) ht hl hroom
    rw [← hdr] at body
    refine congrArg _ ((laneExec_one_done htx (State.pushRecord_cur _ _ _ _) h hq h1 body ?_).trans ?_)
    · rw [State.writeDest_of_no_dest rfl]
    · rw [State.writeDest_of_no_dest rfl, State.modLane_raise_zero]
  case cont =>
    have hq : noQueue .cont f := noQueue_of_plain_source h.legal rfl rfl rfl
    have body := State.spawnLane_of_room (fun t => .gone (t.modGroup (s.group s.cur.gid).id (fun g => g.endLanes [i]))) ht hl hroom
    rw [← hdr] at body
    refine congrArg (fun t : State => Host.Outcome.next t.reap) ((laneExec_one_gone htx ?_ h hq h1 body).trans ?_)
    · exact State.pushRecord_cur _ _ _ _
    · rw [State.group_id]
  case join =>
    refine congrArg _ (laneExec_one_gone htx ?cur h hq h1 ?body)
    case body =>
      simp only [State.poppedBy_noneGot, hp, hanswer, hroute, hready, State.group_id, Bool.not_true, Bool.false_eq_true, if_false]
    case cur =>
      refine (State.writeAtHome_cur _ _ _).trans ?_
      exact (WriteOnly.writeBack (s.coreConflict (s.group s.cur.gid).core (p / 128) s.cur.gid i) _ _ _).cur

end Sys2Proof.Machine

namespace Sys2Proof.Machine

open Sys2Proof

/-! ### Queue operands (02 R32, 09 R192) -/

theorem State.team_modTeam {s : State} {id : Nat} {t : Team} (F : Team → Team) (hF : ∀ t, (F t).id = t.id) (h : s.team? id = some t) :
    (s.modTeam id F).team id = F t := by
  rw [State.team, State.team?_modTeam s id F hF, h]
  rfl

theorem Team.queue_modQueue {t : Team} {q : Nat} (F : TeamQueue → TeamQueue) (h : q < t.queues.length) :
    (t.modQueue q F).queue q = F (t.queue q) := by
  rw [Team.queue, Team.modQueue, getD_modAt, if_pos ⟨rfl, h⟩]
  rfl

/-- A queue that is bound to a port is one of a placed team. -/
theorem State.team?_of_port {s : State} {id q : Nat} (h : ((s.team id).queue q).port ≠ 0) :
    s.team? id = some (s.team id) ∧ q < (s.team id).queues.length := by
  have bound : q < (s.team id).queues.length := by
    refine Nat.lt_of_not_le fun hge => h ?_
    rw [Team.queue, getD_of_length_le hge]
  cases ht : s.team? id with
  | some t => rw [State.team_of_team? ht] at bound ⊢; exact ⟨rfl, bound⟩
  | none =>
    refine absurd ?_ h
    rw [State.team, ht, Option.getD_none]
    exact congrArg TeamQueue.port (getD_replicate_self ({} : TeamQueue) 16 q)

theorem State.wakeQueue_of_no_waiters {s : State} {team q : Nat} (push : Bool) (h : ((s.team team).queue q).waiters = []) :
    s.wakeQueue team q push = s := by
  simp [State.wakeQueue, h]

/-- The entry that a push of the current issue leaves. -/
def State.pushed (s : State) (gid lane : Nat) (v : W64) : QEntry :=
  { val := v, gid := gid, lane := lane, pc := s.cur.pc, pkt8 := (s.group gid).pkt8 }

/-- A queue that takes an entry. -/
def TeamQueue.take (x : TeamQueue) (gid lane : Nat) (e : QEntry) : TeamQueue :=
  { x with entries := x.entries ++ [e], waiters := x.waiters.filter (fun w => w != (gid, lane)) }

section
variable {s : State} {team q : Nat} (gid lane : Nat) (v : W64) (hp : [3, 8, 9].contains ((s.team team).queue q).port = true)
  (hw : ((s.team team).queue q).waiters = [])
include hp hw

theorem State.unwatched_after_push : (((s.modTeam team (fun t =>
    t.modQueue q (fun x => x.take gid lane (s.pushed gid lane v)))).team team).queue q).waiters = [] := by
  have port : ((s.team team).queue q).port ≠ 0 := fun e => by simp [e] at hp
  obtain ⟨here, bound⟩ := State.team?_of_port port
  rw [State.team_modTeam (fun t => t.modQueue q (fun x => x.take gid lane (s.pushed gid lane v))) (fun _ => rfl) here,
    Team.queue_modQueue _ bound]
  simp [TeamQueue.take, hw]

/-- A push changes nothing but its queue, where no lane waits on that. -/
theorem State.pushQueue_of_unwatched :
    s.pushQueue team q gid lane v = s.modTeam team (fun t => t.modQueue q (fun x => x.take gid lane (s.pushed gid lane v))) := by
  have port : ((s.team team).queue q).port = 3 ∨ ((s.team team).queue q).port = 8 ∨ ((s.team team).queue q).port = 9 := by
    simpa using hp
  have other : (((s.team team).queue q).port == 5) = false := by simp; omega
  unfold State.pushQueue
  dsimp only
  split
  · omega
  · omega
  · simp only [other, Bool.false_eq_true, if_false]
    exact State.wakeQueue_of_no_waiters true (State.unwatched_after_push gid lane v hp hw)

/-- Nor does it leave a lane to wake. -/
theorem State.wakeQueue_pushQueue : (s.pushQueue team q gid lane v).wakeQueue team q true = s.pushQueue team q gid lane v := by
  rw [State.pushQueue_of_unwatched gid lane v hp hw]
  exact State.wakeQueue_of_no_waiters true (State.unwatched_after_push gid lane v hp hw)

end

/-- A pop from a queue that no lane waits on and that holds entries. -/
theorem State.popQueue_of_unwatched {s : State} {team q : Nat} (gid lane : Nat) {e : QEntry} {r : List QEntry}
    (hp : [4, 6].contains ((s.team team).queue q).port = true) (hw : ((s.team team).queue q).waiters = [])
    (he : ((s.team team).queue q).entries = e :: r) :
    s.popQueue team q gid lane = (some e.val, s.modTeam team (fun t => t.modQueue q (fun x =>
      { x with entries := r, waiters := x.waiters.filter (fun w => w != (gid, lane)) }))) := by
  have port : ((s.team team).queue q).port = 4 ∨ ((s.team team).queue q).port = 6 := by simpa using hp
  obtain ⟨here, bound⟩ := State.team?_of_port (s := s) (id := team) (q := q) (by omega)
  have turn : ((s.team team).queue q).turn gid lane false = true := by simp [TeamQueue.turn, TeamQueue.room, hw, he]
  unfold State.popQueue
  dsimp only
  split
  · omega
  · omega
  · rw [turn, he]
    refine congrArg (Prod.mk (some e.val)) (State.wakeQueue_of_no_waiters false ?_)
    rw [State.team_modTeam (fun t => t.modQueue q (fun x =>
      { x with entries := r, waiters := x.waiters.filter (fun w => w != (gid, lane)) })) (fun _ => rfl) here,
      Team.queue_modQueue _ bound]
    simp [hw]

/-- A lane that completes, whose record is not awaited from the local store. -/
theorem Run.lane_of_present {r : Run} {op : Op} {f : Full} {g : Group} {got : List (Nat × W64)} {i : Nat} {t : State} {vals : List W64}
    {fl : FlagSet} {body : State → Group → List (Nat × W64) → Nat → LaneStep} (h : r.Takes i)
    (ha : r.s.absentRecord op f g (vals.headD 0) = none) (hb : body r.s g got i = .res t vals fl) :
    r.lane op f g got body i =
      { r with s := (t.writeDest r.s.cur.gid i op f vals).modLane r.s.cur.gid i (fun l => l.raise fl), done := r.done ++ [i] } := by
  simp only [Run.lane, h.alive, h.stays, h.room, hb, ha, List.contains_nil, Bool.or_self, Bool.false_eq_true, if_false]

section
variable {s : State} {f : Full} {i q : Nat} {body : State → Group → List (Nat × W64) → Nat → LaneStep}

/-- An issue on one lane that pushes into a queue with room, on which no lane waits. -/
theorem laneExec_push {op : Op} (h : Ready s op f) (h1 : OneLane s f i) (hpop : popQueueOf op f = none) (hd : destQueue op f = some q)
    (hdw : (op.shape f).dw = true)
    (hport : [3, 8, 9].contains ((s.team (s.group s.cur.gid).team).queue q).port = true)
    (hw : ((s.team (s.group s.cur.gid).team).queue q).waiters = [])
    (hroom : ((s.team (s.group s.cur.gid).team).queue q).entries.length < portDepth ((s.team (s.group s.cur.gid).team).queue q).port) :
    laneExec op f s body =
      Run.close (let r := s.openRun.plainLane s op f body i
        { r with s := r.s.wakeQueue (s.group s.cur.gid).team q true }) (s.disabledFor f) := by
  have port : ((s.team (s.group s.cur.gid).team).queue q).port = 3 ∨ ((s.team (s.group s.cur.gid).team).queue q).port = 8 ∨
      ((s.team (s.group s.cur.gid).team).queue q).port = 9 := by simpa using hport
  obtain ⟨g, hg⟩ := Option.isSome_iff_exists.1 h.here
  have own := State.group_of_group? hg
  have pops : f.popsQueue op = false := by
    cases hp : f.popsQueue op with
    | false => rfl
    | true => simp [popQueueOf, hp] at hpop
  have bound : (s.team (s.group s.cur.gid).team).queueCheck q true f.as = none := by
    obtain e | e | e := port <;> simp [Team.queueCheck, e]
  have free : s.queueTraps op f = none := by simp [State.queueTraps, pops, hd, hdw, bound]
  have sound : s.badPops op f = [] := by simp [State.badPops, hpop]
  have stream : isStream ((s.team (s.group s.cur.gid).team).queue q).port = false := by
    obtain e | e | e := port <;> simp [isStream, e]
  have admitted : s.admitted op f (s.group s.cur.gid) [i] = [i] := by
    have room : 1 ≤ ((s.team (s.group s.cur.gid).team).queue q).room true := by simp [TeamQueue.room]; omega
    simp only [State.admitted, hd, hdw, stream, hw, List.isEmpty_nil, Bool.not_true, Bool.false_eq_true, if_false, if_true]
    exact List.take_of_length_le room
  rw [own] at admitted ⊢
  unfold laneExec
  simp only [hg, h.safe, free, sound, hpop, show s.enabledFor f = [i] from h1, List.map_cons, List.map_nil, admitted,
    List.contains_cons, List.contains_nil, beq_self_eq_true, Bool.or_false, Bool.not_true, Bool.false_eq_true, if_false, List.filter_cons,
    List.filter_nil, if_true, List.foldl_cons, List.foldl_nil, Run.queues, hd, hdw, State.openRun, Run.plainLane, own, h1.noneGot,
    State.disabledFor]

/-- An issue on one lane that pops the oldest entry of a queue on which no lane waits. -/
theorem laneExec_pop {op : Op} {e : QEntry} {r : List QEntry} (h : Ready s op f) (h1 : OneLane s f i) (hpop : popQueueOf op f = some q)
    (hd : destQueue op f = none) (hport : [4, 6].contains ((s.team (s.group s.cur.gid).team).queue q).port = true)
    (hw : ((s.team (s.group s.cur.gid).team).queue q).waiters = [])
    (he : ((s.team (s.group s.cur.gid).team).queue q).entries = e :: r) :
    let t := s.modTeam (s.group s.cur.gid).team (fun t => t.modQueue q (fun x =>
      { x with entries := r, waiters := x.waiters.filter (fun w => w != (s.cur.gid, i)) }))
    let run := t.openRun.lane op f (s.group s.cur.gid) [(i, e.val)] (fun u g _ i => body u g [(i, e.val)] i) i
    run.back = [] → laneExec op f s body = run.close (s.disabledFor f) := by
  intro t run hback
  have port : ((s.team (s.group s.cur.gid).team).queue q).port = 4 ∨ ((s.team (s.group s.cur.gid).team).queue q).port = 6 := by
    simpa using hport
  obtain ⟨g, hg⟩ := Option.isSome_iff_exists.1 h.here
  have own := State.group_of_group? hg
  have pops : f.popsQueue op = true ∧ f.sa.toNat - 0x40 = q := by
    cases hp : f.popsQueue op with
    | true => exact ⟨rfl, by simpa [popQueueOf, hp] using hpop⟩
    | false => simp [popQueueOf, hp, hd] at hpop
  have bound : (s.team (s.group s.cur.gid).team).queueCheck q false f.as = none := by
    obtain e | e := port <;> simp [Team.queueCheck, e]
  have free : s.queueTraps op f = none := by
    simp only [State.queueTraps, pops.1, pops.2, if_true, bound, hd]
  have sound : s.badPops op f = [] := by
    rw [State.badPops, hpop]
    obtain e | e := port <;> simp [e]
  have popped : s.popAll (s.group s.cur.gid).team q s.cur.gid [i] = ([(i, e.val)], t) := by
    simp only [State.popAll, List.foldl_cons, List.foldl_nil, State.popQueue_of_unwatched s.cur.gid i hport hw he]
    rfl
  have admitted : t.admitted op f (s.group s.cur.gid) [i] = [i] := by simp only [State.admitted, hd]
  have closed : laneExec op f s body = Run.close { run with s := run.queues op f (s.group s.cur.gid) } (s.disabledFor f) := by
    have single : [i].contains i = true := by simp
    have opened : t.openRun = { s := t, set := g.txSet } := by
      rw [← own]
      rfl
    have same : run = t.openRun.lane op f g [(i, e.val)] (fun u g _ i => body u g [(i, e.val)] i) i := by rw [← own]
    rw [own] at popped admitted ⊢
    rw [same, opened, State.disabledFor, show s.enabledFor f = [i] from h1]
    unfold laneExec
    simp only [hg, h.safe, free, sound, hpop, show s.enabledFor f = [i] from h1, popped, List.filter_cons, List.filter_nil,
      List.contains_nil, List.map_cons, List.map_nil, admitted, Bool.not_false, if_true, Bool.false_eq_true, if_false, single,
      Bool.not_true, List.foldl_cons, List.foldl_nil]
    rfl
  have kept : run.queues op f (s.group s.cur.gid) = run.s := by simp only [Run.queues, hpop, hd, hback, List.isEmpty_nil, if_true]
  rw [closed, kept]

end

/-- `MOV` copies its source. -/
def movBody (f : Full) (s : State) (g : Group) (got : List (Nat × W64)) (i : Nat) : LaneStep :=
  finishAlu s .mov f g [srcA .mov f g i (poppedBy got i)] 0

theorem mov_dest {f : Full} : dest .mov f = destCells ((Op.shape .mov f).dst) (!(Op.shape .mov f).nform && f.xd) f.dst.toNat := rfl

theorem mov_dest_of_queue {f : Full} {q : Nat} (h : destQueue .mov f = some q) : dest .mov f = [.q q] := by
  rw [mov_dest]
  unfold destQueue at h
  split at h
  · rename_i n e
    cases h
    exact e
  · cases h

theorem mov_dest_isReg {s : State} {f : Full} (h : Ready s .mov f) (hd : destQueue .mov f = none) :
    ∀ c ∈ dest .mov f, c.isReg = true := by
  have inside : ∀ r, r ∈ (Op.shape .mov f).dst.regs (!(Op.shape .mov f).nform && f.xd) f.dst.toNat →
      r.outside (s.group s.cur.gid).n (s.group s.cur.gid).m = false :=
    fun r hr => h.range r (List.mem_append_right _ hr)
  refine destCells_isReg (fun r hr => ?_) (fun r hr => ?_) (Full.dst_ok h.legal) fun n hn => ?_
  · have := inside _ hr
    simp [Reg.outside] at this
    exact Nat.lt_of_lt_of_le this h.budget.1
  · have := inside _ hr
    simp [Reg.outside] at this
    exact Nat.lt_of_lt_of_le this h.budget.2
  · simp [destQueue, hn] at hd

/-- Settles O24. -/
theorem queueOperandsPushAndPop : Obligations.QueueOperandsPushAndPop := by
  intro s f i q h1 h
  refine ⟨fun hpop hd hport hw hroom => ?push, fun e r hpop hd hla hport hw he => ?pop⟩
  case push =>
    have port : ((s.team (s.group s.cur.gid).team).queue q).port = 3 ∨ ((s.team (s.group s.cur.gid).team).queue q).port = 8 ∨
      ((s.team (s.group s.cur.gid).team).queue q).port = 9 := by simpa using hport
    have checked : ∀ v, s.pushTrap .mov f (s.group s.cur.gid) v = none := fun v => by
      rw [State.pushTrap, hd]
      obtain e | e | e := port <;> simp [Team.entryCheck, e]
    have present : ∀ v, s.absentRecord .mov f (s.group s.cur.gid) v = none := fun v => by
      rw [State.absentRecord, hd]
      obtain e | e | e := port <;> simp [e]
    have body : movBody f s (s.group s.cur.gid) (s.noneGot f) i = .res s [srcA .mov f (s.group s.cur.gid) i 0] 0 := by
      rw [movBody, finishAlu, checked, State.poppedBy_noneGot]
    have wrote : s.writeDest s.cur.gid i .mov f [srcA .mov f (s.group s.cur.gid) i 0] =
        s.pushQueue (s.group s.cur.gid).team q s.cur.gid i (srcA .mov f (s.group s.cur.gid) i 0) := by
      rw [State.writeDest, mov_dest_of_queue hd]
      rfl
    have run : s.openRun.plainLane s .mov f (movBody f) i = { s.openRun with
        s := s.pushQueue (s.group s.cur.gid).team q s.cur.gid i (srcA .mov f (s.group s.cur.gid) i 0), done := [i] } := by
      refine (Run.lane_of_present (State.openRun_takes h h1.mem) (present _) body).trans ?_
      rw [State.modLane_raise_zero]
      exact congrArg (fun t : State => ({ s.openRun with s := t, done := [i] } : Run)) wrote
    refine congrArg _ ((laneExec_push (body := movBody f) h h1 hpop hd rfl hport hw hroom).trans ?_)
    rw [run]
    dsimp only
    rw [State.wakeQueue_pushQueue s.cur.gid i _ hport hw]
    rw [State.pushQueue_of_unwatched s.cur.gid i _ hport hw]
    refine Run.close_of_done rfl (fun j => ?_) rfl (show _ = s.enabledFor f from h1.symm)
    exact txGone_false h.tx j
  case pop =>
    let t := s.modTeam (s.group s.cur.gid).team (fun t => t.modQueue q (fun x =>
      { x with entries := r, waiters := x.waiters.filter (fun w => w != (s.cur.gid, i)) }))
    have ready : Ready t .mov f := ⟨h.here, h.alive, h.tx, h.safe, h.legal, h.range, h.budget⟩
    have checked : ∀ u v, State.pushTrap u .mov f (s.group s.cur.gid) v = none := fun u v => by rw [State.pushTrap, hd]
    have body : movBody f t (s.group s.cur.gid) [(i, e.val)] i = .res t [srcA .mov f (s.group s.cur.gid) i e.val] 0 := by
      have popped : poppedBy [(i, e.val)] i = e.val := by simp [poppedBy]
      rw [movBody, finishAlu, checked, popped]
    have run := Run.lane_of_res (op := .mov) (f := f) (g := s.group s.cur.gid) (got := [(i, e.val)])
      (body := fun u g _ i => movBody f u g [(i, e.val)] i) (State.openRun_takes ready h1.mem) hd body
    have popped := laneExec_pop (body := movBody f) h h1 hpop hd hport hw he (congrArg Run.back run)
    obtain ⟨lt, on⟩ := mem_enabledFor h1.mem
    obtain ⟨g2, mid⟩ := (Mid.start ready.here (fun _ => destVals (dest .mov f) [srcA .mov f (s.group s.cur.gid) i e.val])
      (fun _ => 0)).res (vals := fun _ => [srcA .mov f (s.group s.cur.gid) i e.val]) lt (mov_dest_isReg h hd) (by simp [hla]) (h.alive i on).1 (h.alive i on).2
    have effect : LaneEffect t (laneExec .mov f s (movBody f)) f
        (fun _ => destVals (dest .mov f) [srcA .mov f (s.group s.cur.gid) i e.val]) (fun _ => 0) := by
      rw [popped, run]
      refine Run.close_res (g1 := g2) rfl ?_ (show _ = t.enabledFor f from h1.symm) rfl rfl rfl h.tx h.alive
      rw [show t.enabledFor f = [i] from h1]
      exact mid
    refine ⟨laneExec .mov f s (movBody f), rfl, ?_, fun c hc => ?_⟩
    · have teams := effect.only.team (s.group s.cur.gid).team
      have port : ((s.team (s.group s.cur.gid).team).queue q).port ≠ 0 := fun k => by simp [k] at hport
      obtain ⟨here, bound⟩ := State.team?_of_port port
      refine (congrArg (fun x : Team => (x.queue q).entries) teams).trans ?_
      rw [State.team_modTeam (fun t => t.modQueue q (fun x =>
        { x with entries := r, waiters := x.waiters.filter (fun w => w != (s.cur.gid, i)) })) (fun _ => rfl) here,
        Team.queue_modQueue _ bound]
    · have cells := effect.cells i lt c hc
      rw [show t.enabledFor f = [i] from h1] at cells
      exact cells

end Sys2Proof.Machine

namespace Sys2Proof.Machine

open Sys2Proof

/-! ### Lookahead windows (02 R35) -/

theorem modAt_modAt {α : Type} (F G : α → α) (l : List α) (i : Nat) : modAt F (modAt G l i) i = modAt (fun x => F (G x)) l i := by
  induction l generalizing i with
  | nil => rfl
  | cons x r ih =>
    cases i with
    | zero => rfl
    | succ i => exact congrArg (x :: ·) (ih i)

theorem Group.modLane_modLane (g : Group) (i : Nat) (F G : Lane → Lane) :
    (g.modLane i G).modLane i F = g.modLane i (fun l => F (G l)) :=
  congrArg (fun ls : List Lane => { g with lanes := ls }) (modAt_modAt F G g.lanes i)

/-- What an instruction that passes changes of a lane that retires nothing. -/
def Lane.passed (size : Nat) (l : Lane) : Lane :=
  { l with pend := l.pend.map (fun p => { p with window := p.window - 1 }), pc := l.pc + w64 size, replay := false }

/-- Whether a pending result retires nothing within `n` instructions: its window is longer, or no value of it is known. -/
def Pend.keepsFor (n : Nat) (p : Pend) : Prop := p.cells ≠ [] ∧ (n < p.window ∨ ∀ c ∈ p.cells, c.2 = none)

/-- Whether a lane retires nothing when it goes on. -/
def Lane.windowsOpen (l : Lane) : Prop := ∀ p ∈ l.pend, p.keepsFor 1

theorem modAt_congr {α : Type} {F G : α → α} {l : List α} {i : Nat} (d : α) (h : i < l.length → F (l.getD i d) = G (l.getD i d)) :
    modAt F l i = modAt G l i := by
  induction l generalizing i with
  | nil => rfl
  | cons x r ih =>
    cases i with
    | zero => exact congrArg (· :: r) (h (Nat.zero_lt_succ _))
    | succ i => exact congrArg (x :: ·) (ih fun hi => h (Nat.succ_lt_succ hi))

theorem Group.modLane_congr {g : Group} {i : Nat} {F G : Lane → Lane} (h : F (g.lane i) = G (g.lane i)) : g.modLane i F = g.modLane i G :=
  congrArg (fun ls : List Lane => { g with lanes := ls }) (modAt_congr { ended := true } fun _ => h)

theorem Group.modLane_self (g : Group) (i : Nat) : g.modLane i (fun l => l) = g := by
  rw [Group.modLane, modAt_self (fun l : Lane => l) _ _ { ended := true } rfl]

/-- A lane whose windows are open, or end with no value known, retires nothing. -/
theorem Group.retire_of_open {g : Group} {i : Nat} (h : ∀ p ∈ (g.lane i).pend, p.keepsFor 0) : g.retire i false = g := by
  have due : ((g.lane i).pend.filter (fun p => false || p.window == 0)).foldl (fun g p => p.cells.foldl (fun g c =>
      match c.2 with
      | some v => g.writeOrdered i c.1 v p.serial
      | none => g) g) g = g := by
    have unknown : ∀ p ∈ (g.lane i).pend.filter (fun p => false || p.window == 0), ∀ c ∈ p.cells, c.2 = none := fun p hp => by
      obtain ⟨hp, ended⟩ := List.mem_filter.1 hp
      have ended : p.window = 0 := by simpa using ended
      exact (h p hp).2.resolve_left (by omega)
    refine List.foldlRecOn _ _ (motive := fun x => x = g) rfl fun x hx p hp => ?_
    refine List.foldlRecOn _ _ (motive := fun x => x = g) hx fun y hy c hc => ?_
    rw [unknown p hp c hc]
    exact hy
  have same : (g.lane i).pend.map (fun p =>
      if false || p.window == 0 then { p with window := 0, cells := p.cells.filter (fun c => c.2.isNone || c.1.isQueue) } else p) =
        (g.lane i).pend := by
    refine (List.map_congr_left fun p hp => ?_).trans (List.map_id _)
    split
    · next ended =>
      have ended : p.window = 0 := by simpa using ended
      have all : p.cells.filter (fun c => c.2.isNone || c.1.isQueue) = p.cells :=
        List.filter_eq_self.2 fun c hc => by simp [(h p hp).2.resolve_left (by omega) c hc]
      rw [all, ← ended]
      rfl
    · rfl
  have kept : (g.lane i).pend.filter (fun p => !p.cells.isEmpty) = (g.lane i).pend :=
    List.filter_eq_self.2 fun p hp => by simpa using (h p hp).1
  have still : g.modLane i (fun l => { l with pend := (g.lane i).pend }) = g := by
    refine (Group.modLane_congr (G := fun l => l) rfl).trans ?_
    exact g.modLane_self i
  unfold Group.retire
  dsimp only
  rw [same, kept]
  exact (congrArg (fun x : Group => x.modLane i (fun l => { l with pend := (g.lane i).pend })) due).trans still

theorem Group.advance_of_open {g : Group} {i : Nat} (size : Nat) (h : (g.lane i).windowsOpen) :
    g.advance i size = g.modLane i (Lane.passed size) := by
  have ticked : g.tickWindows i =
      g.modLane i (fun l => { l with pend := l.pend.map (fun p => { p with window := p.window - 1 }) }) := by
    unfold Group.tickWindows
    by_cases hp : (g.lane i).pend = []
    · rw [hp, List.isEmpty_nil, if_pos rfl]
      refine (g.modLane_self i).symm.trans (Group.modLane_congr ?_)
      rw [hp, List.map_nil, ← hp]
    · have some_ : (g.lane i).pend.isEmpty = false := by simpa using hp
      rw [some_, if_neg Bool.false_ne_true]
      refine Group.retire_of_open fun p hp => ?_
      rw [Group.lane_modLane] at hp
      split at hp
      · obtain ⟨p', hp', rfl⟩ := List.mem_map.1 hp
        obtain ⟨cells, wide | unknown⟩ := h p' hp'
        · exact ⟨cells, .inl (by show 0 < p'.window - 1; omega)⟩
        · exact ⟨cells, .inr unknown⟩
      · obtain ⟨cells, wide | unknown⟩ := h p hp
        · exact ⟨cells, .inl (by omega)⟩
        · exact ⟨cells, .inr unknown⟩
  rw [Group.advance, ticked, Group.modLane_modLane]
  rfl

/-- Lanes whose windows all stay open go on. -/
theorem Group.advanceAll_of_open (size : Nat) {ls : List Nat} (hn : ls.Nodup) (g : Group)
    (h : ∀ i ∈ ls, (g.lane i).windowsOpen ∧ i < g.lanes.length) :
    { g.advanceAll ls size with lanes := g.lanes } = g ∧
      ∀ j, (g.advanceAll ls size).lane j = if j ∈ ls then (g.lane j).passed size else g.lane j := by
  induction ls generalizing g with
  | nil => exact ⟨rfl, fun j => by simp [Group.advanceAll]⟩
  | cons i ls ih =>
    obtain ⟨hi, hn⟩ := List.nodup_cons.1 hn
    obtain ⟨windows, bound⟩ := h i List.mem_cons_self
    have first : g.advanceAll (i :: ls) size = (g.modLane i (Lane.passed size)).advanceAll ls size := by
      rw [← Group.advance_of_open size windows]
      rfl
    obtain ⟨frame, lanes⟩ := ih hn (g.modLane i (Lane.passed size)) fun j hj => by
      have other : j ≠ i := fun e => hi (e ▸ hj)
      rw [Group.lane_modLane, if_neg fun k => other k.1, Group.modLane_length]
      exact h j (List.mem_cons_of_mem _ hj)
    refine ⟨by rw [first]; exact (congrArg (fun x : Group => { x with lanes := g.lanes }) frame :), fun j => ?_⟩
    rw [first, lanes j, Group.lane_modLane]
    by_cases hj : j = i
    · subst hj
      simp [hi, bound]
    · simp [hj]

theorem State.group?_modLane (s : State) (gid i : Nat) (F : Lane → Lane) :
    (s.modLane gid i F).group? gid = (s.group? gid).map (fun g => g.modLane i F) :=
  State.group?_modGroup s gid (fun g => g.modLane i F) fun _ => rfl

/-- The state in which a lane is owed a value for a window. -/
def State.owing (s : State) (gid i : Nat) (f : Full) (c : RCell) (v : W64) : State :=
  State.modLane { s.modLane gid i (fun l => l.dropCells [c]) with serial := s.serial + 1 } gid i (fun l =>
    { l with pend := l.pend ++ [{ serial := s.serial, window := f.la.toNat + 1, cells := [(c, some v)], tick := s.ticks, pc := s.cur.pc }] })

/-- A long-latency result with a window is owed. -/
theorem State.writeDest_of_window {s : State} {f : Full} {i : Nat} {op : Op} {c : RCell} (gid : Nat) (v : W64) (hd : dest op f = [c])
    (hc : c.isQueue = false) (hla : f.la ≠ 0) (hlong : f.isLong op = true) : s.writeDest gid i op f [v] = s.owing gid i f c v := by
  have window : (f.la == 0 || !f.isLong op) = false := by
    rw [hlong, beq_eq_false_iff_ne.2 hla]
    rfl
  have cells : destVals (dest op f) [v] = [(c, v)] := by
    rw [hd]
    cases c <;> rfl
  unfold State.writeDest
  rw [cells]
  dsimp only
  split
  · contradiction
  · rename_i q v' e
    obtain ⟨e, -⟩ := Prod.mk.inj (List.cons.inj e).1
    rw [e] at hc
    cases hc
  · rw [window, if_neg Bool.false_ne_true]
    rfl

/-- The destination of `FRCP` is one register. -/
theorem frcp_dest {f : Full} (hq' : destQueue .frcp f = none) : ∃ c, dest .frcp f = [c] ∧ c.isQueue = false := by
  have cells : dest .frcp f = destCells (.g 1 1 true) f.xd f.dst.toNat := rfl
  have queue : destQueue .frcp f = match destCells (.g 1 1 true) f.xd f.dst.toNat with
    | [.q n] => some n
    | _ => none := rfl
  rw [cells]
  rw [queue] at hq'
  cases hx : f.xd with
  | false => exact ⟨.g f.dst.toNat, rfl, rfl⟩
  | true =>
    by_cases hk : f.dst.toNat < 0x40
    · exact ⟨.k f.dst.toNat, by simp [destCells, hk], rfl⟩
    · simp [destCells, hx, hk] at hq'

/-- What an owed result changes of its lane. -/
def Lane.takeOwed (p : Pend) (c : RCell) (fl : FlagSet) (l : Lane) : Lane :=
  Lane.raise { l.dropCells [c] with pend := (l.dropCells [c]).pend ++ [p] } fl

/-- The result of the current issue that a lane is owed, with its window. -/
def State.owed (s : State) (f : Full) (c : RCell) (v : W64) : Pend :=
  { serial := s.serial, window := f.la.toNat + 1, cells := [(c, some v)], tick := s.ticks, pc := s.cur.pc }

theorem State.owing_group? {s : State} {g : Group} {gid : Nat} (i : Nat) (f : Full) (c : RCell) (v : W64) (fl : FlagSet)
    (hg : s.group? gid = some g) :
    ((s.owing gid i f c v).modLane gid i (fun l => l.raise fl)).group? gid =
      some (g.modLane i (Lane.takeOwed (s.owed f c v) c fl)) := by
  have dropped : (State.group? { s.modLane gid i (fun l => l.dropCells [c]) with serial := s.serial + 1 } gid) =
      some (g.modLane i (fun l => l.dropCells [c])) := by
    rw [← Option.map_some (f := fun g : Group => g.modLane i fun l => l.dropCells [c]), ← hg, ← State.group?_modLane]
    rfl
  rw [State.group?_modLane, State.owing, State.group?_modLane, dropped, Option.map_some, Option.map_some, Group.modLane_modLane,
    Group.modLane_modLane]
  rfl

/-- The group of an issue once lanes of it have gone on. -/
theorem State.goOn_group? {s t : State} {g : Group} (cur : t.cur = s.cur) (h : t.group? s.cur.gid = some g) (ls : List Nat) :
    (t.goOn ls).group? s.cur.gid = some (g.advanceAll ls s.cur.size) := by
  rw [State.goOn, cur, State.group?_modGroup _ _ (fun g => g.advanceAll ls s.cur.size) fun g => g.advanceAll_id _ _, h]
  rfl

/-- The group after an issue on one lane that is owed its result: all lanes have gone on, and no window is closed. -/
theorem State.owing_goOn {s : State} {op : Op} {f : Full} {i : Nat} (h : Ready s op f) (h1 : OneLane s f i) (hla : f.la ≠ 0) (c : RCell)
    (v : W64) (fl : FlagSet) :
    ∃ g1, (((s.owing s.cur.gid i f c v).modLane s.cur.gid i (fun l => l.raise fl)).goOn (lanesOf s.cur.lanes)).group? s.cur.gid = some g1 ∧
      { g1 with lanes := (s.group s.cur.gid).lanes } = s.group s.cur.gid ∧
      (g1.lane i).pend = [{ s.owed f c v with window := f.la.toNat }] ∧ (g1.lane i).pc = s.pastPc i := by
  obtain ⟨g, hg⟩ := Option.isSome_iff_exists.1 h.here
  have own := State.group_of_group? hg
  obtain ⟨lt, on⟩ := mem_enabledFor h1.mem
  have alive := h.alive
  rw [own] at alive
  have bound := Group.lane_lt (alive i on).1
  have wide : 1 < f.la.toNat + 1 := by
    have : f.la.toNat ≠ 0 := fun e => hla (BitVec.eq_of_toNat_eq (by simpa using e))
    omega
  have own_ : (g.modLane i (Lane.takeOwed (s.owed f c v) c fl)).lane i = { (g.lane i) with pend := [s.owed f c v], fflags := (g.lane i).fflags ||| fl } := by
    rw [Group.lane_modLane, if_pos ⟨rfl, bound⟩, Lane.takeOwed, Lane.dropCells_nil _ _ (alive i on).2, (alive i on).2]
    rfl
  have others : ∀ j, j ≠ i → (g.modLane i (Lane.takeOwed (s.owed f c v) c fl)).lane j = g.lane j := fun j hj => by
    rw [Group.lane_modLane, if_neg fun k => hj k.1]
  have windows : ∀ j ∈ lanesOf s.cur.lanes, ((g.modLane i (Lane.takeOwed (s.owed f c v) c fl)).lane j).windowsOpen ∧
      j < (g.modLane i (Lane.takeOwed (s.owed f c v) c fl)).lanes.length := fun j hj => by
    rw [Group.modLane_length]
    have live := alive j (inMask_lanesOf.1 hj).2
    refine ⟨fun p hp => ?_, Group.lane_lt live.1⟩
    by_cases hji : j = i
    · rw [hji, own_] at hp
      obtain rfl := List.mem_singleton.1 hp
      exact ⟨nofun, .inl wide⟩
    · rw [others j hji, live.2] at hp
      cases hp
  obtain ⟨frame, lane⟩ := Group.advanceAll_of_open s.cur.size (lanesOf_nodup s.cur.lanes) _ windows
  have i_ : i ∈ lanesOf s.cur.lanes := inMask_lanesOf.2 ⟨lt, on⟩
  refine ⟨(g.modLane i (Lane.takeOwed (s.owed f c v) c fl)).advanceAll (lanesOf s.cur.lanes) s.cur.size, ?_, ?_, ?_, ?_⟩
  · exact State.goOn_group? (t := (s.owing s.cur.gid i f c v).modLane s.cur.gid i (fun l => l.raise fl)) rfl (State.owing_group? i f c v fl hg) _
  · rw [own]
    exact (congrArg (fun x : Group => { x with lanes := g.lanes }) frame :)
  · refine (congrArg Lane.pend ((lane i).trans (if_pos i_))).trans ?_
    rw [own_]
    rfl
  · refine (congrArg Lane.pc ((lane i).trans (if_pos i_))).trans ?_
    rw [own_, State.pastPc, own]
    rfl

/-- The reciprocal and its flags that the current issue computes on a lane. -/
def State.reciprocal (s : State) (f : Full) (i : Nat) : Nat × FlagSet :=
  frcpVal (s.envFor f) (low32 (srcA .frcp f (s.group s.cur.gid) i 0))

/-- The state after `FRCP` has left its result owed on a lane. -/
def State.owingReciprocal (s : State) (f : Full) (i : Nat) (c : RCell) : State :=
  (s.owing s.cur.gid i f c (w64 (s.reciprocal f i).1)).modLane s.cur.gid i (fun l => l.raise (s.reciprocal f i).2)

/-- `FRCP` on one lane with a window leaves its result owed. -/
theorem execFrcp_of_window {s : State} {f : Full} {i : Nat} {c : RCell} (h1 : OneLane s f i) (h : Ready s .frcp f) (hq : noQueue .frcp f)
    (hla : f.la ≠ 0) (hd : dest .frcp f = [c]) (hc : c.isQueue = false) :
    exec (.frcp f) s = .next ((s.owingReciprocal f i c).goOn (lanesOf s.cur.lanes)) := by
  obtain ⟨g, hg⟩ := Option.isSome_iff_exists.1 h.here
  have after : (s.owingReciprocal f i c).group? s.cur.gid = some _ := State.owing_group? i f c _ _ hg
  have body : finishAlu s .frcp f (s.group s.cur.gid) [w64 (s.reciprocal f i).1] (s.reciprocal f i).2 =
      .res s [w64 (s.reciprocal f i).1] (s.reciprocal f i).2 := finishAlu_of_noQueue hq _ _ _ _
  have run : s.openRun.plainLane s .frcp f (fun u g got i =>
      let (vals, fl) := f32Un (frcpVal (s.envFor f)) g i (srcA .frcp f g i (poppedBy got i)) (srcB .frcp f g i) (srcC .frcp f g i)
      finishAlu u .frcp f g vals fl) i = { s.openRun with s := s.owingReciprocal f i c, done := [i] } := by
    refine (Run.lane_of_res (t := s) (vals := [w64 (s.reciprocal f i).1]) (fl := (s.reciprocal f i).2)
      (State.openRun_takes h h1.mem) hq.2 ?_).trans ?_
    · simp only [State.poppedBy_noneGot, f32Un, lowBits_eq_low32]
      exact body
    · rw [State.owingReciprocal, ← State.writeDest_of_window s.cur.gid _ hd hc hla rfl]
      rfl
  refine congrArg _ ((laneExec_one h hq h1).trans ?_)
  rw [run]
  refine Run.close_of_done rfl (fun j => ?_) rfl (show _ = s.enabledFor f from h1.symm)
  have gone := txGone_false h.tx j
  rw [State.group_of_group? hg] at gone
  refine Eq.trans ?_ gone
  rw [Run.aborted]
  refine congr (congrArg and ?_) ?_
  · exact congrArg (fun g : Group => inMask g.txSet j) (State.group_of_group? hg)
  · exact (congrArg Group.txGone (State.group_of_group? after) :)

/-- Settles O25. -/
theorem lookaheadKeepsTheOldValue : Obligations.LookaheadKeepsTheOldValue := by
  intro s f i h1 h hq hla
  obtain ⟨c, hd, hc⟩ := frcp_dest hq.2
  obtain ⟨g1, here, frame, pend, pc⟩ := State.owing_goOn h h1 hla c (w64 (s.reciprocal f i).1) (s.reciprocal f i).2
  refine ⟨_, execFrcp_of_window h1 h hq hla hd hc, ?_⟩
  dsimp only
  rw [State.owingReciprocal, State.group_of_group? here, hd]
  refine ⟨fun j _ k => Group.readCell_of_lanes frame j k, pend.trans ?_, pc⟩
  cases c <;> rfl

end Sys2Proof.Machine

namespace Sys2Proof.Machine

open Sys2Proof

/-! ### Pairs (02 R38 to R40) -/

/-- The registers that a legal field names within the budgets are registers. -/
theorem destCells_isReg_of_range {op : Op} {f : Full} {n m : Nat} (h : f.illegal op = none)
    (hr : ∀ r ∈ (op.shape f).dst.regs (!(op.shape f).nform && f.xd) f.dst.toNat, r.outside n m = false) (hn : n ≤ 256) (hm : m ≤ 32)
    (hd : destQueue op f = none) :
    ∀ c ∈ destCells (op.shape f).dst (!(op.shape f).nform && f.xd) f.dst.toNat, c.isReg = true := by
  refine destCells_isReg (fun r hg => ?_) (fun r hw => ?_) (Full.dst_ok h) fun q hq => ?_
  · have := hr _ hg
    simp [Reg.outside] at this
    exact Nat.lt_of_lt_of_le this hn
  · have := hr _ hw
    simp [Reg.outside] at this
    exact Nat.lt_of_lt_of_le this hm
  · simp [destQueue, hq] at hd

/-- What a pairable half can write: a predicate, or a run of general registers. -/
theorem COp.dst_of_pairable {c : COp} (hc : c.pairable = true) (f : Full) :
    (∃ n a, (c.op.shape f).dst = .g n a true) ∨ (c.op.shape f).dst = .p true := by
  have wide : ∀ w, ∃ n a, gW w = .g n a true := fun w => by
    unfold gW
    split <;> exact ⟨_, _, rfl⟩
  cases c
  case wadd | wsub | wmul | wmin | wmax => cases hc
  case pand | por | pxor => exact .inr rfl
  case iadd | isub | imul | imin | imax | shl | shr | sar | and | or | xor | andn | rol => exact .inl (wide _)
  all_goals exact .inl ⟨_, _, rfl⟩

theorem Half.xd_expand (as : Bool) (h : Half) : (h.expand as).xd = false := by
  have : (h.mod.setWidth 6).getLsbD 5 = false := by simp
  exact this

theorem Half.shape_expand (as : Bool) (h : Half) : h.op.op.shape (h.expand as) = h.op.op.shape (h.expand false) := by
  obtain ⟨op, dst, src, gp, gn, mod⟩ := h
  cases op <;> rfl

theorem Half.dest_expand (as : Bool) (h : Half) :
    dest h.op.op (h.expand as) = if (h.op.op.shape (h.expand false)).dw then
      destCells (h.op.op.shape (h.expand false)).dst false h.dst.toNat else [] := by
  have other : h.op.op ≠ .atomCas := by
    cases h.op <;> decide
  simp only [dest, Half.shape_expand as, Half.xd_expand, other]
  cases (h.op.op.shape (h.expand false)).dw <;> simp [Half.expand]

/-- A cell that a pairable half writes. -/
theorem Half.mem_dest {as : Bool} {h : Half} (hp : h.op.pairable = true) {x : RCell} (hx : x ∈ dest h.op.op (h.expand as)) :
    (∃ r, x = .g r ∧ r % 4 ∈ banks ((h.expand false).writes h.op.op)) ∨ (∃ r, x = .p r ∧ h.predWritten = some r) := by
  have other : h.op.op ≠ .atomCas := by
    cases h.op <;> decide
  have run : (h.op.op.shape (h.expand false)).dw = true →
      (h.expand false).writes h.op.op = (h.op.op.shape (h.expand false)).dst.regs false h.dst.toNat := fun hdw => by
    simp only [Full.writes, other, hdw, Half.xd_expand, Bool.and_false, if_true]
    rfl
  rw [Half.dest_expand] at hx
  cases hdw : (h.op.op.shape (h.expand false)).dw with
  | false => simp [hdw] at hx
  | true =>
    rw [hdw, if_pos rfl] at hx
    obtain ⟨n, a, hd⟩ | hd := COp.dst_of_pairable hp (h.expand false)
    · rw [hd] at hx
      obtain ⟨j, hj, rfl⟩ := List.mem_map.1 hx
      refine .inl ⟨_, rfl, ?_⟩
      rw [run hdw, hd, banks, List.mem_filterMap]
      exact ⟨.g (h.dst.toNat + j), List.mem_map.2 ⟨j, hj, rfl⟩, rfl⟩
    · rw [hd] at hx
      obtain rfl := List.mem_singleton.1 hx
      exact .inr ⟨_, rfl, by rw [Half.predWritten, hd]⟩

/-- The halves of a legal pair write different cells. -/
theorem pair_disjoint {as : Bool} {h0 h1 : Half} (h : pairIllegal h0 h1 = none) {x : RCell} (hx : x ∈ dest h0.op.op (h0.expand as)) :
    x ∉ dest h1.op.op (h1.expand as) := by
  unfold pairIllegal at h
  dsimp only at h
  obtain ⟨p0, h⟩ := passed_of_ite_eq_none h
  obtain ⟨p1, h⟩ := passed_of_ite_eq_none h
  obtain ⟨reads, h⟩ := passed_of_ite_eq_none h
  obtain ⟨writes, h⟩ := passed_of_ite_eq_none h
  obtain ⟨preds, _⟩ := passed_of_ite_eq_none h
  have first := Half.mem_dest (as := as) (h := h0) (x := x) (by simpa using p0)
  have second := Half.mem_dest (as := as) (h := h1) (x := x) (by simpa using p1)
  intro hy
  obtain ⟨r, rfl, hr⟩ | ⟨r, rfl, hr⟩ := first hx
  · obtain ⟨r', e, hr'⟩ | ⟨r', e, hr'⟩ := second hy
    · cases e
      simp only [disjointBanks, Bool.not_eq_true', Bool.not_eq_false, List.all_eq_true, List.contains_eq_mem,
        decide_eq_false_iff_not] at writes
      exact writes _ hr hr'
    · cases e
  · obtain ⟨r', e, hr'⟩ | ⟨r', e, hr'⟩ := second hy
    · cases e
    · cases e
      simp [hr, hr'] at preds

/-- Both halves of a legal pair are pairable. -/
theorem pairable_of_legal {h0 h1 : Half} (h : pairIllegal h0 h1 = none) : h0.op.pairable = true ∧ h1.op.pairable = true := by
  unfold pairIllegal at h
  dsimp only at h
  obtain ⟨p0, h⟩ := passed_of_ite_eq_none h
  obtain ⟨p1, _⟩ := passed_of_ite_eq_none h
  exact ⟨by simpa using p0, by simpa using p1⟩

/-- What a half writes on a lane is of its destination. -/
theorem halfOn_keys (s : State) (as : Bool) (h : Half) (g : Group) (i : Nat) :
    ((halfOn s as h g i).1.map (·.1)).Nodup ∧ ∀ x ∈ (halfOn s as h g i).1, x.1 ∈ dest h.op.op (h.expand as) := by
  unfold halfOn
  dsimp only
  split
  · exact destVals_keys _ _ (dest_nodup _ _)
  · exact ⟨List.nodup_nil, nofun⟩

/-- What both halves write on a lane. -/
def pairOut (s : State) (as : Bool) (h0 h1 : Half) (i : Nat) : List (RCell × W64) :=
  (halfOn s as h0 (s.group s.cur.gid) i).1 ++ (halfOn s as h1 (s.group s.cur.gid) i).1

theorem pairOut_nodup (s : State) (as : Bool) {h0 h1 : Half} (h : pairIllegal h0 h1 = none) (i : Nat) :
    ((pairOut s as h0 h1 i).map (·.1)).Nodup := by
  rw [pairOut, List.map_append, List.nodup_append]
  refine ⟨(halfOn_keys s as h0 _ i).1, (halfOn_keys s as h1 _ i).1, fun x hx y hy e => ?_⟩
  obtain ⟨x', hx', rfl⟩ := List.mem_map.1 hx
  obtain ⟨y', hy', rfl⟩ := List.mem_map.1 hy
  exact pair_disjoint h ((halfOn_keys s as h0 _ i).2 x' hx') (e ▸ (halfOn_keys s as h1 _ i).2 y' hy')

theorem pairOut_mem {s : State} {as : Bool} {h0 h1 : Half} {i : Nat} {x : RCell × W64} (hx : x ∈ pairOut s as h0 h1 i) :
    x.1 ∈ dest h0.op.op (h0.expand as) ∨ x.1 ∈ dest h1.op.op (h1.expand as) :=
  (List.mem_append.1 hx).imp ((halfOn_keys s as h0 _ i).2 x) ((halfOn_keys s as h1 _ i).2 x)

/-- Both halves write registers of their own lane alone. -/
theorem pairOut_not_k {s : State} {as : Bool} {h0 h1 : Half} (h : pairIllegal h0 h1 = none) {i : Nat} {x : RCell × W64}
    (hx : x ∈ pairOut s as h0 h1 i) (r : Nat) : x.1 ≠ .k r := by
  obtain ⟨p0, p1⟩ := pairable_of_legal h
  intro e
  obtain hx | hx := pairOut_mem hx
  · obtain ⟨_, e', _⟩ | ⟨_, e', _⟩ := Half.mem_dest p0 hx <;> exact RCell.noConfusion (e.symm.trans e')
  · obtain ⟨_, e', _⟩ | ⟨_, e', _⟩ := Half.mem_dest p1 hx <;> exact RCell.noConfusion (e.symm.trans e')

theorem Half.dest_isReg {as : Bool} {h : Half} {n m : Nat} (hp : h.op.pairable = true) (hl : h.illegal = none)
    (hr : ((h.expand as).named h.op.op).any (fun r => r.outside n m) = false) (hn : n ≤ 256) (hm : m ≤ 32) :
    ∀ c ∈ dest h.op.op (h.expand as), c.isReg = true := by
  intro c hc
  rw [Half.dest_expand] at hc
  cases hdw : (h.op.op.shape (h.expand false)).dw with
  | false => simp [hdw] at hc
  | true =>
    rw [hdw, if_pos rfl] at hc
    have plain : (!(h.op.op.shape (h.expand false)).nform && (h.expand false).xd) = false := by simp [Half.xd_expand]
    refine destCells_isReg_of_range hl (fun r hmem => ?_) hn hm ?_ c (by rw [plain]; exact hc)
    · refine Bool.eq_false_iff.2 (List.any_eq_false.1 hr r (List.mem_append_right _ ?_))
      rw [Half.shape_expand, Half.xd_expand, Bool.and_false]
      rw [plain] at hmem
      exact hmem
    · obtain ⟨n, a, hd⟩ | hd := COp.dst_of_pairable hp (h.expand false)
      · rw [destQueue, plain, hd]
        split
        · rename_i q e
          have : RCell.q q ∈ destCells (.g n a true) false (h.expand false).dst.toNat := by rw [e]; exact List.mem_cons_self
          obtain ⟨_, _, k⟩ := List.mem_map.1 this
          cases k
        · rfl
      · rw [destQueue, plain, hd]
        rfl

theorem Group.writeNow_modLane (g : Group) (i j : Nat) (F : Lane → Lane) (c : RCell) (v : W64) (n : Nat) :
    (g.modLane j F).writeNow i c v n = (g.writeNow i c v n).modLane j F := by
  cases c with
  | p r =>
    show (g.modLane j F).writeP i r (v != 0) = (g.writeP i r (v != 0)).modLane j F
    unfold Group.writeP
    split <;> rfl
  | _ => rfl

theorem Group.writeCells_modLane (cs : List (RCell × W64)) (g : Group) (i j n : Nat) (F : Lane → Lane) :
    (g.modLane j F).writeCells i cs n = (g.writeCells i cs n).modLane j F := by
  induction cs generalizing g with
  | nil => rfl
  | cons x cs ih =>
    refine (congrArg (Group.writeCells · i cs n) (g.writeNow_modLane i j F x.1 x.2 n)).trans ?_
    exact ih (g.writeNow i x.1 x.2 n)

/-- Beside the registers of a whole group, the order of writes keeps no record. -/
theorem Group.foldl_writeCell (cs : List (RCell × W64)) (hk : ∀ x ∈ cs, ∀ r, x.1 ≠ .k r) (g : Group) (i n : Nat) :
    cs.foldl (fun g c => g.writeCell i c.1 c.2) g = g.writeCells i cs n := by
  induction cs generalizing g with
  | nil => rfl
  | cons x cs ih =>
    have same : g.writeCell i x.1 x.2 = g.writeNow i x.1 x.2 n := by
      have := hk x List.mem_cons_self
      revert this
      cases x.1 with
      | k r => exact fun k => absurd rfl (k r)
      | _ => exact fun _ => rfl
    rw [List.foldl_cons, same]
    exact ih (fun y hy => hk y (List.mem_cons_of_mem _ hy)) (g.writeNow i x.1 x.2 n)

/-- The flags that both halves raise on a lane. -/
def pairFlags (s : State) (as : Bool) (h0 h1 : Half) (i : Nat) : FlagSet :=
  (halfOn s as h0 (s.group s.cur.gid) i).2 ||| (halfOn s as h1 (s.group s.cur.gid) i).2

/-- The effect of a pair on a lane that is owed nothing. -/
theorem pairLane_eq {s : State} {as : Bool} {h0 h1 : Half} (h : pairIllegal h0 h1 = none) (g1 : Group) (i n : Nat)
    (hp : (g1.lane i).pend = []) :
    pairLane s as h0 h1 (s.group s.cur.gid) g1 i =
      (g1.writeCells i (pairOut s as h0 h1 i) n).modLane i (fun l => l.raise (pairFlags s as h0 h1 i)) := by
  have plain : g1.modLane i (fun l => (l.dropCells ((pairOut s as h0 h1 i).map (·.1))).raise (pairFlags s as h0 h1 i)) =
      g1.modLane i (fun l => l.raise (pairFlags s as h0 h1 i)) :=
    Group.modLane_congr (congrArg (Lane.raise · _) (Lane.dropCells_nil _ _ hp))
  refine (congrArg (List.foldl (fun (g : Group) (c : RCell × W64) => g.writeCell i c.1 c.2) · (pairOut s as h0 h1 i)) plain).trans ?_
  rw [Group.foldl_writeCell _ (fun x hx => pairOut_not_k h hx) _ i n, Group.writeCells_modLane]

/-- The group after both halves on the lanes of a list. -/
theorem Mid.pairs {s : State} {as : Bool} {h0 h1 : Half} (h : pairIllegal h0 h1 = none)
    (hreg : ∀ i, ∀ x ∈ pairOut s as h0 h1 i, x.1.isReg = true) (ls : List Nat)
    (hls : ∀ i ∈ ls, i < 32 ∧ ((s.group s.cur.gid).lane i).ended = false ∧ ((s.group s.cur.gid).lane i).pend = [])
    {t : State} {g1 : Group} {ds : List Nat} (hm : Mid s t (s.group s.cur.gid) g1 ds (pairOut s as h0 h1) (pairFlags s as h0 h1)) :
    ∃ u, Mid s u (s.group s.cur.gid) (ls.foldl (fun g i => pairLane s as h0 h1 (s.group s.cur.gid) g i) g1) (ds ++ ls)
      (pairOut s as h0 h1) (pairFlags s as h0 h1) := by
  induction ls generalizing t g1 ds with
  | nil => exact ⟨t, by simpa using hm⟩
  | cons i ls ih =>
    obtain ⟨lt, live, pend⟩ := hls i List.mem_cons_self
    have next := hm.write 0 lt (hreg i) (pairOut_nodup s as h i) live
    have owed : (g1.lane i).pend = [] := by rw [hm.lanes i]; exact pend
    rw [← pairLane_eq h g1 i 0 owed] at next
    obtain ⟨u, mid⟩ := ih (fun j hj => hls j (List.mem_cons_of_mem _ hj)) next
    exact ⟨u, by simpa using mid⟩

/-- Operands whose guard is true on every lane. -/
def unguarded : Full := { as := false, dst := 0, sa := 0, sb := 0, sc := 0, gp := 0, gn := false, la := 0, mod := 0, lit := none }

theorem enabledFor_unguarded (s : State) : s.enabledFor unguarded = lanesOf s.cur.lanes := by
  refine List.filter_eq_self.2 fun i _ => ?_
  simp [Group.readP, unguarded]

theorem Group.writeCell_id (g : Group) (i : Nat) (c : RCell) (v : W64) : (g.writeCell i c v).id = g.id := by
  cases c with
  | p r =>
    show (g.writeP i r (v != 0)).id = g.id
    unfold Group.writeP
    split <;> rfl
  | _ => rfl

theorem pairLane_id (s : State) (as : Bool) (h0 h1 : Half) (g0 g : Group) (i : Nat) : (pairLane s as h0 h1 g0 g i).id = g.id :=
  foldl_keeps Group.id (fun (g : Group) (c : RCell × W64) => g.writeCell i c.1 c.2) (fun g c => g.writeCell_id i c.1 c.2) _ _

/-- On a lane of the issue, what a pair writes is what it writes on that lane alone. -/
theorem written_of_mem {ls : List Nat} {out : Nat → List (RCell × W64)} {i : Nat} (hi : i ∈ ls) (hk : ∀ j, ∀ x ∈ out j, ∀ r, x.1 ≠ .k r)
    (c : RCell) : written ls out i c = written [i] (fun _ => out i) i c := by
  have none_ : ∀ j r, (out j).lookup (.k r) = none := fun j r => by
    exact List.lookup_eq_none_iff.2 fun x hx => bne_iff_ne.2 (hk j x hx r).symm
  cases c with
  | k r =>
    have left : written ls out i (.k r) = ls.reverse.findSome? (fun j => (out j).lookup (.k r)) := rfl
    rw [left, List.findSome?_eq_none_iff.2 fun j _ => none_ j r]
    simp [written, none_]
  | p r => cases r <;> simp [written, hi]
  | _ => simp [written, hi]

/-- The group of an issue after a pair, its lanes past it. -/
def pairGroup (s : State) (as : Bool) (h0 h1 : Half) (g0 : Group) : Group :=
  ((lanesOf s.cur.lanes).foldl (fun g i => pairLane s as h0 h1 g0 g i) g0).advanceAll (lanesOf s.cur.lanes) s.cur.size

theorem pairGroup_id (s : State) (as : Bool) (h0 h1 : Half) (g0 : Group) : (pairGroup s as h0 h1 g0).id = g0.id :=
  (Group.advanceAll_id _ _ _).trans (foldl_keeps Group.id _ (fun g i => pairLane_id s as h0 h1 g0 g i) _ _)

/-- Settles O26: the pair acts on the lanes one after another, each from the registers before the pair. -/
theorem pairHalvesReadBeforeEitherWrites : Obligations.PairHalvesReadBeforeEitherWrites := by
  intro s as h0 h1 here legal range hn hm alive
  have checks : (h0.illegal.isNone && h1.illegal.isNone && (pairIllegal h0 h1).isNone) = true := legal
  have legal' : h0.illegal = none ∧ h1.illegal = none ∧ pairIllegal h0 h1 = none := by
    simpa [and_assoc] using checks
  obtain ⟨l0, l1, pair⟩ := legal'
  obtain ⟨p0, p1⟩ := pairable_of_legal pair
  have range' : ((h0.expand as).named h0.op.op).any (fun r => r.outside (s.group s.cur.gid).n (s.group s.cur.gid).m) = false ∧
      ((h1.expand as).named h1.op.op).any (fun r => r.outside (s.group s.cur.gid).n (s.group s.cur.gid).m) = false := by
    have unfolded : (if ((h0.expand as).named h0.op.op).any (fun r => r.outside (s.group s.cur.gid).n (s.group s.cur.gid).m) then some 0
      else if ((h1.expand as).named h1.op.op).any (fun r => r.outside (s.group s.cur.gid).n (s.group s.cur.gid).m) then some 0x80
      else none) = none := range
    obtain ⟨b0, unfolded⟩ := passed_of_ite_eq_none unfolded
    obtain ⟨b1, _⟩ := passed_of_ite_eq_none unfolded
    exact ⟨Bool.eq_false_iff.2 b0, Bool.eq_false_iff.2 b1⟩
  obtain ⟨r0, r1⟩ := range'
  have reg : ∀ i, ∀ x ∈ pairOut s as h0 h1 i, x.1.isReg = true := fun i x hx =>
    (pairOut_mem hx).elim (Half.dest_isReg p0 l0 r0 hn hm x.1) (Half.dest_isReg p1 l1 r1 hn hm x.1)
  have live : ∀ i ∈ lanesOf s.cur.lanes, i < 32 ∧ ((s.group s.cur.gid).lane i).ended = false ∧ ((s.group s.cur.gid).lane i).pend = [] :=
    fun i hi => ⟨(inMask_lanesOf.1 hi).1, alive i (inMask_lanesOf.1 hi).2⟩
  obtain ⟨u, mid⟩ := Mid.pairs pair reg (lanesOf s.cur.lanes) live (Mid.start here _ _)
  rw [List.nil_append, ← enabledFor_unguarded] at mid
  have moves : LaneMoves s (u.goOn (lanesOf s.cur.lanes)) unguarded (pairOut s as h0 h1) (pairFlags s as h0 h1) s.pastPc := by
    refine Mid.goOn mid rfl (lanesOf_nodup _) (fun i hi => (live i hi).2) (fun i hi => ?_) fun i _ hi => ⟨fun k => hi (inMask_lanesOf.1 k).2, rfl⟩
    rw [if_pos (inMask_lanesOf.2 ⟨lt_of_inMask hi, hi⟩)]
    rfl
  obtain ⟨g, hg⟩ := Option.isSome_iff_exists.1 here
  have own := State.group_of_group? hg
  have ids := pairGroup_id s as h0 h1
  have same : (s.modGroup s.cur.gid (pairGroup s as h0 h1)).group s.cur.gid = (u.goOn (lanesOf s.cur.lanes)).group s.cur.gid := by
    have left : (s.modGroup s.cur.gid (pairGroup s as h0 h1)).group? s.cur.gid = some (pairGroup s as h0 h1 g) := by
      rw [State.group?_modGroup s _ (pairGroup s as h0 h1) ids, hg]
      rfl
    have right := State.goOn_group? mid.only.cur mid.here (lanesOf s.cur.lanes)
    rw [State.group_of_group? left, State.group_of_group? right, own, enabledFor_unguarded, pairGroup]
  refine ⟨s.modGroup s.cur.gid (pairGroup s as h0 h1), rfl, (OnlyGroup.refl s).modGroup _ ids, fun i lt hi => ?_⟩
  have mem := inMask_lanesOf.2 ⟨lt, hi⟩
  have lane := moves.lanes i lt
  rw [if_pos hi, enabledFor_unguarded] at lane
  rw [same]
  refine ⟨fun c hc => ?_, congrArg Lane.pc lane, ?_⟩
  · have cells := moves.cells i lt c hc
    rw [enabledFor_unguarded, written_of_mem mem fun j x hx => pairOut_not_k pair hx] at cells
    exact cells
  · refine (congrArg Lane.fflags lane).trans ?_
    simp [mem, pairFlags]

end Sys2Proof.Machine

namespace Sys2Proof.Machine

open Sys2Proof

/-! ### The ends of waits (O42) -/

theorem State.id_of_group? {s : State} {id : Nat} {g : Group} (h : s.group? id = some g) : g.id = id := by
  simpa using List.find?_some h

/-- A change of one lane of a group. -/
theorem LaneBecomes.modLane {s : State} {g : Group} (h : s.group? g.id = some g) {i : Nat} (hi : i < g.lanes.length)
    {F : Lane → Lane} {l : Lane} (hl : F (g.lane i) = l) : LaneBecomes s (s.modLane g.id i F) g.id i l := by
  have before : s.group g.id = g := State.group_of_group? h
  have after : (s.modLane g.id i F).group g.id = g.modLane i F :=
    State.group_of_group? ((s.group?_modLane g.id i F).trans (by rw [h]; rfl))
  refine ⟨?_, fun j hj => ?_, ?_, fun id hid => State.group?_modGroup_ne s (fun x => x.modLane i F) (fun _ => rfl) hid, rfl⟩
  · rw [after, Group.lane_modLane, if_pos ⟨rfl, hi⟩, hl]
  · rw [after, before, Group.lane_modLane, if_neg fun k => hj k.1]
  · rw [after, before]
    rfl

/-- The only result that a lane is owed, for a general register, is written when its window is over. -/
theorem Group.retire_of_one {g : Group} {i r : Nat} {v : W64} {p : Pend} (hp : (g.lane i).pend = [p]) (hw : p.window = 0)
    (hc : p.cells = [(.g r, some v)]) : g.retire i false = (g.writeCell i (.g r) v).modLane i (fun l => { l with pend := [] }) := by
  simp [Group.retire, hp, hw, hc, Group.writeOrdered, RCell.isQueue]

theorem Group.queueDue_of_no_pend {g : Group} {i : Nat} (h : (g.lane i).pend = []) : g.queueDue i = none := by
  simp [Group.queueDue, h]

theorem Group.lane_writeG (g : Group) (i r : Nat) (v : W32) (j : Nat) : (g.writeG i r v).lane j = g.lane j := rfl

theorem State.modGroup_group_of {s : State} {g : Group} (h : s.group? g.id = some g) (F : Group → Group) (hF : ∀ x, (F x).id = x.id) :
    (s.modGroup g.id F).group g.id = F g :=
  State.group_of_group? ((State.group?_modGroup s g.id F hF).trans (by rw [h]; rfl))

/-- What one lane does when a trapped group goes on at its own program counters. -/
def Group.replayLane (g : Group) (i : Nat) : Group :=
  if inMask g.trapMask i then g.modLane i (fun l => { l with park := if l.park == 5 then 0 else l.park, replay := l.replay && true })
  else g

theorem Group.replayLane_ne (g : Group) {i j : Nat} (h : j ≠ i) : (g.replayLane i).lane j = g.lane j := by
  unfold Group.replayLane
  split
  · rw [Group.lane_modLane, if_neg fun k => h k.1]
  · rfl

theorem Group.replayLane_mask (g : Group) (i : Nat) : (g.replayLane i).trapMask = g.trapMask := by
  unfold Group.replayLane
  split <;> rfl

theorem Group.replayLane_id (g : Group) (i : Nat) : (g.replayLane i).id = g.id := by
  unfold Group.replayLane
  split <;> rfl

theorem Group.resume_nil (g : Group) : g.resume [] = { laneIds.foldl Group.replayLane g with stopped := false } := rfl

theorem Group.resume_id (g : Group) : (g.resume []).id = g.id :=
  foldl_keeps Group.id Group.replayLane Group.replayLane_id laneIds g

theorem Group.replayLane_pc (g : Group) (i j : Nat) : ((g.replayLane i).lane j).pc = (g.lane j).pc := by
  unfold Group.replayLane
  split
  · rw [Group.lane_modLane]
    split <;> rfl
  · rfl

theorem Group.resume_pc (g : Group) (j : Nat) : ((g.resume []).lane j).pc = (g.lane j).pc :=
  foldl_keeps (fun g : Group => (g.lane j).pc) Group.replayLane (fun g i => g.replayLane_pc i j) laneIds g

/-- A trapped lane that stands by its trap is parked no more. -/
theorem Group.resume_park {g : Group} {j : Nat} (hj : j < 32) (hm : inMask g.trapMask j = true) (hp : (g.lane j).park = 5) :
    ((g.resume []).lane j).park = 0 := by
  have long : j < g.lanes.length := by
    refine Nat.lt_of_not_le fun short => ?_
    rw [Group.lane, getD_of_length_le short] at hp
    cases hp
  have once : ∀ (ls : List Nat) (x : Group), ls.Nodup → x.trapMask = g.trapMask → x.lane j = g.lane j → j < x.lanes.length → j ∈ ls →
      ((ls.foldl Group.replayLane x).lane j).park = 0 := by
    intro ls
    induction ls with
    | nil => intro x _ _ _ _ h; cases h
    | cons i ls ih =>
      intro x hn mask own len hmem
      obtain ⟨hi, hn⟩ := List.nodup_cons.1 hn
      rw [List.foldl_cons]
      by_cases e : j = i
      · subst e
        rw [Group.lane_foldl_of_not_mem (fun g _ _ h => g.replayLane_ne h) hi, Group.replayLane, mask, hm, if_pos rfl,
          Group.lane_modLane, if_pos ⟨rfl, len⟩, own]
        simp [hp]
      · refine ih _ hn ((x.replayLane_mask i).trans mask) ((x.replayLane_ne e).trans own) ?_
          ((List.mem_cons.1 hmem).resolve_left e)
        unfold Group.replayLane
        split
        · simpa using len
        · exact len
  exact once laneIds g (List.nodup_range (n := 32)) rfl rfl long (mem_laneIds.2 hj)

/-- Settles O42. -/
theorem waitsOfLanesEnd : Obligations.WaitsOfLanesEnd := by
  intro s g hg
  have id : g.id = s.ev.obj := State.id_of_group? hg
  have here : s.group? g.id = some g := id ▸ hg
  have now : s.group g.id = g := State.group_of_group? here
  dsimp only
  refine ⟨fun hi hy => ⟨_, rfl, ?yield⟩, fun hi hp ht => ⟨_, rfl, ?nap⟩, fun p r v hi hlen hr hpend hw hc => ?retire,
    fun hf => ⟨_, rfl, ?replay⟩, fun x c n htx hd hl => ⟨_, rfl, ?abort⟩, ?hint, fun h => ?none⟩
  case yield =>
    rw [← id]
    exact .modLane here hi (by simp [hy])
  case nap =>
    rw [← id]
    exact .modLane here hi (by simp [hp, ht])
  case retire =>
    have due := Group.retire_of_one hpend hw hc
    have after := State.modGroup_group_of here (fun x => x.retire s.ev.sub false) fun x => x.retire_id _ _
    have gone : ((g.retire s.ev.sub false).lane s.ev.sub).pend = [] := by
      rw [due, Group.lane_modLane, if_pos ⟨rfl, hlen⟩]
    refine ⟨s.modGroup g.id (fun x => x.retire s.ev.sub false), ?_, by rw [after]; exact gone, ?_, fun c hreg hne => ?_⟩
    · show execLongLatencyRetire s = _
      unfold execLongLatencyRetire
      simp only [← id, after, Group.queueDue_of_no_pend gone]
    · rw [after, due, Group.readG_modLane]
      exact (readG_writeG g _ hr hr).trans (if_pos ⟨rfl, rfl⟩)
    · rw [after, due, Group.readCell_modLane, readCell_writeCell g (.g r) c v hi hi (by simpa [RCell.isReg] using hr) hreg]
      refine if_neg fun hit => hne ?_
      cases c <;> simp_all [RCell.hits]
  case replay =>
    rw [← id, hf]
    have after : (s.resumeTrap g.id []).group g.id = g.resume [] :=
      State.modGroup_group_of here (fun x => x.resume []) Group.resume_id
    refine ⟨?_, fun j => ⟨?_, fun hj hm hp => ?_⟩⟩
    · exact congrArg Group.stopped after
    · exact (congrArg (fun x : Group => (x.lane j).pc) after).trans (g.resume_pc j)
    · exact (congrArg (fun x : Group => (x.lane j).park) after).trans (Group.resume_park hj hm hp)
  case abort =>
    have dead : (s.group s.ev.obj).tx.bind (·.dead) = some (c, n) := by rw [← id, now, htx]; exact hd
    rw [dead, ← id]
    obtain ⟨tx, status, _, lanes⟩ := Group.txAbort_lanes htx c n hl
    have parks := OnlyParks.txAbort s g.id c n
    have rest := parks.group g.id
    have lane := parks.lane g.id
    rw [State.modGroup_group_of here (fun x => x.txAbort c n) fun x => x.txAbort_id _ _] at rest lane
    refine ⟨(congrArg Group.tx rest :).trans tx, (congrArg Group.txstat rest :).trans status, fun j hj hm => ?_⟩
    obtain ⟨pc, pd⟩ := lanes j hj hm
    exact ⟨(congrArg Lane.pc (lane j) :).trans pc, fun hne => (congrArg (fun y : Group => y.readP j x.pd) rest :).trans (pd hne)⟩
  case hint =>
    show execStallHintEnd s = _
    rw [execStallHintEnd, id]
  case none =>
    unfold State.hintOf
    split
    · rfl
    · next m e =>
      have empty : s.hints.filter (fun h => h.die == dieOfCore g.core && h.peer == m && decide (s.time < h.t)) = [] := by
        refine List.filter_eq_nil_iff.2 fun x hx => ?_
        have := h x hx
        simp_all
      rw [empty]
      rfl

end Sys2Proof.Machine

namespace Sys2Proof.Machine

open Sys2Proof

/-! ### Fences (O34) -/

/-- Nothing stalls a group of these numbers any more. -/
theorem State.group?_foldl_unstall (ids : List Nat) (s : State) {id : Nat} {g : Group} (h : s.group? id = some g) :
    (ids.foldl (fun s id => s.modGroup id (fun g => { g with wait := .none })) s).group? id =
      some (if id ∈ ids then { g with wait := .none } else g) := by
  induction ids generalizing s g with
  | nil => simpa using h
  | cons a ids ih =>
    rw [List.foldl_cons]
    by_cases e : id = a
    · subst e
      have step := (State.group?_modGroup s id (fun g => { g with wait := .none }) fun _ => rfl).trans (by rw [h])
      rw [ih _ step, if_pos List.mem_cons_self]
      split <;> rfl
    · have step := (State.group?_modGroup_ne s (fun g => { g with wait := .none }) (fun _ => rfl) e).trans h
      rw [ih _ step]
      simp [e]

/-- A group of a state whose groups have different numbers is the one that its number finds. -/
theorem State.eq_of_group? {s : State} {g x : Group} (hn : (s.groups.map (fun (x : Group) => x.id)).Nodup)
    (h : s.group? g.id = some g) (hx : x ∈ s.groups) (he : x.id = g.id) : x = g :=
  eq_of_nodup_map hn hx (List.mem_of_find?_eq_some h) he

theorem State.settleWaits_group? {s : State} {g : Group} (hn : (s.groups.map (fun (x : Group) => x.id)).Nodup)
    (h : s.group? g.id = some g) :
    s.settleWaits.group? g.id = some (if s.waitOver g = true then { g with wait := .none } else g) := by
  have mem_free : g.id ∈ (s.groups.filter s.waitOver).map (fun (g : Group) => g.id) ↔ s.waitOver g = true := by
    refine ⟨fun hm => ?_, fun ho => ?_⟩
    · obtain ⟨x, hx, he⟩ := List.mem_map.1 hm
      obtain ⟨hx, ho⟩ := List.mem_filter.1 hx
      exact State.eq_of_group? hn h hx he ▸ ho
    · exact List.mem_map_of_mem (List.mem_filter.2 ⟨List.mem_of_find?_eq_some h, ho⟩)
  rw [State.settleWaits, State.group?_foldl_unstall _ s h]
  simp only [mem_free]

theorem State.waitOver_fence {s : State} {g : Group} {wide slack : Bool} (h : g.wait = .fence wide slack) :
    s.waitOver g = true ↔ (∀ l ∈ g.lanes, l.back ≤ s.ticks) ∧
      (if wide = true then s.unperformed g.id = false ∧ s.engineOwes g.id = false ∧
          g.wctime + (if slack = false then 0 else if s.tstat = .locked ∨ s.tstat = .holdover then 50 else 1000) ≤ s.time
        else s.unreturned g.id = false ∧ g.rowtime ≤ s.time) := by
  have synced : s.synced = true ↔ s.tstat = .locked ∨ s.tstat = .holdover := by
    unfold State.synced
    cases s.tstat <;> decide
  unfold State.waitOver
  rw [h]
  simp only [Bool.and_eq_true, List.all_eq_true, decide_eq_true_eq, synced.symm]
  refine and_congr_right fun _ => ?_
  cases wide
  · simp
  · cases slack <;> simp [and_assoc]

/-- Settles O34. -/
theorem fenceStallsTheGroup : Obligations.FenceStallsTheGroup := by
  refine ⟨fun s f h hen hsafe => ?issue, fun s g wide slack h hn hw => ⟨fun ended => ?done, fun on => ?still⟩⟩
  case issue =>
    show execFence f s = _
    have some : (s.enabledFor f).isEmpty = false := by simpa using hen
    rw [execFence, hsafe, some]
    rfl
  case done => rw [State.settleWaits_group? hn h, if_pos ((State.waitOver_fence hw).2 ended)]
  case still => rw [State.settleWaits_group? hn h, if_neg fun k => on ((State.waitOver_fence hw).1 k)]

end Sys2Proof.Machine

namespace Sys2Proof.Machine

open Sys2Proof

/-! ### Cache operations (O33) -/

/-- The base of a memory operand is no queue (07 Table 7-1). -/
theorem Full.popsQueue_of_memop {op : Op} {f : Full} (h : f.illegal op = none) (hm : (op.shape f).mem ≠ .no) : f.popsQueue op = false := by
  simp only [Full.illegal, orCheck_none] at h
  obtain ⟨_, _, _, _, _, base, _⟩ := h
  rw [if_pos hm] at base
  cases hx : f.xa with
  | false => simp [Full.popsQueue, hx]
  | true => simp [Full.memBase, hx] at base

/-- A memory operand beside a destination that is none or a predicate names no queue. -/
theorem noQueue_of_memop {op : Op} {f : Full} (h : f.illegal op = none) (hm : (op.shape f).mem ≠ .no)
    (hd : (op.shape f).dst = .unused ∨ (op.shape f).dst = .p true) : noQueue op f := by
  have hdst : destQueue op f = none := by obtain hd | hd := hd <;> rw [destQueue, hd] <;> rfl
  exact ⟨by simp [popQueueOf, Full.popsQueue_of_memop h hm, hdst], hdst⟩

/-- An instruction that is not a long one has no window (02 R35). -/
theorem Full.la_of_legal {op : Op} {f : Full} (h : f.illegal op = none) (hl : f.isLong op = false) : f.la = 0 := by
  simp only [Full.illegal, orCheck_none] at h
  obtain ⟨_, window, _⟩ := h
  simpa [hl] using window

theorem AccessKeeps.refl {s : State} (h : (s.group? s.cur.gid).isSome = true) : AccessKeeps s s := by
  obtain ⟨g, hg⟩ := Option.isSome_iff_exists.1 h
  exact ⟨rfl, g.wctime, by rw [State.group_of_group? hg]; exact hg⟩

section

variable {s t : State} {op : Op} {f : Full} {i p : Nat} {held : State → Nat → Bool} {act : State → Group → Nat → Nat → State}

/-- A cache operation on a permitted global address whose line nothing holds. -/
theorem lineExec_of_ok (h : Ready s op f) (h1 : OneLane s f i) (htx : (s.group s.cur.gid).tx = none) (hm : (op.shape f).mem ≠ .no)
    (hd : (op.shape f).dst = .unused) (hdw : (op.shape f).dw = false) (hsp : spaceOf op f = .global)
    (ht : s.translate (s.group s.cur.gid).tenant (effAddr f (s.group s.cur.gid) i) .read = .ok p) (hheld : held s p = false)
    (ha : act s (s.group s.cur.gid) i p = t) (hk : AccessKeeps s t) :
    LaneEffect t (lineExec op f s held act) f (fun _ => []) (fun _ => 0) := by
  have no : dest op f = [] := by simp [dest, hdw]
  have effect := laneExec_one_res (vals := []) (fl := 0)
    (body := fun s g _ i =>
      if spaceOf op f != .global then .res s [] 0
      else match s.translate g.tenant (effAddr f g i) .read with
        | .error _ => .res s [] 0
        | .ok p => if held s p then .stay s else .res (act s g i p) [] 0)
    h (noQueue_of_memop h.legal hm (.inl hd)) h1 htx (.inl ⟨no, rfl⟩) hk (by simp [hsp, ht, hheld, ha])
  rwa [no] at effect

/-- A cache operation elsewhere. -/
theorem lineExec_of_elsewhere (h : Ready s op f) (h1 : OneLane s f i) (htx : (s.group s.cur.gid).tx = none)
    (hm : (op.shape f).mem ≠ .no) (hd : (op.shape f).dst = .unused) (hdw : (op.shape f).dw = false)
    (hno : spaceOf op f ≠ .global ∨
      ∃ e, s.translate (s.group s.cur.gid).tenant (effAddr f (s.group s.cur.gid) i) .read = .error e) :
    LaneEffect s (lineExec op f s held act) f (fun _ => []) (fun _ => 0) := by
  have no : dest op f = [] := by simp [dest, hdw]
  have effect := laneExec_one_res (vals := []) (fl := 0)
    (body := fun s g _ i =>
      if spaceOf op f != .global then .res s [] 0
      else match s.translate g.tenant (effAddr f g i) .read with
        | .error _ => .res s [] 0
        | .ok p => if held s p then .stay s else .res (act s g i p) [] 0)
    h (noQueue_of_memop h.legal hm (.inl hd)) h1 htx (.inl ⟨no, rfl⟩) (.refl h.here) (by
      obtain far | ⟨e, ht⟩ := hno
      · simp [far]
      · split
        · rfl
        · rw [ht])
  rwa [no] at effect

end

/-- Settles O33. -/
theorem cacheOperations : Obligations.CacheOperations := by
  intro s f i h1 htx
  dsimp only
  refine ⟨fun p hsp ht => ⟨fun h hk => ⟨_, rfl, ?cwb⟩, fun h hk => ⟨_, rfl, ?cinv⟩, fun h hr hf hb hk => ⟨_, rfl, ?pref⟩⟩,
    fun hno => ⟨fun h => ⟨_, rfl, ?cwbFar⟩, fun h => ⟨_, rfl, ?cinvFar⟩, fun h => ⟨_, rfl, ?prefFar⟩⟩, fun h ha => ⟨_, rfl, ?pres⟩⟩
  case cwb => exact lineExec_of_ok h h1 htx nofun rfl rfl hsp ht rfl rfl hk
  case cinv => exact lineExec_of_ok h h1 htx nofun rfl rfl hsp ht rfl rfl hk
  case pref =>
    have route : s.routeHeld p = false := by
      cases hroute : s.routeHeld p with
      | false => rfl
      | true => simp [State.fetchHeld, hroute] at hf
    exact lineExec_of_ok h h1 htx nofun rfl rfl hsp ht (by simp [hf, hb]) (by simp [hr, route]) hk
  case cwbFar => exact lineExec_of_elsewhere h h1 htx nofun rfl rfl hno
  case cinvFar => exact lineExec_of_elsewhere h h1 htx nofun rfl rfl hno
  case prefFar => exact lineExec_of_elsewhere h h1 htx nofun rfl rfl hno
  case pres =>
    have hq : noQueue .lspres f := noQueue_of_memop h.legal nofun (.inr rfl)
    exact laneExec_one_res h hq h1 htx (.inr (Full.la_of_legal h.legal (not_isLong hq rfl (by decide)))) (.refl h.here)
      (by simp [Nat.not_le.2 ha])

end Sys2Proof.Machine

namespace Sys2Proof.Machine

open Sys2Proof

/-! ### Results that are owed (02 R35) -/

/-- What a lane is owed once it has gone on past the instruction that asks for it. -/
def State.owedPend (s : State) (op : Op) (f : Full) (n : Nat) : Pend :=
  { serial := n, window := f.la.toNat, cells := (dest op f).map (fun c => (c, none)), tick := s.ticks, pc := s.cur.pc,
    atom := if op = .atom ∨ op = .atomCas then some f.as else none,
    high := match dest op f with
      | [.g _, .g h] => some h
      | _ => none }

/-- What a result with no value yet changes of its lane. -/
def State.oweLane (s : State) (op : Op) (f : Full) (n : Nat) (l : Lane) : Lane :=
  { l.dropCells (dest op f) with pend := (l.dropCells (dest op f)).pend ++ [{ s.owedPend op f n with window := f.la.toNat + 1 }] }

theorem State.oweDest_group? {s : State} {g : Group} (gid i : Nat) (op : Op) (f : Full) (n : Nat) (h : s.group? gid = some g) :
    (s.oweDest gid i op f n).group? gid = some (g.modLane i (s.oweLane op f n)) := by
  refine (State.group?_modLane _ gid i _).trans ?_
  rw [State.group?_modLane s gid i (fun l => l.dropCells (dest op f)), h]
  exact congrArg some (Group.modLane_modLane g i _ _)

/-- A lane that its access leaves with a result owed goes on with the others of its issue. -/
theorem laneExec_one_owed {s t : State} {op : Op} {f : Full} {i n : Nat} {body : State → Group → List (Nat × W64) → Nat → LaneStep}
    (h : Ready s op f) (hq : noQueue op f) (h1 : OneLane s f i) (htx : (s.group s.cur.gid).tx = none) (hk : AccessKeeps s t)
    (hd : dest op f ≠ []) (hb : body s (s.group s.cur.gid) (s.noneGot f) i = .owe t n) :
    (((laneExec op f s body).group s.cur.gid).lane i).pend = [t.owedPend op f n] ∧
      (((laneExec op f s body).group s.cur.gid).lane i).pc = s.pastPc i := by
  obtain ⟨cur, w, here⟩ := id hk
  have alive := h.alive
  obtain ⟨lt, on⟩ := mem_enabledFor h1.mem
  obtain ⟨g, hg⟩ : ∃ g, g = { s.group s.cur.gid with wctime := w } := ⟨_, rfl⟩
  rw [← hg] at here
  have same : ∀ j, g.lane j = (s.group s.cur.gid).lane j := fun j => by rw [hg]; rfl
  have bound : i < g.lanes.length := Group.lane_lt (by rw [same]; exact (alive i on).1)
  have own : (g.modLane i (t.oweLane op f n)).lane i =
      { g.lane i with pend := [{ t.owedPend op f n with window := f.la.toNat + 1 }] } := by
    have none : (g.lane i).pend = [] := by rw [same]; exact (alive i on).2
    rw [Group.lane_modLane, if_pos ⟨rfl, bound⟩, State.oweLane, Lane.dropCells_nil _ _ none, none]
    rfl
  have windows : ∀ j ∈ lanesOf s.cur.lanes, ((g.modLane i (t.oweLane op f n)).lane j).windowsOpen ∧
      j < (g.modLane i (t.oweLane op f n)).lanes.length := fun j hj => by
    rw [Group.modLane_length]
    have live := alive j (inMask_lanesOf.1 hj).2
    rw [← same] at live
    refine ⟨fun p hp => ?_, Group.lane_lt live.1⟩
    by_cases hji : j = i
    · rw [hji, own] at hp
      obtain rfl := List.mem_singleton.1 hp
      exact ⟨by simpa [State.owedPend] using hd, .inr fun c hc => by obtain ⟨_, _, rfl⟩ := List.mem_map.1 hc; rfl⟩
    · rw [Group.lane_modLane, if_neg fun k => hji k.1, live.2] at hp
      cases hp
  obtain ⟨-, lane⟩ := Group.advanceAll_of_open s.cur.size (lanesOf_nodup s.cur.lanes) _ windows
  have kept : (t.oweDest s.cur.gid i op f n).cur = t.cur := rfl
  have after : (laneExec op f s body).group s.cur.gid = (g.modLane i (t.oweLane op f n)).advanceAll (lanesOf s.cur.lanes) s.cur.size := by
    rw [laneExec_one_owe htx cur h hq h1 hb kept]
    exact State.group_of_group? (State.goOn_group? (kept.trans cur) (State.oweDest_group? s.cur.gid i op f n here) _)
  rw [after, lane i, if_pos (inMask_lanesOf.2 ⟨lt, on⟩), own]
  refine ⟨rfl, ?_⟩
  rw [State.pastPc, ← same]
  rfl

/-! ### Atomics (07 R132, R133) -/

theorem leVal_lt (bs : List Byte) : leVal bs < 2 ^ (8 * bs.length) := by
  induction bs with
  | nil => exact Nat.one_pos
  | cons b r ih =>
    have := b.isLt
    rw [leVal, List.length_cons, Nat.mul_add, Nat.pow_add]
    omega

theorem two_pow_byte (n : Nat) : 2 ^ (8 * (n + 1)) = 256 * 2 ^ (8 * n) := by
  rw [Nat.mul_succ, Nat.pow_add]
  omega

/-- The bytes of a number, least significant first, hold it. -/
theorem leVal_bytes (n v : Nat) : leVal ((List.range n).map (fun i => BitVec.ofNat 8 (v / 2 ^ (8 * i)))) = v % 2 ^ (8 * n) := by
  induction n generalizing v with
  | zero => simp [leVal, Nat.mod_one]
  | succ n ih =>
    have shift : ∀ i, v / 2 ^ (8 * (i + 1)) = v / 256 / 2 ^ (8 * i) := fun i => by
      rw [two_pow_byte, Nat.div_div_eq_div_mul]
    rw [List.range_succ_eq_map, List.map_cons, List.map_map, leVal]
    simp only [Function.comp_def, shift, ih]
    rw [two_pow_byte, Nat.mod_mul]
    simp

theorem Memory.length_bytes (m : List Host.Cell) (a n : Nat) : (Memory.bytes m a n).length = n := by
  induction n generalizing a with
  | zero => rfl
  | succ n ih => exact congrArg (· + 1) (ih _)

theorem Memory.bytes_eq_map (m : List Host.Cell) (a n : Nat) : Memory.bytes m a n = (List.range n).map (fun i => Memory.byte m (a + i)) := by
  induction n generalizing a with
  | zero => rfl
  | succ n ih =>
    rw [Memory.bytes, ih, List.range_succ_eq_map, List.map_cons, List.map_map]
    simp [Function.comp_def, Nat.add_assoc, Nat.add_comm 1]

/-- The last of the cells written to an address is read there. -/
theorem Memory.byte_setCells_map (m : List Host.Cell) (a : Nat) (b : Nat → Byte) (l : List Nat) (i : Nat) (hi : i ∈ l) :
    Memory.byte (Memory.setCells m (l.map (fun i => (a + i, b i)))) (a + i) = b i := by
  induction l generalizing m with
  | nil => cases hi
  | cons k l ih =>
    by_cases hl : i ∈ l
    · exact ih _ hl
    · obtain rfl := (List.mem_cons.1 hi).resolve_right hl
      rw [List.map_cons, Memory.setCells, Memory.byte_setCells_out _ _ _ fun c hc => ?_, Memory.byte_setByte, if_pos rfl]
      obtain ⟨j, hj, rfl⟩ := List.mem_map.1 hc
      exact fun e => hl ((Nat.add_left_cancel e) ▸ hj)

/-- Bytes that an atomic writes are read back. -/
theorem Memory.leVal_setCells (m : List Host.Cell) (a n v : Nat) :
    leVal (Memory.bytes (Memory.setCells m ((List.range n).map (fun i => (a + i, BitVec.ofNat 8 (v / 2 ^ (8 * i)))))) a n) =
      v % 2 ^ (8 * n) := by
  rw [Memory.bytes_eq_map, ← leVal_bytes]
  exact congrArg leVal (List.map_congr_left fun i hi => Memory.byte_setCells_map m a (fun i => BitVec.ofNat 8 (v / 2 ^ (8 * i))) _ i hi)


/-! #### The new value of an atomic's word (07 Table 7-3) -/

/-- The word of an atomic after it, in its bytes. -/
theorem WriteOp.atom_word (m : List Host.Cell) (a op ty : Nat) (v : W64) :
    leVal (Memory.bytes (Memory.setCells m (WriteOp.apply (.atom a op ty v) m).1) a (atomBytes op ty)) =
      (atomNew op ty (w64 (leVal (Memory.bytes m a (atomBytes op ty)))) v).toNat % 2 ^ (8 * atomBytes op ty) :=
  Memory.leVal_setCells ..

theorem leVal_memory_lt (m : List Host.Cell) (a n : Nat) : leVal (Memory.bytes m a n) < 2 ^ (8 * n) := by
  have small := leVal_lt (Memory.bytes m a n)
  rwa [Memory.length_bytes] at small

theorem signed32 (b : W32) : signed 32 b.toNat = b.toInt := by
  have := b.isLt
  rw [signed, BitVec.toInt_eq_toNat_cond]
  split <;> split <;> omega

theorem signed32_lt (b c : W32) : (decide (signed 32 b.toNat < signed 32 c.toNat)) = b.slt c := by
  rw [signed32, signed32]
  rfl

/-- A number that is written as a 32-bit word. -/
theorem ofNat32_w64 (n : Nat) : BitVec.ofNat 32 ((w64 n).toNat % 2 ^ 32) = BitVec.ofNat 32 n := by
  refine BitVec.eq_of_toNat_eq ?_
  simp only [w64, BitVec.toNat_ofNat]
  omega

/-- A number that is written as a 64-bit word. -/
theorem ofNat64_w64 (n : Nat) : BitVec.ofNat 64 ((w64 n).toNat % 2 ^ 64) = BitVec.ofNat 64 n := by
  refine BitVec.eq_of_toNat_eq ?_
  simp only [w64, BitVec.toNat_ofNat]
  omega

section

variable (m : List Host.Cell) (a x : Nat) (v : W64)

/-- The 32-bit word that an atomic leaves at its address. -/
def atomWord32 (op ty : Nat) : W32 :=
  BitVec.ofNat 32 (leVal (Memory.bytes (Memory.setCells m (WriteOp.apply (.atom a op ty v) m).1) a 4))

/-- The 64-bit word that an atomic leaves at its address. -/
def atomWord64 (op ty : Nat) : W64 :=
  BitVec.ofNat 64 (leVal (Memory.bytes (Memory.setCells m (WriteOp.apply (.atom a op ty v) m).1) a 8))

theorem old32_low : ((w64 (leVal (Memory.bytes m a 4))).setWidth 32 : W32) = BitVec.ofNat 32 (leVal (Memory.bytes m a 4)) := by
  refine BitVec.eq_of_toNat_eq ?_
  simp only [w64, BitVec.toNat_ofNat, BitVec.toNat_setWidth]
  omega

theorem old32_wide : w64 (leVal (Memory.bytes m a 4)) = (BitVec.ofNat 32 (leVal (Memory.bytes m a 4)) : W32).setWidth 64 := by
  have small := leVal_memory_lt m a 4
  refine BitVec.eq_of_toNat_eq ?_
  simp only [w64, BitVec.toNat_ofNat, BitVec.toNat_setWidth]
  omega

theorem operand32_toNat : v.toNat % 2 ^ 32 = (v.setWidth 32 : W32).toNat := (BitVec.toNat_setWidth ..).symm

theorem atomWord32_eq {op ty n : Nat} (hn : atomBytes op ty = 4) (h : atomNew op ty (w64 (leVal (Memory.bytes m a 4))) v = w64 n) :
    atomWord32 m a v op ty = BitVec.ofNat 32 n := by
  have word := WriteOp.atom_word m a op ty v
  rw [hn, h] at word
  rw [atomWord32, word, ← ofNat32_w64 n]

theorem atomWord64_eq {op ty n : Nat} (hn : atomBytes op ty = 8) (h : atomNew op ty (w64 (leVal (Memory.bytes m a 8))) v = w64 n) :
    atomWord64 m a v op ty = BitVec.ofNat 64 n := by
  have word := WriteOp.atom_word m a op ty v
  rw [hn, h] at word
  rw [atomWord64, word, ← ofNat64_w64 n]

theorem atomWord32_add : atomWord32 m a v 0 0 = BitVec.ofNat 32 (leVal (Memory.bytes m a 4)) + v.setWidth 32 := by
  rw [atomWord32_eq m a v (n := ((w64 (leVal (Memory.bytes m a 4))).toNat % 2 ^ 32 + v.toNat % 2 ^ 32) % 2 ^ 32) rfl rfl, operand32_toNat,
    old32_low]
  refine BitVec.eq_of_toNat_eq ?_
  simp only [BitVec.toNat_ofNat, BitVec.toNat_add, BitVec.toNat_setWidth, Nat.mod_mod]

theorem ofNat32_ite (c : Bool) (b d : W32) : BitVec.ofNat 32 (if c then b.toNat else d.toNat) = if c then b else d := by
  cases c <;> simp

/-- The signed or unsigned comparison of the two operands of an atomic on 32 bits. -/
def atomLess (ty : Nat) (o u : W32) : Bool := if ty % 2 == 0 then o.slt u else decide (o < u)

theorem atomLess_eq (ty : Nat) (o u : W32) :
    (if (ty % 2 == 0) = true then decide (signed 32 o.toNat < signed 32 u.toNat) else decide (o.toNat < u.toNat)) = atomLess ty o u := by
  rw [signed32_lt]
  rfl

theorem atomWord32_min {ty : Nat} (hty : ty < 2) : atomWord32 m a v 1 ty =
    if atomLess ty (BitVec.ofNat 32 (leVal (Memory.bytes m a 4))) (v.setWidth 32) then BitVec.ofNat 32 (leVal (Memory.bytes m a 4))
      else v.setWidth 32 := by
  have narrow : atomBytes 1 ty = 4 := by simp [atomBytes, hty]
  rw [atomWord32_eq m a v narrow, ← ofNat32_ite, ← atomLess_eq]
  simp only [atomNew, Nat.not_le.2 hty, decide_false, Bool.false_and, Bool.false_eq_true, if_false, operand32_toNat, old32_low]
  split <;> simp only [decide_eq_true_eq]

theorem atomWord32_max {ty : Nat} (hty : ty < 2) : atomWord32 m a v 2 ty =
    if atomLess ty (BitVec.ofNat 32 (leVal (Memory.bytes m a 4))) (v.setWidth 32) then v.setWidth 32
      else BitVec.ofNat 32 (leVal (Memory.bytes m a 4)) := by
  have narrow : atomBytes 2 ty = 4 := by simp [atomBytes, hty]
  rw [atomWord32_eq m a v narrow, ← ofNat32_ite, ← atomLess_eq]
  simp only [atomNew, Nat.not_le.2 hty, decide_false, Bool.false_and, Bool.false_eq_true, if_false, operand32_toNat, old32_low]
  split <;> simp only [decide_eq_true_eq]

theorem ofNat64_toNat (b : W64) : BitVec.ofNat 64 b.toNat = b := by simp

/-- The word of a 64-bit atomic whose result is a word of its operands. -/
theorem atomWord64_of {op : Nat} {r : W64} (hop : op < 7) (h : atomNew op 2 (w64 (leVal (Memory.bytes m a 8))) v = w64 r.toNat) :
    atomWord64 m a v op 2 = r :=
  (atomWord64_eq m a v (by simp [atomBytes, hop]) h).trans (ofNat64_toNat r)

theorem toNat_mod64 (b : W64) : b.toNat % 2 ^ 64 = b.toNat := Nat.mod_eq_of_lt b.isLt

theorem atomNew64_add (o : W64) : atomNew 0 2 o v = w64 (o + v).toNat := by
  show w64 ((o.toNat % 2 ^ 64 + v.toNat % 2 ^ 64) % 2 ^ 64) = _
  rw [toNat_mod64, toNat_mod64, BitVec.toNat_add]

theorem atomNew64_and (o : W64) : atomNew 3 2 o v = w64 (o &&& v).toNat := by
  show w64 (o.toNat % 2 ^ 64 &&& v.toNat % 2 ^ 64) = _
  rw [toNat_mod64, toNat_mod64, BitVec.toNat_and]

theorem atomNew64_or (o : W64) : atomNew 4 2 o v = w64 (o ||| v).toNat := by
  show w64 (o.toNat % 2 ^ 64 ||| v.toNat % 2 ^ 64) = _
  rw [toNat_mod64, toNat_mod64, BitVec.toNat_or]

theorem atomNew64_xor (o : W64) : atomNew 5 2 o v = w64 (o ^^^ v).toNat := by
  show w64 (o.toNat % 2 ^ 64 ^^^ v.toNat % 2 ^ 64) = _
  rw [toNat_mod64, toNat_mod64, BitVec.toNat_xor]

theorem atomNew64_exchange (o : W64) : atomNew 6 2 o v = w64 v.toNat := by
  show w64 (v.toNat % 2 ^ 64) = _
  rw [toNat_mod64]

end

/-- An atomic compare and swap on 64 bits that finds its value leaves the new one. -/
theorem casWord64 (m : List Host.Cell) (a : Nat) (v c : W64) (h : w64 (leVal (Memory.bytes m a 8)) = c) :
    leVal (Memory.bytes (Memory.setCells m (WriteOp.apply (.cas a true c v) m).1) a 8) = v.toNat := by
  have swapped : (WriteOp.apply (.cas a true c v) m).1 = (List.range 8).map (fun i => (a + i, BitVec.ofNat 8 (v.toNat / 2 ^ (8 * i)))) := by
    simp [WriteOp.apply, h]
  rw [swapped, Memory.leVal_setCells]
  exact Nat.mod_eq_of_lt v.isLt

theorem cas_of_ne (m : List Host.Cell) (a : Nat) (v c : W64) (h : w64 (leVal (Memory.bytes m a 8)) ≠ c) :
    Memory.setCells m (WriteOp.apply (.cas a true c v) m).1 = m := by
  simp [WriteOp.apply, h, Memory.setCells]

/-- A destination of class G names a cell. -/
theorem destCells_g_ne_nil {n a : Nat} {conv ext : Bool} {v : Nat} (hn : n ≠ 0) : destCells (.g n a conv) ext v ≠ [] := by
  simp only [destCells]
  split
  · split <;> simp
  · simpa using hn

theorem dest_atom_ne_nil (f : Full) : dest .atom f ≠ [] := by
  show destCells (gW _) _ _ ≠ []
  unfold gW
  split <;> exact destCells_g_ne_nil (by decide)

/-- An extended destination that is no queue is a `k` register. -/
theorem not_queue_of_ext {op : Op} {f : Full} {n a : Nat} {conv : Bool} (hq : destQueue op f = none) (hd : (op.shape f).dst = .g n a conv)
    (hn : (op.shape f).nform = false) : (f.xd && decide (0x40 ≤ f.dst.toNat)) = false := by
  rw [destQueue, hd, hn] at hq
  cases hx : f.xd with
  | false => rfl
  | true =>
    refine Bool.eq_false_iff.2 fun far => ?_
    have far : ¬f.dst.toNat < 0x40 := by simpa using far
    simp [destCells, hx, far] at hq

/-- The operand of `ATOM` is read where no queue is named, and nothing is drawn. -/
theorem atomOperand_state {f : Full} (hq : noQueue .atom f) (s : State) (g : Group) (i : Nat) : (atomOperand f s g i).2 = s := by
  have near : (f.xd && decide (0x40 ≤ f.dst.toNat)) = false := by
    by_cases wide : (f.fam % 8 < 7 ∧ 2 ≤ f.sc.toNat / 4 % 4)
    · exact not_queue_of_ext (op := .atom) (n := 2) (a := 2) (conv := true) hq.2 (by simp [Op.shape, Shape.memop, gW, wide]) rfl
    · exact not_queue_of_ext (op := .atom) (n := 1) (a := 1) (conv := true) hq.2 (by simp [Op.shape, Shape.memop, gW, wide]) rfl
  rw [atomOperand]
  simp only [near]
  rfl

/-- Settles O32. -/
theorem atomicsReturnTheOldValueAndWriteTheirs : Obligations.AtomicsReturnTheOldValueAndWriteTheirs := by
  refine ⟨fun s s1 f i v n h1 htx hla hk => ⟨fun h hq => ?atom, fun h hq hxd hold => ⟨_, rfl, ?cas⟩⟩, fun m a v c => ?words⟩
  case atom =>
    have drawn := atomOperand_state hq s (s.group s.cur.gid) i
    refine ⟨fun hold => ⟨_, rfl, ?old⟩, fun howed => ⟨_, rfl, ?owed⟩⟩
    case old =>
      refine laneExec_one_res h hq h1 htx (.inr hla) hk ?_
      simp only [drawn, hold, Atomic.finish, finishAlu_of_noQueue hq]
    case owed =>
      obtain ⟨pend, pc⟩ := laneExec_one_owed (f := f) (n := n) h hq h1 htx hk (dest_atom_ne_nil f)
        (body := fun s g _ i =>
          let (v, s) := atomOperand f s g i
          (s.atomic g i (spaceOf .atom f) (effAddr f g i) (atomBytes (f.fam % 8) f.hint) (8 ≤ f.fam)
            (fun p => .atom p (f.fam % 8) f.hint v)).finish .atom f g)
        (by simp only [drawn, howed, Atomic.finish])
      exact ⟨⟨_, pend, rfl, by rw [State.owedPend, hla]; rfl, rfl⟩, pc⟩
  case cas =>
    have drawn : (casOperands f s (s.group s.cur.gid) i).2 = s := by
      simp only [casOperands, hxd, Bool.false_eq_true, if_false]
      split <;> rfl
    refine laneExec_one_res h hq h1 htx (.inr hla) hk ?_
    simp only [drawn, hold, Atomic.finish, finishAlu_of_noQueue hq]
  case words =>
    have unsigned : ∀ o u : W32, atomLess 1 o u = true ↔ o < u := fun o u => decide_eq_true_iff
    exact ⟨old32_wide m a, atomWord32_add m a v, atomWord64_of m a v (by decide) (atomNew64_add v _),
      atomWord32_min m a v (ty := 0) (by decide), (atomWord32_min m a v (ty := 1) (by decide)).trans (ite_congr (propext (unsigned _ _)) (fun _ => rfl) fun _ => rfl),
      atomWord32_max m a v (ty := 0) (by decide), (atomWord32_max m a v (ty := 1) (by decide)).trans (ite_congr (propext (unsigned _ _)) (fun _ => rfl) fun _ => rfl),
      atomWord64_of m a v (by decide) (atomNew64_and v _), atomWord64_of m a v (by decide) (atomNew64_or v _),
      atomWord64_of m a v (by decide) (atomNew64_xor v _), atomWord64_of m a v (by decide) (atomNew64_exchange v _),
      fun h => casWord64 m a v c h, fun h => cas_of_ne m a v c h⟩

end Sys2Proof.Machine

namespace Sys2Proof.Machine

open Sys2Proof

/-! ### Local stores and vaults (O29) -/

/-- The bytes of every local store are the same. -/
def SameStores (s t : State) : Prop := t.teams.map (fun (x : Team) => (x.id, x.ls)) = s.teams.map (fun (x : Team) => (x.id, x.ls))

theorem SameStores.refl (s : State) : SameStores s s := rfl

theorem SameStores.trans {s t u : State} (h : SameStores s t) (k : SameStores t u) : SameStores s u := Eq.trans k h

theorem SameStores.of_eq {s t : State} (h : t.teams = s.teams) : SameStores s t := congrArg (List.map _) h

theorem SameStores.foldl {α : Type} (F : State → α → State) (hF : ∀ s a, SameStores s (F s a)) (l : List α) (s : State) :
    SameStores s (l.foldl F s) := by
  induction l generalizing s with
  | nil => exact .refl s
  | cons a l ih => exact (hF s a).trans (ih _)

theorem SameStores.modQueue (s : State) (id q : Nat) (F : TeamQueue → TeamQueue) :
    SameStores s (s.modTeam id (fun t => t.modQueue q F)) := by
  simp only [SameStores, State.modTeam, updWhere, List.map_map]
  refine List.map_congr_left fun t _ => ?_
  simp only [Function.comp]
  split <;> rfl

theorem SameStores.wakeQueue (s : State) (team q : Nat) (push : Bool) : SameStores s (s.wakeQueue team q push) := by
  refine .foldl _ (fun _ _ => ?_) _ s
  exact .of_eq rfl

theorem SameStores.popQueue (s : State) (team q gid lane : Nat) : SameStores s (s.popQueue team q gid lane).2 := by
  unfold State.popQueue
  dsimp only
  split
  · split <;> exact .of_eq rfl
  · split <;> exact .of_eq rfl
  · split
    · exact (SameStores.modQueue s team q _).trans (.wakeQueue _ _ _ _)
    · exact (SameStores.modQueue s team q _).trans (.of_eq rfl)

theorem SameStores.popWaited (s : State) (gid : Nat) (pops : Option (Nat × W32)) : SameStores s (s.popWaited gid pops) := by
  unfold State.popWaited
  split
  · exact .refl s
  · next q ls =>
    refine List.foldlRecOn (motive := fun (x : List (Nat × W64) × State) => SameStores s x.2) _ _ (.refl s) fun x hx i _ => ?_
    have popped := SameStores.popQueue x.2 (s.group gid).team q gid i
    split <;> next e => rw [e] at popped; exact hx.trans popped

theorem SameStores.retestObjects (s : State) (die : Nat) : SameStores s (s.retestObjects die) := by
  refine .foldl _ (fun s g => ?_) _ s
  dsimp only
  split
  · split
    · exact (SameStores.popWaited s g.id _).trans (.of_eq rfl)
    · exact .refl s
  · exact .refl s

theorem State.complete_teams (s : State) (gid : Option Nat) (t : Nat) : (s.complete gid t).teams = s.teams := by
  cases gid with
  | none => rfl
  | some id =>
    unfold State.complete
    dsimp only
    split <;> rfl

theorem State.team?_modTeam_ne (s : State) {id j : Nat} (F : Team → Team) (hF : ∀ t, (F t).id = t.id) (h : j ≠ id) :
    (s.modTeam id F).team? j = s.team? j := by
  unfold State.modTeam State.team?
  simp only
  rw [find_updWhere _ _ _ _ (by simp [hF])]
  cases e : s.teams.find? (fun t => t.id == j) with
  | none => rfl
  | some t =>
    have : t.id = j := by simpa using List.find?_some e
    simp [this, h]

/-! #### Memories -/

theorem Memory.byte_setBytes (m : List Host.Cell) (a j : Nat) (bs : List Byte) :
    Memory.byte (Memory.setBytes m a bs) j = if a ≤ j ∧ j < a + bs.length then bs.getD (j - a) 0 else Memory.byte m j := by
  split
  · next h =>
    obtain ⟨i, rfl⟩ := Nat.exists_eq_add_of_le h.1
    rw [Memory.byte_setBytes_in m bs a i (by omega), Nat.add_sub_cancel_left]
  · next h => exact Memory.byte_setBytes_out m bs a j (by omega)

theorem Memory.byte_setCells_range (m : List Host.Cell) (a n j : Nat) (b : Nat → Byte) :
    Memory.byte (Memory.setCells m ((List.range n).map (fun i => (a + i, b i)))) j = if a ≤ j ∧ j < a + n then b (j - a) else Memory.byte m j := by
  split
  · next h =>
    obtain ⟨i, rfl⟩ := Nat.exists_eq_add_of_le h.1
    rw [Memory.byte_setCells_map m a b _ i (List.mem_range.2 (by omega)), Nat.add_sub_cancel_left]
  · next h =>
    refine Memory.byte_setCells_out m _ j fun c hc e => h ?_
    obtain ⟨i, hi, rfl⟩ := List.mem_map.1 hc
    have := List.mem_range.1 hi
    simp only at e
    omega

/-! #### The local store -/

section

variable {s : State} {g : Group} {t : Team} {i a n x : Nat} {bs : List Byte}

theorem State.wakeArray_of_active {r : Nat} (h : s.retention r = .active x) : s.wakeArray r = (true, s.setRetention r (.active s.time)) := by
  rw [State.wakeArray, h]

theorem State.eccTrap_of_clean (h : s.poison = []) (sp : Space) (p : Nat) : s.eccTrap g sp p n = none := by
  cases sp <;> simp [State.eccTrap, State.eccAt, h]

theorem State.testHeld_of_no_tests (h : s.tests = []) (sp : Space) (p : Nat) : s.testHeld g sp p = false := by
  cases sp <;> simp [State.testHeld, State.underTest, h]

theorem State.place_loc (ht : s.team? g.team = some t) (ha : a % n = 0) (hn : a + n ≤ t.lsBytes) (k : Access) :
    s.place g .loc a n k = .ok a := by
  simp [State.place, ha, State.team, ht, hn]

theorem State.load_loc (ht : s.team? g.team = some t) (ha : a % n = 0) (hn : a + n ≤ t.lsBytes) (hp : t.present a = true)
    (hr : s.retention (localArray g.core) = .active x) (hpoison : s.poison = []) (htests : s.tests = []) :
    s.load g i .loc a n 0 = .bytes (Memory.bytes t.ls a n) (s.setRetention (localArray g.core) (.active s.time)) := by
  have far : s.hits g .loc a n = false := rfl
  have quiet : (s.setRetention (localArray g.core) (.active s.time)).eccTrap g .loc a n = none := State.eccTrap_of_clean (s := s.setRetention _ _) hpoison .loc a
  have team : s.team g.team = t := by rw [State.team, ht]; rfl
  simp only [State.load, State.placeLoad, far, State.place_loc ht ha hn, State.testHeld_of_no_tests htests, State.ownAtomicPending,
    team, hp, State.wakeArray_of_active hr, quiet, Bool.or_self, Bool.false_eq_true, if_false, Bool.not_true]
  rfl

theorem State.store_loc (ht : s.team? g.team = some t) (ha : a % bs.length = 0) (hn : a + bs.length ≤ t.lsBytes) (hp : t.present a = true)
    (hr : s.retention (localArray g.core) = .active x) (htests : s.tests = []) :
    s.store g i .loc a bs 0 = .done ((s.setRetention (localArray g.core) (.active s.time)).storeLocal g a bs) := by
  have team : s.team g.team = t := by rw [State.team, ht]; rfl
  simp only [State.store, State.place_loc ht ha hn, State.testHeld_of_no_tests htests, team, hp, State.wakeArray_of_active hr,
    Bool.false_eq_true, if_false, Bool.not_true, if_true]

/-- What a store of bytes in a team's local store leaves of the state. -/
theorem State.storeLocal_exact (ht : s.team? g.team = some t) :
    SameMemory { s with teams := [] } { s.storeLocal g a bs with teams := [] } ∧
      (∀ id, id ≠ g.team → (s.storeLocal g a bs).team? id = s.team? id) ∧
      (s.storeLocal g a bs).team g.team = t.setLs a bs := by
  have teams : (s.storeLocal g a bs).teams = (s.modTeam g.team (fun t => t.setLs a bs)).teams := State.complete_teams _ _ _
  have bytes := complete_mem (s.modTeam g.team (fun t => t.setLs a bs)) (some g.id) s.time
  have look : ∀ id, (s.storeLocal g a bs).team? id = (s.modTeam g.team (fun t => t.setLs a bs)).team? id := fun id =>
    congrArg (List.find? (fun (t : Team) => t.id == id)) teams
  refine ⟨.of_eq bytes.1 bytes.2 rfl, fun id hid => (look id).trans (State.team?_modTeam_ne s _ (fun _ => rfl) hid), ?_⟩
  rw [State.team, look, State.team?_modTeam s g.team (fun t => t.setLs a bs) fun _ => rfl, ht]
  rfl

/-! #### The vaults -/

theorem vaultGranted_mono {w : List W64} {b : Bool} (h : vaultGranted w a true = true) : vaultGranted w a b = true := by
  cases b with
  | true => exact h
  | false =>
    unfold vaultGranted at h ⊢
    obtain ⟨x, hx, k⟩ := List.any_eq_true.1 h
    refine List.any_eq_true.2 ⟨x, hx, ?_⟩
    simp only [Bool.and_eq_true] at k ⊢
    exact ⟨k.1, rfl⟩

theorem vaultRange_mono {w : List W64} {b : Bool} (h : vaultRange w a n true = true) : vaultRange w a n b = true := by
  unfold vaultRange at h ⊢
  simp only [Bool.and_eq_true, List.all_eq_true] at h ⊢
  exact ⟨h.1, fun x hx => vaultGranted_mono (h.2 x hx)⟩

theorem State.place_vault (ha : a % n = 0) (hw : vaultRange g.vwin a n true = true) (k : Access) : s.place g .vault a n k = .ok a := by
  simp [State.place, ha, vaultRange_mono hw]

theorem State.readArray_of_active {r : Nat} (who : Reader) (hr : s.retention r = .active x) (hv : s.vheld = []) (hs : s.arrivals = []) :
    s.readArray r who = (true, s.setRetention r (.active s.time)) := by
  simp only [State.readArray, State.wakeArray_of_active hr, hv, hs, List.any_nil]
  exact congrArg (Prod.mk true) (by simp [State.setRetention, hs])

theorem State.vaultRead_of_unheld (die gid lane : Nat) (h : s.vheld = []) :
    s.vaultRead die gid lane a n = Memory.bytes s.vault (die * 2 ^ 29 + a) n := by
  rw [Memory.bytes_eq_map]
  simp [State.vaultRead, h]

theorem State.load_vault (ha : a % n = 0) (hw : vaultRange g.vwin a n true = true)
    (hr : s.retention (arrayOf (dieOfCore g.core) a) = .active x) (hpoison : s.poison = []) (htests : s.tests = [])
    (hv : s.vheld = []) (hs : s.arrivals = []) :
    s.load g i .vault a n 0 = .bytes (Memory.bytes s.vault (dieOfCore g.core * 2 ^ 29 + a) n)
      (s.setRetention (arrayOf (dieOfCore g.core) a) (.active s.time)) := by
  have far : s.hits g .vault a n = false := rfl
  have quiet : (s.setRetention (arrayOf (dieOfCore g.core) a) (.active s.time)).eccTrap g .vault a n = none :=
    State.eccTrap_of_clean (s := s.setRetention _ _) hpoison .vault a
  have read : (s.setRetention (arrayOf (dieOfCore g.core) a) (.active s.time)).vaultRead (dieOfCore g.core) g.id i a n =
      Memory.bytes s.vault (dieOfCore g.core * 2 ^ 29 + a) n := State.vaultRead_of_unheld _ _ _ hv
  have settled : s.ownAtomicPending g.id i .vault (dieOfCore g.core) a = false := by simp [State.ownAtomicPending, hv]
  simp only [State.load, State.placeLoad, far, State.place_vault ha hw, State.testHeld_of_no_tests htests, settled,
    State.readArray_of_active _ hr hv hs, quiet, read, Bool.or_self, Bool.false_eq_true, if_false]

/-- A store's write to a vault. -/
def storeWrite (g : Group) (i a : Nat) (bs : List Byte) : VHeld :=
  { die := dieOfCore g.core, gid := some g.id, lane := i, op := .store ((List.range bs.length).map (fun j => (a + j, bs.getD j 0))) }

theorem storeWrite_addr (hn : 0 < bs.length) : (storeWrite g i a bs).op.addr = a := by
  obtain ⟨k, hk⟩ := Nat.exists_eq_add_of_lt hn
  have len : bs.length = k + 1 := by omega
  simp [storeWrite, WriteOp.addr, len, List.range_succ_eq_map]

theorem State.vaultWrite_of_free {w : VHeld} (hr : s.retention w.array = .active x)
    (hp : s.pinned w.die (w.op.addr / 128) w.team = false) (htests : s.tests = []) (hv : s.vheld = []) (hs : s.arrivals = []) :
    s.vaultWrite w = (s.setRetention w.array (.active s.time)).vaultPerform w := by
  have active : (s.setRetention w.array (.active s.time)).retention w.array = .active s.time := Sparse.get_put_same _ _ _ _
  have free : (s.setRetention w.array (.active s.time)).vaultKept { w with sent := s.ticks } = false := by
    have awake : (s.setRetention w.array (.active s.time)).arrayActive w.array = true := by rw [State.arrayActive, active]
    have clear : (s.setRetention w.array (.active s.time)).pinned w.die (w.op.addr / 128) w.team = false := hp
    have arr : VHeld.array { w with sent := s.ticks } = w.array := rfl
    have quiet : (s.setRetention w.array (.active s.time)).tests = [] := htests
    have still : (s.setRetention w.array (.active s.time)).arrivals = [] := hs
    have unheld : (s.setRetention w.array (.active s.time)).vheld = [] := hv
    simp only [State.vaultKept, clear, arr, awake, State.underTest, quiet, still, unheld, List.any_nil, Bool.not_true, Bool.or_self]
  have holds : s.vaultHolds w = (false, s.setRetention w.array (.active s.time)) := by
    simp only [State.vaultHolds, State.wakeArray_of_active hr]
    exact congrArg (·, s.setRetention w.array (.active s.time)) free
  rw [State.vaultWrite, holds]

/-- The cells of a store in its die's vaults. -/
def storeCells (base : Nat) (bs : List Byte) : List (Nat × Byte) := (List.range bs.length).map (fun j => (base + j, bs.getD j 0))

theorem State.vaultPerform_store :
    s.vaultPerform (storeWrite g i a bs) =
      (({ s with vault := Memory.setCells s.vault (storeCells (dieOfCore g.core * 2 ^ 29 + a) bs) } : State).retestObjects
        (dieOfCore g.core)).complete (some g.id) (({ s with vault := Memory.setCells s.vault (storeCells (dieOfCore g.core * 2 ^ 29 + a) bs) } : State).retestObjects
        (dieOfCore g.core)).time := by
  have cells : ((List.range bs.length).map (fun j => (a + j, bs.getD j 0))).map (fun (c : Nat × Byte) => (c.1 + dieOfCore g.core * 2 ^ 29, c.2)) =
      storeCells (dieOfCore g.core * 2 ^ 29 + a) bs := by
    rw [List.map_map]
    refine List.map_congr_left fun j _ => ?_
    exact congrArg (·, bs.getD j 0) (by simp only []; omega)
  rw [← cells]
  rfl

/-- What a store to a vault leaves of the memories. -/
theorem State.vaultPerform_memory :
    SameMemory { s with vault := Memory.setCells s.vault (storeCells (dieOfCore g.core * 2 ^ 29 + a) bs) } (s.vaultPerform (storeWrite g i a bs)) := by
  rw [State.vaultPerform_store]
  have tested := retestObjects_mem { s with vault := Memory.setCells s.vault (storeCells (dieOfCore g.core * 2 ^ 29 + a) bs) } (dieOfCore g.core)
  have stores := SameStores.retestObjects { s with vault := Memory.setCells s.vault (storeCells (dieOfCore g.core * 2 ^ 29 + a) bs) } (dieOfCore g.core)
  generalize ({ s with vault := Memory.setCells s.vault (storeCells (dieOfCore g.core * 2 ^ 29 + a) bs) } : State).retestObjects (dieOfCore g.core) = u at tested stores ⊢
  have bytes := tested.trans (complete_mem u (some g.id) u.time)
  exact ⟨fun j => by rw [bytes.1], fun j => by rw [bytes.2], stores.trans (.of_eq (State.complete_teams _ _ _))⟩

theorem State.store_vault (hn : 0 < bs.length) (ha : a % bs.length = 0) (hw : vaultRange g.vwin a bs.length true = true)
    (hr : s.retention (arrayOf (dieOfCore g.core) a) = .active x) (htests : s.tests = []) (hv : s.vheld = []) (hs : s.arrivals = [])
    (hp : s.pinned (dieOfCore g.core) (a / 128) none = false) :
    s.store g i .vault a bs 0 =
      .done ((s.setRetention (arrayOf (dieOfCore g.core) a) (.active s.time)).vaultPerform (storeWrite g i a bs)) := by
  have addr : (storeWrite g i a bs).op.addr = a := storeWrite_addr hn
  have array : (storeWrite g i a bs).array = arrayOf (dieOfCore g.core) a := by rw [VHeld.array, addr]; rfl
  have performed := State.vaultWrite_of_free (s := s) (w := storeWrite g i a bs) (x := x) (by rw [array]; exact hr)
    (by rw [addr]; exact hp) htests hv hs
  rw [array] at performed
  simp only [State.store, State.place_vault ha hw, State.testHeld_of_no_tests htests, Bool.false_eq_true, if_false]
  exact congrArg Stored.done performed

end

/-- Settles O29. -/
theorem localAndVaultAccessesAreExact : Obligations.LocalAndVaultAccessesAreExact := by
  intro s g i a n bs x
  refine ⟨fun t hn ht ha hlen hp hr hpoison htests => ⟨State.load_loc ht ha hlen hp hr hpoison htests, fun hbs => ?store⟩,
    fun hn ha hw hr hpoison htests hv hs => ⟨State.load_vault ha hw hr hpoison htests hv hs, fun hbs hpin => ?vault⟩⟩
  case store =>
    subst hbs
    obtain ⟨memory, others, own⟩ := State.storeLocal_exact (s := s.setRetention (localArray g.core) (.active s.time)) (bs := bs) (a := a) ht
    refine ⟨_, State.store_loc ht ha hlen hp hr htests, ⟨memory.mem, memory.vault, memory.stores⟩, others, ?_, fun j => ?_⟩
    · rw [own]; rfl
    · rw [own]; exact Memory.byte_setBytes t.ls a j bs
  case vault =>
    subst hbs
    have memory := State.vaultPerform_memory (s := s.setRetention (arrayOf (dieOfCore g.core) a) (.active s.time)) (g := g) (i := i) (a := a) (bs := bs)
    refine ⟨_, State.store_vault hn ha hw hr htests hv hs hpin, memory.mem, memory.stores, fun j => ?_⟩
    exact (memory.vault j).trans (Memory.byte_setCells_range s.vault _ _ j fun j => bs.getD j 0)

end Sys2Proof.Machine

namespace Sys2Proof.Machine

open Sys2Proof

/-! ### Global accesses at their home (O30) -/

theorem State.isRemote_line (s : State) (p : Nat) : s.isRemote (p / 128 * 128) = s.isRemote p := by
  have same : moduleOf (p / 128 * 128) = moduleOf p := by
    simp only [moduleOf]
    omega
  rw [State.isRemote, same]
  rfl

/-- A conflict of a transaction leaves every group that has none. -/
theorem State.group?_mapTx {s : State} {F : Group → Group} (hid : ∀ g, (F g).id = g.id) {id : Nat} {g : Group} (h : s.group? id = some g)
    (hF : F g = g) : { s with groups := s.groups.map F }.group? id = some g := by
  show (s.groups.map F).find? _ = _
  rw [List.find?_map]
  have same : ((fun g : Group => g.id == id) ∘ F) = fun g => g.id == id := funext fun x => by simp [hid]
  rw [same]
  exact (congrArg (Option.map F) h).trans (congrArg some hF)

/-! #### The memory-side cache -/

theorem State.mscPlace_l1 (s : State) (fresh : MscLine) : (s.mscPlace fresh).l1 = s.l1 := by
  unfold State.mscPlace
  dsimp only
  split
  · rfl
  · split <;> rfl

theorem State.mscTouch_l1 (s : State) (pa hint : Nat) (write whole : Bool) : (s.mscTouch pa hint write whole).l1 = s.l1 :=
  State.mscTouch_cases s pa hint write whole (fun t => t.l1 = s.l1) rfl (fun _ => rfl) fun _ => State.mscPlace_l1 _ _

/-- Whether no write waits at a home. -/
def State.homesIdle (s : State) : Prop := ∀ h ∈ s.homes, h.queue = []

theorem State.homesIdle_mscPlace {s : State} (fresh : MscLine) (hs : s.homesIdle) : (s.mscPlace fresh).homesIdle := by
  unfold State.mscPlace
  dsimp only
  split
  · exact hs
  · split
    · exact hs
    · intro h hh
      obtain ⟨x, hx, rfl⟩ := List.mem_map.1 hh
      have idle := hs x (List.mem_filter.1 hx).1
      split
      · exact idle
      · exact idle

theorem State.homesIdle_mscTouch {s : State} (pa hint : Nat) (write whole : Bool) (hs : s.homesIdle) :
    (s.mscTouch pa hint write whole).homesIdle :=
  State.mscTouch_cases s pa hint write whole State.homesIdle hs (fun _ => hs) fun l =>
    State.homesIdle_mscPlace (s := { s with l1use := s.l1use + 1 }) l hs

/-! #### The home of a line that nothing has reached -/

section

variable {s : State}

/-- A home that no entry names holds nothing, and with nothing in the memory-side cache no lease lives there. -/
theorem State.home_of_none (hh : s.homes = []) (hm : s.msc = []) (hb : s.mscB = []) (line : Nat) : s.home line = { line := line } := by
  rw [State.home, hh, hm, hb]
  simp only [List.find?_nil]
  split <;> rfl

theorem State.fetchHeld_of_idle {p : Nat} (hh : s.home (p / 128) = { line := p / 128 }) (ht : s.tests = []) (hr : s.isRemote p = false) :
    s.fetchHeld p = false := by
  simp [State.fetchHeld, hh, Home.rowHeld, State.fetchTested, ht, State.routeHeld, hr]

theorem State.bankHeld_of_no_rows (p : Nat) (h : s.rows = []) : s.bankHeld p = false := by simp [State.bankHeld, h]

/-- The home of such a line grants a lease. -/
theorem State.grant_of_none {line : Nat} (hh : s.home line = { line := line }) :
    s.grant line false = (s.time + s.leaseLen, s.setHome { line := line, emax := max 0 (s.time + s.leaseLen) }) := by
  simp only [State.grant, hh, Home.next]
  split <;> simp

end

/-! #### A load -/

section

variable {s : State} {core line sec : Nat}

theorem foldl_put_eq_setCells (n off : Nat) (f : Nat → Byte) :
    (List.range n).foldl (fun b i => Sparse.put 0 b (off + i) (f i)) [] = Memory.setCells [] ((List.range n).map (fun i => (off + i, f i))) := by
  generalize ([] : List Host.Cell) = b
  induction List.range n generalizing b with
  | nil => rfl
  | cons i l ih => exact ih _

theorem get_foldl_put (n off : Nat) (f : Nat → Byte) {j : Nat} (hj : j < n) :
    Sparse.get 0 ((List.range n).foldl (fun b i => Sparse.put 0 b (off + i) (f i)) []) (off + j) = f j := by
  rw [foldl_put_eq_setCells]
  exact Memory.byte_setCells_map [] off f _ j (List.mem_range.2 hj)

/-- The bytes of a sector of a line, at their places in it. -/
@[irreducible] def sectorBytes (src : List Byte) (sec : Nat) : Sparse Byte :=
  (List.range 64).foldl (fun b i => Sparse.put 0 b (sec * 64 + i) (src.getD (sec * 64 + i) 0)) []

theorem sectorBytes_get (src : List Byte) (sec : Nat) {j : Nat} (hj : j < 64) :
    Sparse.get 0 (sectorBytes src sec) (sec * 64 + j) = src.getD (sec * 64 + j) 0 := by
  rw [sectorBytes]
  exact get_foldl_put 64 (sec * 64) (fun i => src.getD (sec * 64 + i) 0) hj

/-- What a core's first fetch of a sector leaves: nothing but homes, caches and the line, which holds the sector's bytes. -/
structure FirstFetch (s : State) (core line sec : Nat) (t : State) (l : L1Line) : Prop where
  only : HomeOnly s t
  mem : t.mem = s.mem
  l1 : t.l1 = []
  idle : t.homesIdle
  ofCore : l.core = core
  ofLine : l.line = line
  clean : l.dirty = []
  bytes : l.bytes = sectorBytes (s.lineBytes line) sec

/-- The line that a core's first fetch of a sector brings, with its bytes. -/
def newLine (core line sec lease k : Nat) (bytes : Sparse Byte) : L1Line :=
  { core := core, line := line, lease := lease, v0 := sec == 0, v1 := sec == 1, bytes := bytes, prio := 2, used := k }

/-- The steps of a core's first fetch of a sector. -/
theorem State.l1Fetch_of_steps {u v : State} {e : Nat} (hu : u = { s with l1use := s.l1use + 1 }) (here : u.l1Line? core line = none)
    (room : u.makeRoom core line = u) (near : u.isRemote (line * 128) = false) (grant : u.grant line false = (e, v))
    (near' : v.isRemote (line * 128) = false) :
    ∃ lease k, s.l1Fetch core line sec 0 =
      (v.mscTouch (line * 128 + sec * 64) 0 false).setL1 (newLine core line sec lease k
        ((List.range 64).foldl (fun b i => Sparse.put 0 b (sec * 64 + i) ((v.lineBytes line).getD (sec * 64 + i) 0)) [])) := by
  unfold State.l1Fetch
  rw [← hu]
  simp only [here, room, near, grant, near', Bool.false_eq_true, if_false]
  exact ⟨_, _, rfl⟩

theorem State.l1Fetch_first (hl : s.l1 = []) (hr : s.isRemote (line * 128) = false) (hw : (s.cores.getD core {}).l1ways = [])
    (hh : s.home line = { line := line }) (hi : s.homes = []) :
    ∃ t l, s.l1Fetch core line sec 0 = t.setL1 l ∧ FirstFetch s core line sec t l := by
  obtain ⟨u, hu⟩ : ∃ u : State, u = { s with l1use := s.l1use + 1 } := ⟨_, rfl⟩
  have here : u.l1Line? core line = none := by rw [hu]; simp [State.l1Line?, hl]
  have room : u.makeRoom core line = u := by
    rw [hu]
    simp only [State.makeRoom, hl, hw, List.filter_nil, List.length_nil]
    rfl
  have near : u.isRemote (line * 128) = false := by rw [hu]; exact hr
  obtain ⟨v, hv⟩ : ∃ v : State, v = u.setHome { line := line, emax := max 0 (u.time + u.leaseLen) } := ⟨_, rfl⟩
  have grant : u.grant line false = (u.time + u.leaseLen, v) := by
    rw [hv]
    exact State.grant_of_none (by rw [hu]; exact hh)
  have near' : v.isRemote (line * 128) = false := by rw [hv]; exact near
  have counted : HomeOnly s v := by rw [hv, hu]; exact ⟨rfl⟩
  have bytes : v.mem = s.mem := by rw [hv, hu]; rfl
  have source : v.lineBytes line = s.lineBytes line := by rw [State.lineBytes, bytes]; rfl
  have empty : v.l1 = [] := by rw [hv, hu]; exact hl
  have idle : v.homesIdle := by
    rw [hv, hu]
    intro h hm
    simp only [State.setHome, hi, List.filter_nil, List.mem_singleton] at hm
    rw [hm]
  obtain ⟨lease, k, run⟩ := State.l1Fetch_of_steps (sec := sec) hu here room near grant near'
  rw [← sectorBytes] at run
  refine ⟨_, _, run, counted.trans (.mscTouch _ _ _ _ _), (mscTouch_mem _ _ _ _ _).1.trans bytes, (State.mscTouch_l1 _ _ _ _ _).trans empty,
    State.homesIdle_mscTouch _ _ _ _ idle, rfl, rfl, rfl, congrArg (sectorBytes · sec) source⟩
/-- What the core reads of a sector that it has just fetched. -/
theorem FirstFetch.coreByte {t : State} {l : L1Line} (h : FirstFetch s core line sec t l) {p j : Nat} (hp : p = line * 128 + sec * 64 + j)
    (hj : j < 64) (hsec : sec < 2) (gid lane : Option Nat) : (t.setL1 l).coreByte core p gid lane = Memory.byte s.mem p := by
  have place : p / 128 = line ∧ p % 128 = sec * 64 + j := by omega
  have here : (t.setL1 l).l1Line? core line = some l := by
    simp [State.l1Line?, State.setL1, h.l1, h.ofCore, h.ofLine]
  have own : (t.setL1 l).ownByte core p gid lane = none := by
    have idle : ∀ x, t.homes.find? (fun h => h.line == line) = some x → x.queue = [] := fun x hx => h.idle x (List.mem_of_find?_eq_some hx)
    simp only [State.ownByte, place.1, here, h.clean]
    show (match t.homes.find? (fun h => h.line == line) with
      | none => none
      | some h => _) = _
    cases hx : t.homes.find? (fun h => h.line == line) with
    | none => rfl
    | some x =>
      simp only [idle x hx]
      rfl
  rw [State.coreByte, own, place.1, here, place.2]
  refine (congrArg (fun b => Sparse.get 0 b (sec * 64 + j)) h.bytes).trans ((sectorBytes_get _ _ hj).trans ?_)
  have lt : sec * 64 + j < 128 := by omega
  rw [State.lineBytes, Memory.bytes_eq_map]
  simp only [List.getD_eq_getElem?_getD, List.getElem?_map, List.getElem?_range lt, Option.map_some, Option.getD_some]
  rw [hp, Nat.add_assoc]

end

theorem eraseDups_of_const {α β : Type} [BEq β] [LawfulBEq β] (f : α → β) (b : β) (l : List α) (hl : l ≠ []) (h : ∀ x ∈ l, f x = b) :
    (l.map f).eraseDups = [b] := by
  cases l with
  | nil => exact absurd rfl hl
  | cons x r =>
    rw [List.map_cons, List.eraseDups_cons, h x List.mem_cons_self]
    have none : (r.map f).filter (fun y => !y == b) = [] := by
      refine List.filter_eq_nil_iff.2 fun y hy => ?_
      obtain ⟨z, hz, rfl⟩ := List.mem_map.1 hy
      simp [h z (List.mem_cons_of_mem _ hz)]
    rw [none]
    rfl

/-- What the statement of a global access says of the state it meets. -/
structure FreshLine (s : State) (g : Group) (n p : Nat) : Prop where
  here : s.group? g.id = some g
  some_ : 0 < n
  near : s.isRemote p = false
  inside : p % 64 + n ≤ 64
  clean : s.poison = []
  quiet : s.tests = []
  plain : g.tx = none
  l1 : s.l1 = []
  homes : s.homes = []
  msc : s.msc = []
  mscB : s.mscB = []
  rows : s.rows = []
  ways : (s.cores.getD g.core {}).l1ways = []

section

variable {s : State} {g : Group} {i a n p : Nat} {bs : List Byte}

theorem FreshLine.home (h : FreshLine s g n p) (line : Nat) : s.home line = { line := line } := State.home_of_none h.homes h.msc h.mscB line

theorem Group.not_inTx (h : g.tx = none) (i : Nat) : g.inTx i = false := by simp [Group.inTx, h]

theorem State.remoteAnswer_of_near (h : s.isRemote p = false) (a : Nat) (lacking : Bool) : s.remoteAnswer p a lacking = none := by
  simp [State.remoteAnswer, h]

theorem FreshLine.hits (h : FreshLine s g n p) (a : Nat) (ha : 0 < n) : s.hits g .global a n = false := by
  have sectors : ∀ q, s.l1Hit g.core q n = false := fun q => by
    have first : 0 ∈ List.range ((q + n - 1) / 64 + 1 - q / 64) := List.mem_range.2 (by omega)
    have miss : s.l1Line? g.core (q / 64 / 2) = none := by simp [State.l1Line?, h.l1]
    exact List.all_eq_false.2 ⟨0, first, by simp [miss]⟩
  unfold State.hits
  split <;> simp [sectors]

/-- A load that meets a home that nothing has reached. -/
theorem FreshLine.load (h : FreshLine s g n p) (ha : s.place g .global a n .read = .ok p) :
    s.load g i .global a n 0 = .bytes (s.loadGlobal g.core p n 0 (some g.id) (some i)).1 (s.loadGlobal g.core p n 0 (some g.id) (some i)).2 := by
  have placed : s.placeLoad g .global a n = .ok p := by rw [State.placeLoad, h.hits a h.some_]; exact ha
  have free : s.ownAtomicPending g.id i .global (dieOfCore g.core) p = false := by simp [State.ownAtomicPending, h.home]
  have asked : s.askBank p = s := by simp [State.askBank, h.rows]
  simp only [State.load, placed, free, State.testHeld_of_no_tests h.quiet, h.hits a h.some_, State.fetchHeld_of_idle (h.home _) h.quiet h.near,
    State.bankHeld_of_no_rows p h.rows, State.eccTrap_of_clean h.clean, State.remoteAnswer_of_near h.near, asked, State.loadLine,
    Group.not_inTx h.plain, Bool.or_self, Bool.false_eq_true, if_false]

/-- A conflict of a load leaves a group that has no transaction. -/
theorem State.txReadConflict_group? (line : Nat) (gid lane : Option Nat) {id : Nat} (hg : s.group? id = some g) (htx : g.tx = none) :
    (s.txReadConflict line gid lane).group? id = some g := by
  refine State.group?_mapTx (fun x => ?_) hg (by simp only [htx])
  split
  · rfl
  · split
    · exact x.txKill_id 1 0
    · rfl

theorem FreshLine.loadGlobal (h : FreshLine s g n p) (gid lane : Option Nat) :
    (s.loadGlobal g.core p n 0 gid lane).1 = Memory.bytes s.mem p n ∧ SameMemory s (s.loadGlobal g.core p n 0 gid lane).2 ∧
      (s.loadGlobal g.core p n 0 gid lane).2.group? g.id = some g := by
  obtain ⟨u, hu⟩ : ∃ u, u = s.txReadConflict (p / 128) gid lane := ⟨_, rfl⟩
  have group := State.txReadConflict_group? (p / 128) gid lane h.here h.plain
  rw [← hu] at group
  have mem : u.mem = s.mem := by rw [hu]; rfl
  have secs : ((List.range n).map (fun i => (p + i) / 64 % 2)).eraseDups = [p / 64 % 2] := by
    have inside := h.inside
    have some_ := h.some_
    refine eraseDups_of_const _ _ _ (by simpa using Nat.ne_of_gt some_) fun x hx => ?_
    have := List.mem_range.1 hx
    omega
  obtain ⟨t, l, run, first⟩ := State.l1Fetch_first (s := u) (core := g.core) (line := p / 128) (sec := p / 64 % 2)
    (by rw [hu]; exact h.l1) (by rw [State.isRemote_line, hu]; exact h.near) (by rw [hu]; exact h.ways)
    (State.home_of_none (by rw [hu]; exact h.homes) (by rw [hu]; exact h.msc) (by rw [hu]; exact h.mscB) _) (by rw [hu]; exact h.homes)
  have load : s.loadGlobal g.core p n 0 gid lane =
      ((List.range n).map (fun i => (t.setL1 l).coreByte g.core (p + i) gid lane), t.setL1 l) := by
    unfold State.loadGlobal
    dsimp only
    rw [secs, ← hu, List.foldl_cons, List.foldl_nil, run]
  rw [load]
  refine ⟨?_, ?_, ?_⟩
  · rw [Memory.bytes_eq_map]
    refine List.map_congr_left fun i hi => ?_
    have := List.mem_range.1 hi
    have inside := h.inside
    exact (first.coreByte (p := p + i) (j := p % 64 + i) (by omega) (by omega) (by omega) gid lane).trans (by rw [mem])
  · have frame := first.only.rest
    exact .of_eq (first.mem.trans mem) ((congrArg State.vault frame :).trans (by rw [hu]; rfl)) ((congrArg State.teams frame :).trans (by rw [hu]; rfl))
  · exact (congrArg (List.find? (fun (x : Group) => x.id == g.id)) first.only.groups).trans group

/-! #### A store -/

/-- The write of a store at its home. -/
def homeWrite (s : State) (core gid lane p : Nat) (bs : List Byte) : HWrite :=
  { core := some core, gid := some gid, lane := lane, op := .store ((List.range bs.length).map (fun i => (p + i, bs.getD i 0))),
    hints := Sparse.put 0 [] (p / 64 % 2) 0, sent := s.ticks }

theorem FreshLine.store (h : FreshLine s g bs.length p) (ha : s.place g .global a bs.length .write = .ok p) :
    s.store g i .global a bs 0 = .done ((s.coreConflict g.core (p / 128) g.id i).perform (p / 128) (homeWrite s g.core g.id i p bs) s.time) := by
  have miss : s.l1Line? g.core (p / 128) = none := by simp [State.l1Line?, h.l1]
  have route : s.routeHeld p = false := by simp [State.routeHeld, h.near]
  obtain ⟨u, hu⟩ : ∃ u, u = s.coreConflict g.core (p / 128) g.id i := ⟨_, rfl⟩
  have miss' : u.l1Line? g.core (p / 128) = none := by rw [hu]; exact miss
  have near : u.isRemote (p / 128 * 128) = false := by rw [State.isRemote_line, hu]; exact h.near
  have home : u.home (p / 128) = { line := p / 128 } :=
    State.home_of_none (by rw [hu]; exact h.homes) (by rw [hu]; exact h.msc) (by rw [hu]; exact h.mscB) _
  have quiet : u.homeTested (p / 128) = false := by
    have none : u.tests = [] := by rw [hu]; exact h.quiet
    simp [State.homeTested, none]
  have time : u.writeTime { line := p / 128 } = 0 := rfl
  have now : u.time = s.time ∧ u.ticks = s.ticks := by rw [hu]; exact ⟨rfl, rfl⟩
  simp only [State.store, ha, State.testHeld_of_no_tests h.quiet, route, State.remoteAnswer_of_near h.near, Group.not_inTx h.plain,
    Bool.false_and, Bool.false_eq_true, if_false, State.storeGlobal, ← hu, miss', State.writeAtHome, near, home, time, quiet, Nat.zero_le,
    decide_true, Bool.not_false, Bool.and_self, if_true, now.1, now.2]
  rfl

/-- The bytes of a store, performed: nothing but memory, queues, the memory-side cache and its group's completion time. -/
theorem State.perform_homeWrite {u : State} {core t line : Nat} (hg : u.group? g.id = some g) (htx : g.tx = none) :
    let v := u.perform line (homeWrite s core g.id i p bs) t
    v.group? g.id = some { g with wctime := max g.wctime t } ∧ v.vault = u.vault ∧ v.teams = u.teams ∧
      v.mem = Memory.setCells u.mem ((List.range bs.length).map (fun i => (p + i, bs.getD i 0))) := by
  intro v
  obtain ⟨w, hw⟩ : ∃ w, w = homeWrite s core g.id i p bs := ⟨_, rfl⟩
  obtain ⟨x, hx⟩ : ∃ x, x = State.txWriteConflict { u with mem := Memory.setCells u.mem ((List.range bs.length).map (fun i => (p + i, bs.getD i 0))) }
    line w.isOther := ⟨_, rfl⟩
  have shown : v = ((x.complete (some g.id) t).showSignal line).touchWritten w (w.op.apply u.mem).1 := by
    rw [hx, hw]
    rfl
  have group : x.group? g.id = some g := by
    rw [hx]
    refine State.group?_mapTx (fun y => ?_) (s := { u with mem := _ }) hg (by simp only [htx])
    split
    · rfl
    · split
      · exact y.txKill_id 1 0
      · rfl
  have done : x.complete (some g.id) t = x.modGroup g.id (fun g => { g with wctime := max g.wctime t }) := by
    have some_ : x.groups.any (fun y => y.id == g.id) = true :=
      List.any_eq_true.2 ⟨g, List.mem_of_find?_eq_some group, beq_self_eq_true _⟩
    rw [State.complete, if_pos some_]
  have kept := HomeOnly.touchWritten ((x.complete (some g.id) t).showSignal line) w (w.op.apply u.mem).1
  rw [shown]
  refine ⟨?_, ?_, ?_, ?_⟩
  · refine (congrArg (List.find? (fun (y : Group) => y.id == g.id)) kept.groups).trans ?_
    rw [done]
    exact (State.group?_modGroup x g.id (fun g => { g with wctime := max g.wctime t }) fun _ => rfl).trans (by rw [group]; rfl)
  · refine (congrArg State.vault kept.rest :).trans ?_
    rw [done, hx]
    rfl
  · refine (congrArg State.teams kept.rest :).trans ?_
    rw [done, hx]
    rfl
  · refine (touchWritten_mem _ _ _).1.trans ?_
    rw [done, hx]
    rfl

end

/-- Settles O30. -/
theorem globalAccessesMeetTheirHome : Obligations.GlobalAccessesMeetTheirHome := by
  intro s g i a n p bs here some_ _ near inside clean quiet plain l1 homes msc mscB rows ways
  have h : FreshLine s g n p := ⟨here, some_, near, inside, clean, quiet, plain, l1, homes, msc, mscB, rows, ways⟩
  refine ⟨fun ha => ?load, fun ha hbs => ?store⟩
  case load =>
    obtain ⟨bytes, memory, group⟩ := h.loadGlobal (some g.id) (some i)
    exact ⟨_, (h.load ha).trans (congrArg (Loaded.bytes · _) bytes), memory, group⟩
  case store =>
    subst hbs
    have group : (s.coreConflict g.core (p / 128) g.id i).group? g.id = some g := by
      refine State.group?_mapTx (fun y => ?_) here (by simp only [plain])
      split
      · rfl
      · split
        · exact y.txKill_id 1 0
        · rfl
    obtain ⟨own, vault, teams, mem⟩ := State.perform_homeWrite (s := s) (i := i) (p := p) (bs := bs) (core := g.core) (t := s.time)
      (line := p / 128) group plain
    refine ⟨_, h.store ha, fun j => by rw [vault]; rfl, teams, own, fun j => ?_⟩
    rw [mem]
    exact Memory.byte_setCells_range s.mem p _ j fun j => bs.getD j 0

end Sys2Proof.Machine

namespace Sys2Proof.Machine

open Sys2Proof

/-! ### The time base (O43) -/

/-- Nothing but memory, what serves it, the groups and the launches differs from `s` in `t`. -/
structure HomeFrame (s t : State) : Prop where
  rest : { t with mem := s.mem, l1 := s.l1, homes := s.homes, msc := s.msc, mscB := s.mscB, predict := s.predict, l1use := s.l1use,
                  queues := s.queues, ports := s.ports, routes := s.routes, free := s.free, answers := s.answers, events := s.events,
                  outbox := s.outbox, ehp := s.ehp, errors := s.errors, groups := s.groups, launches := s.launches } = s

theorem HomeFrame.refl (s : State) : HomeFrame s s := ⟨rfl⟩

theorem HomeFrame.trans {s t u : State} (h : HomeFrame s t) (k : HomeFrame t u) : HomeFrame s u :=
  ⟨(congrArg (fun x : State =>
    { x with mem := s.mem, l1 := s.l1, homes := s.homes, msc := s.msc, mscB := s.mscB, predict := s.predict, l1use := s.l1use,
             queues := s.queues, ports := s.ports, routes := s.routes, free := s.free, answers := s.answers, events := s.events,
             outbox := s.outbox, ehp := s.ehp, errors := s.errors, groups := s.groups, launches := s.launches }) k.rest).trans h.rest⟩

theorem HomeFrame.foldl {α : Type} (F : State → α → State) (hF : ∀ s a, HomeFrame s (F s a)) (l : List α) (s : State) :
    HomeFrame s (l.foldl F s) := by
  induction l generalizing s with
  | nil => exact .refl s
  | cons a l ih => exact (hF s a).trans (ih _)

theorem HomeOnly.frame {s t : State} (h : HomeOnly s t) : HomeFrame s t :=
  ⟨congrArg (fun x : State => { x with groups := s.groups, launches := s.launches }) h.rest⟩

theorem HomeFrame.complete (s : State) (gid : Option Nat) (t : Nat) : HomeFrame s (s.complete gid t) := by
  unfold State.complete
  split
  · exact .refl s
  · split <;> exact ⟨rfl⟩

/-- Bytes that are performed at their home. -/
theorem HomeFrame.perform (s : State) (line : Nat) (w : HWrite) (t : Nat) {bs : List (Nat × Byte)} (hop : w.op = .store bs) :
    HomeFrame s (s.perform line w t) := by
  have given : ∀ (u : State) old, u.giveOld w old t = u := fun u old => by
    unfold State.giveOld
    rw [hop]
    split <;> rfl
  have shown : ∀ u : State, HomeOnly u (u.showSignal line) := fun u => ⟨rfl⟩
  have stored : HomeFrame s (State.txWriteConflict { s with mem := Memory.setCells s.mem (w.op.apply s.mem).1 } line w.isOther) := ⟨rfl⟩
  have completed : ∀ u : State, HomeFrame u (u.completeAll w t false) := fun u => .foldl _ (fun u id => .complete u (some id) t) _ u
  unfold State.perform State.performBytes
  refine .trans ?_ (HomeOnly.touchWritten _ _ _).frame
  dsimp only
  rw [given]
  refine (stored.trans (completed _)).trans ?_
  split
  · exact (shown _).frame
  · exact ((HomeOnly.answerTo _ _ _ _ _).trans (shown _)).frame

theorem HomeFrame.writeAtHome (s : State) (line : Nat) (w : HWrite) {bs : List (Nat × Byte)} (hop : w.op = .store bs) :
    HomeFrame s (s.writeAtHome line w) := by
  have queued : ∀ (u : State) h, HomeOnly u (u.setHome h) := fun u h => ⟨rfl⟩
  unfold State.writeAtHome
  dsimp only
  split
  · exact ((HomeOnly.trans (t := s.drawNat.2) ⟨rfl⟩ (.request _ _ _ _)).trans (queued _ _)).frame
  · split
    · exact (queued _ _).frame
    · split
      · exact .perform s line { w with sent := s.ticks } _ hop
      · split <;> exact (queued _ _).frame

theorem HomeFrame.writeBack (s : State) (core line : Nat) (also : Sparse Nat) : HomeFrame s (s.writeBack core line also) := by
  have cleaned : ∀ l, HomeOnly s (s.setL1 l) := fun l => ⟨rfl⟩
  have dropped : ∀ u : State, HomeOnly u (u.dropL1 core line) := fun u => ⟨rfl⟩
  unfold State.writeBack
  split
  next => exact .refl s
  next l _ =>
    split
    next => exact .refl s
    next =>
      refine (cleaned { l with dirty := [], since := none, owners := [], hints := [] }).frame.trans ?_
      dsimp only
      split
      · exact ((dropped _).trans (.discard _ _ _)).frame
      · exact .foldl _ (fun u o => .writeAtHome u line _ rfl) _ _

/-- What a module that leaves its synchronised states does with lines of other modules (22 R398). -/
def State.leaveSync (u : State) : State :=
  let v := (u.l1.filter (fun l => u.remoteLine l.line)).foldl (fun (s : State) l => (s.writeBack l.core l.line).dropL1 l.core l.line) u
  { v with homes := v.homes.map Home.guarded }

theorem HomeFrame.leaveSync (u : State) : HomeFrame u u.leaveSync :=
  (HomeFrame.foldl (fun (s : State) (l : L1Line) => (s.writeBack l.core l.line).dropL1 l.core l.line)
    (fun v l => (HomeFrame.writeBack v l.core l.line []).trans ⟨rfl⟩) _ u).trans ⟨rfl⟩

/-- A change of the time-base state changes, beside it, only what a write-back changes, and leaves a report. -/
theorem State.setTime_frame (s : State) (st : TimeState) : HomeFrame { s with tstat := st } (s.setTime st) := by
  obtain ⟨u, hu⟩ : ∃ u, u = if s.synced && !State.synced { s with tstat := st } then State.leaveSync { s with tstat := st }
    else { s with tstat := st } := ⟨_, rfl⟩
  have steps : s.setTime st =
      if !(s.tstat == st) && !(s.synced && u.synced) then u.report { sev := 0, src := 9, code := TimeState.code st } else u := by
    rw [hu]
    rfl
  have changed : HomeFrame { s with tstat := st } u := by
    rw [hu]
    split
    · exact .leaveSync _
    · exact .refl _
  rw [steps]
  split
  · exact changed.trans (HomeOnly.report _ _).frame
  · exact changed

theorem State.drift_frame (s : State) : ∃ n o, s.drift = { s with free := n, off := o } := by
  unfold State.drift
  dsimp only
  split
  · exact ⟨_, _, rfl⟩
  · split <;> exact ⟨_, _, rfl⟩
  · split <;> exact ⟨_, _, rfl⟩
  · exact ⟨_, _, rfl⟩

/-- What a cycle changes of the state: the time base alone. -/
def State.ticked (s : State) (n free : Nat) (off : Int) : State :=
  let adv := 24995 + n
  let sub := s.sub + (adv - min s.hold adv)
  { s with free := free, off := off, ticks := s.ticks + 5, rate := n, hold := s.hold - min s.hold adv,
           time := (s.time + sub / 40000) % 2 ^ 64, sub := sub % 40000 }

/-- One core cycle with a rate. -/
def State.tickBy (u : State) (n : Nat) : State :=
  let adv := cycleUnits - 5 + n
  let held := min u.hold adv
  let sub := u.sub + (adv - held)
  let v := if u.tstat == .unlocked then u else if held != 0 then { u with off := u.off + held } else u.drift
  { v with ticks := v.ticks + 5, rate := n, hold := v.hold - held, time := (v.time + sub / 40000) % 2 ^ 64, sub := sub % 40000 }

theorem State.tickBy_eq (s : State) (n k : Nat) : ∃ free off, State.tickBy { s with free := k } n = s.ticked n free off := by
  unfold State.tickBy
  dsimp only
  split
  · exact ⟨_, _, rfl⟩
  · split
    · exact ⟨_, _, rfl⟩
    · obtain ⟨free, off, e⟩ := State.drift_frame { s with free := k }
      rw [e]
      exact ⟨_, _, rfl⟩

theorem State.tick_eq (s : State) : ∃ free off, s.tick =
    s.ticked (if s.source && (s.tstat == .locked || s.tstat == .unsynced) then Config.freeNat s.free % 11 else s.rate) free off := by
  cases c : (s.source && (s.tstat == .locked || s.tstat == .unsynced))
  · have run : s.tick = State.tickBy { s with free := s.free } s.rate := by
      unfold State.tick
      rw [c]
      rfl
    rw [run]
    exact State.tickBy_eq s _ _
  · have run : s.tick = State.tickBy { s with free := s.free + 1 } (Config.freeNat s.free % 11) := by
      unfold State.tick
      rw [c]
      rfl
    rw [run]
    exact State.tickBy_eq s _ _

/-- With no hold, a cycle advances the count by 24,995 units and the rate. -/
theorem State.ticked_count (s : State) (n free : Nat) (off : Int) (hh : s.hold = 0) (hw : s.time + (s.sub + (24995 + n)) / 40000 < 2 ^ 64) :
    (s.ticked n free off).time * 40000 + (s.ticked n free off).sub = s.time * 40000 + s.sub + 24995 + n := by
  have time : (s.ticked n free off).time = (s.time + (s.sub + (24995 + n)) / 40000) % 2 ^ 64 := by simp [State.ticked, hh]
  have sub : (s.ticked n free off).sub = (s.sub + (24995 + n)) % 40000 := by simp [State.ticked, hh]
  rw [time, sub, Nat.mod_eq_of_lt hw]
  omega

theorem State.near1588_iff (s : State) (src : Nat) : s.near1588 src = true ↔
    s.time * 40000 + s.sub ≤ (src + 20) * 40000 ∧ src * 40000 ≤ (s.time + 20) * 40000 + s.sub := by
  unfold State.near1588 State.ahead lockBound
  rw [Bool.and_eq_true, decide_eq_true_eq, decide_eq_true_eq]
  omega

section

variable {s : State}

theorem State.setTime_tstat (s : State) (st : TimeState) : (s.setTime st).tstat = st := (congrArg State.tstat (s.setTime_frame st).rest :)
theorem State.setTime_source (s : State) (st : TimeState) : (s.setTime st).source = s.source := (congrArg State.source (s.setTime_frame st).rest :)
theorem State.setTime_time (s : State) (st : TimeState) : (s.setTime st).time = s.time := (congrArg State.time (s.setTime_frame st).rest :)
theorem State.setTime_sub (s : State) (st : TimeState) : (s.setTime st).sub = s.sub := (congrArg State.sub (s.setTime_frame st).rest :)
theorem State.setTime_hold (s : State) (st : TimeState) : (s.setTime st).hold = s.hold := (congrArg State.hold (s.setTime_frame st).rest :)
theorem State.setTime_since (s : State) (st : TimeState) : (s.setTime st).since = s.since := (congrArg State.since (s.setTime_frame st).rest :)

theorem State.tick_step (s : State) : s.tick.step = s.step := by
  obtain ⟨free, off, e⟩ := s.tick_eq
  rw [e]
  rfl

/-- The first part of a cycle during a start or in `RECOVERY`. -/
theorem execIssueCycle_not_ready (h : s.step ≠ .ready) (h0 : s.ev.sub = 0) :
    exec .issueCycle s = .next (match s.tick.step with
      | .starting _ _ => if 1440000000000 ≤ s.tick.ticks then s.tick.push [evWork .startTimeout 0] else s.tick
      | _ => s.tick) := by
  show execIssueCycle s = _
  have off : (s.step != .ready) = true := by simpa using h
  rw [execIssueCycle, h0, off]
  rfl

end

/-- Settles O43. -/
theorem timeBaseMovesAsItsSourceAllows : Obligations.TimeBaseMovesAsItsSourceAllows := by
  intro s
  dsimp only
  obtain ⟨free, off, tick⟩ := s.tick_eq
  refine ⟨fun hr h0 => ?first, fun h1 => ?second, fun h2 => ⟨fun ha => ?third, fun ha => ?again⟩, fun hr h0 => ?recovery, fun a b hs h0 => ?starting,
    ⟨by rw [tick]; rfl, fun hh hs ht hw => ?source, fun hh hs hw => ?alone⟩, fun ht hle => ?lock, fun ht hlt => ?wait,
    fun ht => ?lost, fun ht => ?lostAgain, fun ht => ?regained, fun ht hs => ?timeout,
    fun ht hs hn => ?converge, ⟨_, rfl, ?peers⟩⟩
  case first =>
    show execIssueCycle s = _
    rw [execIssueCycle, h0, hr]
    rfl
  case second =>
    show execIssueCycle s = _
    rw [execIssueCycle, h1]
    rfl
  case third =>
    show execIssueCycle s = _
    obtain ⟨k, hk⟩ := Nat.exists_eq_add_of_le' h2
    rw [execIssueCycle, hk]
    simp only [ha, beq_self_eq_true, if_true]
  case again =>
    show execIssueCycle s = _
    obtain ⟨k, hk⟩ := Nat.exists_eq_add_of_le' h2
    rw [execIssueCycle, hk]
    simp only [beq_iff_eq, ha, if_false]
  case recovery =>
    have hs : s.tick.step = .recovery := s.tick_step.trans hr
    rw [execIssueCycle_not_ready (by simp [hr]) h0, hs]
  case starting =>
    have hr : s.step = .starting a b := s.tick_step.symm.trans hs
    rw [execIssueCycle_not_ready (by simp [hr]) h0, hs]
  case source =>
    have cond : (s.source && (s.tstat == .locked || s.tstat == .unsynced)) = true := by simp [hs, ht]
    rw [cond, if_pos rfl] at tick
    have small : Config.freeNat s.free % 11 ≤ 10 := Nat.le_of_lt_succ (Nat.mod_lt _ (by decide))
    have count := s.ticked_count (Config.freeNat s.free % 11) free off hh (by omega)
    rw [tick]
    omega
  case alone =>
    have cond : (s.source && (s.tstat == .locked || s.tstat == .unsynced)) = false := by simp [hs]
    rw [cond, if_neg Bool.false_ne_true] at tick
    rw [tick]
    exact s.ticked_count s.rate free off hh (by rwa [← Nat.add_assoc])
  case lock =>
    have run : execTimebaseFirstLock s = .next (State.setTime { s with source := true, time := s.ev.val.toNat, sub := 0, off := 0 } .locked) := by
      rw [execTimebaseFirstLock, ht]
      simp only [hle, if_true]
      rfl
    exact ⟨_, run, State.setTime_time _ _, State.setTime_sub _ _, State.setTime_tstat _ _, State.setTime_source _ _⟩
  case wait =>
    have run : execTimebaseFirstLock s = .next (State.setTime { s with
        source := true, hold := (s.time - s.ev.val.toNat) * 40000, off := s.ahead s.ev.val.toNat } .unsynced) := by
      rw [execTimebaseFirstLock, ht]
      simp only [Nat.not_le.2 hlt, if_false]
      rfl
    exact ⟨_, run, State.setTime_time _ _, State.setTime_hold _ _, State.setTime_tstat _ _, State.setTime_source _ _⟩
  case lost =>
    have run : execTimebaseSourceLost s = .next (State.setTime { s with source := false, hold := 0, since := s.ticks } .holdover) := by
      rw [execTimebaseSourceLost, ht]
      rfl
    exact ⟨_, run, State.setTime_tstat _ _, State.setTime_since _ _, State.setTime_source _ _⟩
  case lostAgain =>
    show execTimebaseSourceLost s = _
    rw [execTimebaseSourceLost, ht]
    rfl
  case regained =>
    have run : execTimebaseSourceRegained s = .next (State.setTime { s with source := true, off := s.ahead s.ev.val.toNat }
        (if s.near1588 s.ev.val.toNat then .locked else .unsynced)) := by
      rw [execTimebaseSourceRegained, ht]
      rfl
    exact ⟨_, run, State.setTime_source _ _, (State.setTime_tstat _ _).trans (ite_congr (propext (s.near1588_iff _)) (fun _ => rfl) fun _ => rfl)⟩
  case timeout =>
    have run : execHoldoverTimeout s = .next (s.setTime .unsynced) := by
      rw [execHoldoverTimeout, ht]
      simp only [hs, beq_self_eq_true, decide_true, Bool.and_self, if_true]
    exact ⟨_, run, State.setTime_tstat _ _⟩
  case converge =>
    have near : s.near1588 s.ev.val.toNat = true := (s.near1588_iff _).2 hn
    have run : execUnsyncedConverge s = .next (State.setTime { s with hold := 0, off := s.ahead s.ev.val.toNat } .locked) := by
      rw [execUnsyncedConverge, ht, hs, near]
      rfl
    exact ⟨_, run, State.setTime_tstat _ _, State.setTime_hold _ _⟩
  case peers => exact ⟨Sparse.get_put_same _ _ _ _, fun p hp => Sparse.get_put_ne _ _ _ hp, rfl⟩

end Sys2Proof.Machine

namespace Sys2Proof.Machine

open Sys2Proof

/-! ### The steps of a row program (O41) -/

/-- The state of a program that goes on at `rpc`, with its command and bank as given, inside its row step. -/
def State.goesOnAt (s : State) (c : RowCmd) (nb : NearBank) (rpc : Nat) : State :=
  let s' := (s.modRow s.cur.cmd (fun _ => c)).setNear { nb with rpc := rpc % 32 }
  { s' with agenda := .row s.cur.cmd :: s'.agenda }

/-- Whether a program of `c` that goes on at `rpc` is neither at its end nor at a row boundary. -/
def RowCmd.staysInside (c : RowCmd) (rpc : Nat) : Prop :=
  rpc ≤ 31 ∧ ((c.steps.getD rpc 0).extractLsb' 28 4 ≠ 1#4 ∨ c.isOpen = false)

section RunStep

variable {s : State} {c : RowCmd} {body : State → RowCmd → NearBank → StepEnd}

theorem runStep_of_bad (row : s.row? s.cur.cmd = some c) (h : body s c (s.near c.stack c.pch) = .bad) :
    runStep s body = s.stepsOver c (some 7) := by
  simp only [runStep, row, h]

theorem runStep_of_done (row : s.row? s.cur.cmd = some c) (h : body s c (s.near c.stack c.pch) = .done) :
    runStep s body = s.stepsOver c (some 0) := by
  simp only [runStep, row, h]

theorem runStep_of_go {c' : RowCmd} {nb : NearBank} {rpc : Nat} (row : s.row? s.cur.cmd = some c)
    (h : body s c (s.near c.stack c.pch) = .go c' nb rpc) (inside : c'.staysInside rpc) :
    runStep s body = s.goesOnAt c' nb rpc := by
  obtain ⟨short, noOpen⟩ := inside
  have noBoundary : ((c'.steps.getD rpc 0).extractLsb' 28 4 == 1#4 && c'.isOpen) = false := by
    rcases noOpen with op | closed
    · rw [beq_eq_false_iff_ne.2 op, Bool.false_and]
    · rw [closed, Bool.and_false]
  simp only [runStep, row, h]
  rw [if_neg (Nat.not_lt.2 short), noBoundary]
  rfl

end RunStep

/-- What reading rows leaves alone for a row program: the commands, the near banks and the current command. -/
structure SameRows (s t : State) : Prop where
  rows : t.rows = s.rows
  banks : t.banks = s.banks
  cur : t.cur = s.cur

theorem SameRows.refl (s : State) : SameRows s s := ⟨rfl, rfl, rfl⟩

theorem SameRows.trans {s t u : State} (h : SameRows s t) (k : SameRows t u) : SameRows s u :=
  ⟨k.rows.trans h.rows, k.banks.trans h.banks, k.cur.trans h.cur⟩

theorem SameRows.foldl {α : Type} {f : State → α → State} (step : ∀ s x, SameRows s (f s x)) (l : List α) (s : State) :
    SameRows s (l.foldl f s) := by
  induction l generalizing s with
  | nil => exact .refl s
  | cons x l ih => exact (step s x).trans (ih (f s x))

theorem State.mscClean_sameRows (s : State) (pa n : Nat) (drop : Bool) : SameRows s (s.mscClean pa n drop) := by
  unfold State.mscClean
  exact SameRows.foldl (by intro _ _; exact ⟨rfl, rfl, rfl⟩) _ s

theorem State.engineLoads_sameRows (s : State) (pa n : Nat) : SameRows s (s.engineLoads pa n) := by
  unfold State.engineLoads
  split
  · exact .refl s
  · exact SameRows.foldl (by intro _ _; exact ⟨rfl, rfl, rfl⟩) _ s

theorem State.rowReads_sameRows (s : State) (ps : List (Nat × Nat)) : SameRows s (s.rowReads ps) := by
  unfold State.rowReads
  refine SameRows.foldl ?_ ps s
  intro t p
  exact (t.mscClean_sameRows p.1 p.2 false).trans (State.engineLoads_sameRows _ p.1 p.2)

theorem SameRows.row? {s t : State} (h : SameRows s t) : t.row? t.cur.cmd = s.row? s.cur.cmd := by
  simp only [State.row?, h.rows, h.cur]

theorem SameRows.near {s t : State} (h : SameRows s t) : t.near = s.near := by
  funext stack pch
  simp only [State.near, h.banks]

/-- `OPEN` where no row that it opens is under test or bad: it reads them, and steps. -/
theorem execStepOpen_of_clean {s : State} {c : RowCmd} (row : s.row? s.cur.cmd = some c) (noTest : s.rowsTested (s.opened c) = false)
    (noBad : s.badSector (s.opened c) = none) :
    execStepOpen s = .next (runStep (s.rowReads (s.opened c)) (fun _ c nb =>
      if c.rows ≤ nb.rp then .bad
      else .go { c with isOpen := true, chunks := 0, next := nb.rp + 1 } { nb with rp := nb.rp + 1 } (nb.rpc + 1))) := by
  have clean : s.openedBad = none := by simp only [State.openedBad, row, Option.bind_some, noBad, Option.map_none]
  have untested : (s.row? s.cur.cmd).any (fun c => s.rowsTested (s.opened c)) = false := by rw [row]; exact noTest
  unfold execStepOpen
  rw [untested, if_neg Bool.false_ne_true, clean]
  simp only [row]

theorem execStepOpen_opens {s : State} {c : RowCmd} (row : s.row? s.cur.cmd = some c) (left : (s.near c.stack c.pch).rp < c.rows)
    (poison : s.poison = []) (tests : s.tests = [])
    (inside : RowCmd.staysInside { c with isOpen := true, chunks := 0, next := (s.near c.stack c.pch).rp + 1 }
      ((s.near c.stack c.pch).rpc + 1)) :
    execStepOpen s = .next ((s.rowReads (s.opened c)).goesOnAt
      { c with isOpen := true, chunks := 0, next := (s.near c.stack c.pch).rp + 1 }
      { s.near c.stack c.pch with rp := (s.near c.stack c.pch).rp + 1 } ((s.near c.stack c.pch).rpc + 1)) := by
  have same := s.rowReads_sameRows (s.opened c)
  rw [execStepOpen_of_clean row (by simp only [State.rowsTested, tests, List.isEmpty_nil, Bool.not_true, Bool.false_and])
    (by simp only [State.badSector, poison, List.find?_nil, Option.map_none])]
  refine congrArg _ (runStep_of_go (same.row?.trans row) ?_ inside)
  simp only [same.near]
  exact if_neg (Nat.not_le.2 left)

theorem execStepOpen_past_rows {s : State} {c : RowCmd} (row : s.row? s.cur.cmd = some c)
    (none_left : c.rows ≤ (s.near c.stack c.pch).rp) : execStepOpen s = .next (s.stepsOver c (some 7)) := by
  have nothing : s.opened c = [] := if_pos none_left
  have clean : s.badSector [] = none := by
    simp only [State.badSector, List.any_nil, Bool.and_false, List.find?_eq_none.2 (fun _ _ => Bool.false_ne_true), Option.map_none]
  rw [execStepOpen_of_clean row (by rw [nothing]; exact Bool.and_false _) (by rw [nothing]; exact clean), nothing]
  exact congrArg _ (runStep_of_bad row (if_pos none_left))

/-- Whether the fields and the state of a `MACB` or `MACE` step are in order (18 R342). -/
def RowCmd.macOk (c : RowCmd) (c0 : BitVec 6) (n : BitVec 5) : Prop :=
  1 ≤ n.toNat ∧ n.toNat ≤ 16 ∧ c0.toNat + n.toNat ≤ 64 ∧ c.next ≠ 0 ∧ c.chunks + n.toNat ≤ 64

theorem macRun_of_ok {s : State} {c : RowCmd} {own : Bool} {v : BitVec 3} {c0 : BitVec 6} {n : BitVec 5}
    (row : s.row? s.cur.cmd = some c) (ok : c.macOk c0 n) (inside : c.staysInside ((s.near c.stack c.pch).rpc + 1)) :
    macRun own v c0 n s = s.goesOnAt { c with chunks := c.chunks + n.toNat }
      ((List.range n.toNat).foldl (s.macChunk c own v.toNat c0.toNat) (s.near c.stack c.pch))
      ((s.near c.stack c.pch).rpc + 1) := by
  obtain ⟨one, sixteen, fits, isOpen, few⟩ := ok
  refine runStep_of_go row ?_ inside
  refine if_neg ?_
  simp only [Bool.or_eq_true, beq_iff_eq, decide_eq_true_eq]
  omega

theorem macRun_of_bad {s : State} {c : RowCmd} {own : Bool} {v : BitVec 3} {c0 : BitVec 6} {n : BitVec 5}
    (row : s.row? s.cur.cmd = some c) (bad : ¬ c.macOk c0 n) : macRun own v c0 n s = s.stepsOver c (some 7) := by
  refine runStep_of_bad row (if_pos ?_)
  simp only [RowCmd.macOk] at bad
  simp only [Bool.or_eq_true, beq_iff_eq, decide_eq_true_eq]
  omega

theorem RowCmd.not_macOk {c : RowCmd} {c0 : BitVec 6} {n : BitVec 5}
    (bad : n = 0 ∨ 16 < n.toNat ∨ 64 < c0.toNat + n.toNat ∨ c.next = 0 ∨ 64 < c.chunks + n.toNat) : ¬ c.macOk c0 n := by
  rintro ⟨one, sixteen, fits, isOpen, few⟩
  rcases bad with zero | bad | bad | bad | bad
  · rw [zero] at one
    exact absurd one (by decide)
  all_goals omega

/-- Settles O41: what a step's body answers decides it, and `OPEN` first reads rows, which leaves the command and its bank. -/
theorem rowProgramSteps : Obligations.RowProgramSteps := by
  intro s c row
  refine ⟨congrArg _ (runStep_of_done row rfl), ?_, execStepOpen_past_rows row, ?_, ?_, ?_, ?_⟩
  · intro left poison tests short noOpen
    have cur := (s.rowReads_sameRows (s.opened c)).cur
    refine (execStepOpen_opens row left poison tests ⟨short, .inl noOpen⟩).trans ?_
    simp only [State.goesOnAt, cur]
  · intro inside
    exact congrArg _ (runStep_of_go row rfl inside)
  · intro t lc rpc inside
    refine congrArg _ ((runStep_of_go row (c' := c) (nb := { s.near c.stack c.pch with lc := lc }) (rpc := rpc) ?_ inside).trans rfl)
    by_cases zero : lc = 0
    · simp only [rpc, bne_iff_ne, ne_eq, lc]
    · simp only [rpc, bne_iff_ne, ne_eq, lc]
  · intro v c0 n one sixteen fits isOpen few inside
    have ok : c.macOk c0 n := ⟨one, sixteen, fits, isOpen, few⟩
    exact ⟨congrArg _ (macRun_of_ok row ok inside), congrArg _ (macRun_of_ok row ok inside)⟩
  · intro v c0 n bad
    exact ⟨congrArg _ (macRun_of_bad row (RowCmd.not_macOk bad)), congrArg _ (macRun_of_bad row (RowCmd.not_macOk bad))⟩

end Sys2Proof.Machine

namespace Sys2Proof.Machine

open Sys2Proof

/-! ### What an instruction of a sequencer leaves (O39) -/

theorem SeqHere.seq? {s : State} {t : Team} {q : Sequencer} (h : SeqHere s t q) : s.seq? s.cur.team = some q := by
  simp only [State.seq?, h.team, Option.bind_some, h.seq]

section SeqExec

variable {s u : State} {t : Team} {q : Sequencer} {body : State → Team → Sequencer → SeqStep}

theorem seqExec_of_done (h : SeqHere s t q) (hb : body s t q = .done u) : seqExec s body = .next (u.seqNextOf s.cur.team) := by
  simp only [seqExec, h.team, h.seq?, hb]
  rfl

theorem seqExec_of_jump {o : BitVec 16} (h : SeqHere s t q) (hb : body s t q = .jump o u) :
    seqExec s body = .next (u.seqMoveOf s.cur.team (o.signExtend 64 * 4)) := by
  simp only [seqExec, h.team, h.seq?, hb]
  rfl

theorem seqExec_of_stay (h : SeqHere s t q) (hb : body s t q = .stay) : seqExec s body = .next s := by
  simp only [seqExec, h.team, h.seq?, hb]

theorem seqExec_of_block (h : SeqHere s t q) (hb : body s t q = .block u) :
    seqExec s body = .next (u.modSeq s.cur.team (fun x => { x with st := .blocked })) := by
  simp only [seqExec, h.team, h.seq?, hb]

/-- A failed check other than that of an uncorrectable error halts the sequencer, and nothing is reported. -/
theorem seqExec_of_halt {code addr : Nat} {tile : Option Nat} (h : SeqHere s t q) (hb : body s t q = .halt code addr tile)
    (other : code ≠ 0x0D) : seqExec s body = .next (s.haltSeq s.cur.team code addr tile) := by
  have noReport : (code == 0x0D && q.mma.isEmpty) = false := by rw [beq_eq_false_iff_ne.2 other, Bool.false_and]
  simp only [seqExec, h.team, h.seq?, hb, noReport, if_neg Bool.false_ne_true]

end SeqExec

section Scalar

variable {s : State} {t : Team} {q : Sequencer} {d a : BitVec 5} {o : BitVec 16}

theorem execMsetI_plain (h : SeqHere s t q) :
    execMsetI d 0 o s = .next (s.modSeq t.id (fun x => x.wx d.toNat (o.setWidth 64))).seqNext :=
  seqExec_of_done h rfl

theorem execMaddx_eq {b : BitVec 5} {i : BitVec 11} (h : SeqHere s t q) :
    execMaddx d a b i s =
      .next (s.modSeq t.id (fun x => x.wx d.toNat (q.rx a.toNat + q.rx b.toNat + i.signExtend 64))).seqNext :=
  seqExec_of_done h rfl

theorem execMloop_zero (h : SeqHere s t q) : execMloop 0 o s = .next (s.haltSeq s.cur.team 0x02 0 none) :=
  seqExec_of_halt h rfl (by decide)

theorem execMbraAl_eq (h : SeqHere s t q) : execMbraAl o s = .next (s.seqMove (o.signExtend 64 * 4)) :=
  seqExec_of_jump h rfl

theorem execMsetI_shifted {sh : BitVec 2} (h : SeqHere s t q) (shift : sh ≠ 0) :
    execMsetI d sh o s = .next (s.modSeq t.id (fun x => x.wx d.toNat
      ((q.rx d.toNat &&& ~~~(0xFFFF#64 <<< (16 * sh.toNat))) ||| (o.setWidth 64 <<< (16 * sh.toNat))))).seqNext := by
  have pos : sh.toNat ≠ 0 := fun e => shift (BitVec.eq_of_toNat_eq e)
  have nonzero : (16 * sh.toNat == 0) = false := by
    rw [beq_eq_false_iff_ne]
    omega
  refine seqExec_of_done h (congrArg SeqStep.done ?_)
  simp only [nonzero, if_neg Bool.false_ne_true]

theorem execMsetQ_of_entry {n : Nat} {e : QEntry} {u : State} (h : SeqHere s t q) (bound : t.bound? 3 = some n)
    (took : s.engineTake t.id n false = some (e, u)) :
    execMsetQ d s = .next ((u.modSeq t.id (fun x => x.wx d.toNat e.val)).seqNextOf s.cur.team) :=
  seqExec_of_done h (by simp only [bound, took])

theorem execMsetQ_of_empty {n : Nat} (h : SeqHere s t q) (bound : t.bound? 3 = some n)
    (empty : s.engineTake t.id n false = none) :
    execMsetQ d s = .next (s.modSeq s.cur.team (fun x => { x with st := .blocked })) :=
  seqExec_of_block h (by simp only [bound, empty])

theorem execMsetQ_of_unbound (h : SeqHere s t q) (free : t.bound? 3 = none) :
    execMsetQ d s = .next (s.haltSeq s.cur.team 0x0C 0 none) :=
  seqExec_of_halt h (by simp only [free]) (by decide)

theorem execMsetR_of_room {n : Nat} {u : State} (h : SeqHere s t q) (bound : t.bound? 4 = some n)
    (pushed : s.enginePush t.id n (q.rx a.toNat) = some u) : execMsetR a s = .next (u.seqNextOf s.cur.team) :=
  seqExec_of_done h (by simp only [bound, pushed])

theorem execMloop_again (h : SeqHere s t q) (named : d ≠ 0) (more : q.rx d.toNat ≠ 1) :
    execMloop d o s = .next ((s.modSeq t.id (fun x => x.wx d.toNat (q.rx d.toNat - 1))).seqMove (o.signExtend 64 * 4)) := by
  have left : (q.rx d.toNat - 1 != 0) = true := bne_iff_ne.2 (fun e => more ((BitVec.sub_eq_iff_eq_add.1 e).trans (by decide)))
  refine seqExec_of_jump h ?_
  simp only [beq_eq_false_iff_ne.2 named, if_neg Bool.false_ne_true, left, if_true]

theorem execMloop_last (h : SeqHere s t q) (named : d ≠ 0) (last : q.rx d.toNat = 1) :
    execMloop d o s = .next (s.modSeq t.id (fun x => x.wx d.toNat 0)).seqNext := by
  refine seqExec_of_done h ?_
  simp only [beq_eq_false_iff_ne.2 named, if_neg Bool.false_ne_true, last]
  rfl

/-- A branch that is taken by a test goes by its offset, else to the next instruction. -/
theorem seqExec_of_branch {taken : Sequencer → Bool} (h : SeqHere s t q) :
    seqExec s (fun s _ q => if taken q = true then .jump o s else .done s) =
      .next (s.seqMove (if taken q then o.signExtend 64 * 4 else 4)) := by
  cases yes : taken q with
  | true => exact seqExec_of_jump h (by simp only [yes, if_true])
  | false => exact seqExec_of_done h (by simp only [yes, if_neg Bool.false_ne_true])

theorem execMbraStop_of_done (h : SeqHere s t q) (idle : q.mma = []) (stored : s.mstsDone t.id = true) :
    execMbraStop s = .next (s.modSeq t.id (fun x => { x with st := .idle })).seqNext :=
  seqExec_of_done h (by simp only [idle, stored, List.isEmpty_nil, Bool.not_true, Bool.or_self, if_neg Bool.false_ne_true])

theorem execMbraStop_of_mma (h : SeqHere s t q) (busy : q.mma ≠ []) : execMbraStop s = .next s := by
  refine seqExec_of_stay h (if_pos ?_)
  rw [List.isEmpty_eq_false_iff.2 busy, Bool.not_false, Bool.true_or]

/-- The sequencer of a team waits for the phase of a numbered barrier. -/
def State.seqWaits (s : State) (t : Team) (b : Nat) : State :=
  s.modSeq t.id (fun x => { x with st := .waiting, waitBar := b, waitPhase := (t.bar b).phase })

variable {n : BitVec 4} {c : BitVec 6}

theorem execMsig_of_done (h : SeqHere s t q) (some_ : c ≠ 0) (few : c.toNat ≤ 33) (stored : s.mstsDone t.id = true) :
    execMsig n c s = .next ((s.arriveNum t.id n.toNat none c.toNat).seqNextOf s.cur.team) := by
  refine seqExec_of_done h ?_
  simp only [beq_eq_false_iff_ne.2 some_, Bool.false_or, decide_eq_true_eq, if_neg (Nat.not_lt.2 few), stored, Bool.not_true,
    if_neg Bool.false_ne_true]

theorem execMwait_plain (h : SeqHere s t q) : execMwait n 0 s = .next (s.seqWaits t n.toNat).seqNext :=
  seqExec_of_done h rfl

theorem execMwait_of_done (h : SeqHere s t q) (some_ : c ≠ 0) (few : c.toNat ≤ 33) (stored : s.mstsDone t.id = true) :
    execMwait n c s = .next (((s.seqWaits t n.toNat).arriveNum t.id n.toNat none c.toNat).seqNextOf s.cur.team) := by
  refine seqExec_of_done h ?_
  simp only [if_neg (Nat.not_lt.2 few), stored, Bool.not_true, Bool.and_false, if_neg Bool.false_ne_true,
    beq_eq_false_iff_ne.2 some_]
  rfl

end Scalar

/-- Settles O39: what each body answers, with what `seqExec` makes of it. -/
theorem sequencerScalarAndControl : Obligations.SequencerScalarAndControl := by
  intro s t q d a b o h
  refine ⟨execMsetI_plain h, fun sh shift => execMsetI_shifted h shift, fun i => execMaddx_eq h,
    fun n e u bound took => execMsetQ_of_entry h bound took, fun n bound empty => execMsetQ_of_empty h bound empty,
    fun n u bound pushed => execMsetR_of_room h bound pushed, execMsetQ_of_unbound h,
    fun named more => execMloop_again h named more, fun named last => execMloop_last h named last,
    execMloop_zero h, execMbraAl_eq h, seqExec_of_branch h, seqExec_of_branch h,
    fun idle stored => execMbraStop_of_done h idle stored, execMbraStop_of_mma h, ?_⟩
  intro n c some_ few stored
  exact ⟨execMsig_of_done h some_ few stored, execMwait_plain h, execMwait_of_done h some_ few stored⟩

end Sys2Proof.Machine

namespace Sys2Proof.Machine

open Sys2Proof

/-! ### Blocks and tiles of a sequencer (O40)

Nothing in a state says that the numbers of its teams differ, and `State.modSeq` changes the sequencer of every team of a number.
The clause of `MSPARSE` writes the skip count of the current sequencer to all of them; the instruction writes each its own. -/

/-- A machine of two teams numbered 5, whose sequencers have skipped nothing and one element. -/
def twinSequencers : State :=
  { State.reset with
    teams := [{ id := 5, size := 1, seq := some {} }, { id := 5, size := 1, seq := some { skips := 1 } }]
    cur := { gid := 7, size := 4, lanes := 1, team := 5 } }

/-- What register 1 of every sequencer holds after a result. -/
def Result.firstX : Result → List (Option W64)
  | .next t => t.teams.map (fun t => t.seq.map (fun q => q.rx 1))
  | _ => []

theorem twinSequencers_here : SeqHere twinSequencers { id := 5, size := 1, seq := some {} } {} := ⟨rfl, rfl⟩

/-- `MSPARSE` writes to each sequencer its own skip count. -/
theorem twinSequencers_msparse : Result.firstX (exec (.msparse 1) twinSequencers) = [some 0, some 1] := by decide

/-- Refutes O40: with two teams of one number, the statement's `MSPARSE` writes the first one's skip count to both. -/
theorem not_sequencerBlocksAndTiles : ¬ Obligations.SequencerBlocksAndTiles := by
  unfold Obligations.SequencerBlocksAndTiles
  intro h
  obtain ⟨-, -, -, -, -, sparse, -⟩ := h twinSequencers _ _ 0 0 0 1 0 0 twinSequencers_here
  have same := twinSequencers_msparse
  rw [sparse rfl] at same
  exact absurd same (by decide)

end Sys2Proof.Machine

namespace Sys2Proof.Machine

open Sys2Proof

/-! ### Row instructions of lanes (O38) -/

/-- What a lane is owed by an instruction on one register that is no atomic: no second half, and no old value of a word. -/
theorem State.owedPend_one {s : State} {op : Op} {f : Full} {n : Nat} (one : dest op f = destCells g1 f.xd f.dst.toNat)
    (noAtom : ¬ (op = .atom ∨ op = .atomCas)) :
    s.owedPend op f n =
      { serial := n, window := f.la.toNat, cells := (dest op f).map (fun c => (c, none)), tick := s.ticks, pc := s.cur.pc } := by
  have single : ∃ c, dest op f = [c] := by
    rw [one]
    simp only [g1, destCells]
    split
    · split <;> exact ⟨_, rfl⟩
    · exact ⟨_, rfl⟩
  obtain ⟨c, hc⟩ := single
  rw [State.owedPend, hc, if_neg noAtom]
  cases c <;> rfl

section RowCommand

variable {s s1 : State} {op : Op} {f : Full} {i : Nat} {bs : List Byte}

/-- A row command instruction on one lane whose descriptor can be read: its command enters `READING`, and the lane is owed its
status word. -/
theorem rowExec_one (cmd : Nat) (one : dest op f = destCells g1 f.xd f.dst.toNat) (noAtom : ¬ (op = .atom ∨ op = .atomCas))
    (h1 : OneLane s f i) (htx : (s.group s.cur.gid).tx = none) (la : f.la = 0) (hk : AccessKeeps s s1) (h : Ready s op f)
    (hq : noQueue op f)
    (hload : s.load (s.group s.cur.gid) i .global (srcA op f (s.group s.cur.gid) i 0).toNat 64 0 = .bytes bs s1) :
    (rowExec op cmd f s).rows = s1.rows ++ [newRow { s1 with serial := s1.serial + 1 } (s.group s.cur.gid) i s1.serial cmd bs] ∧
      (((rowExec op cmd f s).group s.cur.gid).lane i).pend =
        [{ serial := s1.serial, window := 0, cells := (dest op f).map (fun c => (c, none)), tick := s1.ticks, pc := s.cur.pc }] ∧
      (((rowExec op cmd f s).group s.cur.gid).lane i).pc = s.pastPc i := by
  obtain ⟨u, hu⟩ : ∃ u, u = { s1 with
      serial := s1.serial + 1
      rows := s1.rows ++ [newRow { s1 with serial := s1.serial + 1 } (s.group s.cur.gid) i s1.serial cmd bs] } := ⟨_, rfl⟩
  have body : rowLane op f cmd s (s.group s.cur.gid) (s.noneGot f) i = .owe u s1.serial := by
    have popped : poppedBy (s.noneGot f) i = 0 := poppedBy_zero _ i
    rw [rowLane, popped, hload, hu]
    rfl
  have keeps : AccessKeeps s u := by
    obtain ⟨cur, w, here⟩ := hk
    rw [hu]
    exact ⟨cur, w, here⟩
  have nonempty : dest op f ≠ [] := by
    rw [one]
    exact destCells_g_ne_nil (by decide)
  have rows : (rowExec op cmd f s).rows = u.rows := by
    rw [rowExec, laneExec_one_owe htx keeps.1 h hq h1 body rfl]
    rfl
  have serial : u.ticks = s1.ticks := by rw [hu]
  obtain ⟨pend, pc⟩ := laneExec_one_owed h hq h1 htx keeps nonempty body
  refine ⟨rows.trans (by rw [hu]), ?_, pc⟩
  rw [rowExec, pend, State.owedPend_one one noAtom, la, serial, keeps.1]
  rfl

end RowCommand

/-! ### `ROW.WAIT` (18 R345) -/

section RowWait

variable {s : State} {f : Full} {n : Nat}

/-- What `ROW.WAIT` does on a lane. -/
def rowWaitBody (f : Full) (s : State) (g : Group) (got : List (Nat × W64)) (_ : Nat) : LaneStep :=
  match minOf? (got.map (fun x => (srcA .rowWait f g x.1 x.2).toNat % 2 ^ 32)) with
  | none => .res s [] 0
  | some n => .res (if s.rowsLive g.team ≤ n then s else s.modGroup g.id (fun g => { g with wait := .rows n })) [] 0

theorem execRowWait_eq (f : Full) (s : State) : execRowWait f s = .next (laneExec .rowWait f s (rowWaitBody f)) := rfl

theorem State.rowsLive_of_onlyGroups {s t : State} (h : OnlyGroups s t) (team : Nat) : t.rowsLive team = s.rowsLive team := by
  have rows : t.rows = s.rows := (congrArg State.rows h.same :)
  rw [State.rowsLive, rows]
  rfl

theorem rowWaitBody_eq {t : State} {i : Nat} (same : OnlyGroups s t)
    (least : minOf? ((s.enabledFor f).map (fun i => low32 (srcA .rowWait f (s.group s.cur.gid) i 0))) = some n) :
    rowWaitBody f t (s.group s.cur.gid) (s.noneGot f) i = .res (if s.rowsLive (s.group s.cur.gid).team ≤ n then t
      else t.modGroup s.cur.gid (fun g => { g with wait := .rows n })) [] 0 := by
  have values : (s.noneGot f).map (fun x => (srcA .rowWait f (s.group s.cur.gid) x.1 x.2).toNat % 2 ^ 32) =
      (s.enabledFor f).map (fun i => low32 (srcA .rowWait f (s.group s.cur.gid) i 0)) := by
    rw [State.noneGot, List.map_map]
    exact List.map_congr_left fun i _ => (BitVec.toNat_setWidth ..).symm
  rw [rowWaitBody, values, least]
  simp only [State.rowsLive_of_onlyGroups same, State.group_id]

theorem execRowWait_few (h : Ready s .rowWait f) (hq : noQueue .rowWait f)
    (least : minOf? ((s.enabledFor f).map (fun i => low32 (srcA .rowWait f (s.group s.cur.gid) i 0))) = some n)
    (few : s.rowsLive (s.group s.cur.gid).team ≤ n) :
    LaneEffect s (laneExec .rowWait f s (rowWaitBody f)) f (fun _ => []) (fun _ => 0) := by
  have long : (f.la == 0 || !f.isLong .rowWait) = true := by simp [not_isLong hq rfl (by decide)]
  refine laneExec_effect_of_mid (vals := fun _ => []) h hq long fun t _ _ mid i _ => ?_
  rw [rowWaitBody_eq ⟨mid.only.rest⟩ least, if_pos few]

/-- The state of a group that waits for its team's row commands, as often as its lanes say so. -/
theorem State.rowWait_fold (l : List Nat) (hl : l ≠ []) {g : Group} (hg : s.group? s.cur.gid = some g) :
    (l.foldl (fun t _ => t.modGroup s.cur.gid (fun g => { g with wait := .rows n })) s).group? s.cur.gid =
      some { g with wait := .rows n } := by
  obtain ⟨last, rest, rfl⟩ : ∃ x r, l = r ++ [x] := ⟨_, _, (List.dropLast_concat_getLast hl).symm⟩
  have own : ∀ (l : List Nat) (u : State) (g : Group), u.group? s.cur.gid = some g →
      (l.foldl (fun t _ => t.modGroup s.cur.gid (fun g => { g with wait := .rows n })) u).group? s.cur.gid = some g ∨
      (l.foldl (fun t _ => t.modGroup s.cur.gid (fun g => { g with wait := .rows n })) u).group? s.cur.gid =
        some { g with wait := .rows n } := by
    intro l
    induction l with
    | nil => exact fun u g hu => .inl hu
    | cons x l ih =>
      intro u g hu
      refine .inr ((ih _ { g with wait := .rows n } ?_).elim id id)
      rw [State.group?_modGroup _ _ (fun g => { g with wait := .rows n }) fun _ => rfl, hu]
      rfl
  rw [List.foldl_append, List.foldl_cons, List.foldl_nil, State.group?_modGroup _ _ (fun g => { g with wait := .rows n }) fun _ => rfl]
  rcases own rest s g hg with kept | kept <;> rw [kept] <;> rfl

theorem execRowWait_many (h : Ready s .rowWait f) (hq : noQueue .rowWait f)
    (least : minOf? ((s.enabledFor f).map (fun i => low32 (srcA .rowWait f (s.group s.cur.gid) i 0))) = some n)
    (many : n < s.rowsLive (s.group s.cur.gid).team) :
    ((laneExec .rowWait f s (rowWaitBody f)).group s.cur.gid).wait = .rows n ∧
      ∀ i, inMask s.cur.lanes i = true → (((laneExec .rowWait f s (rowWaitBody f)).group s.cur.gid).lane i).pc = s.pastPc i := by
  obtain ⟨g, hg⟩ := Option.isSome_iff_exists.1 h.here
  have alive := h.alive
  have own := State.group_of_group? hg
  rw [own] at alive
  have some_ : s.enabledFor f ≠ [] := by
    intro none
    rw [none] at least
    cases least
  have run : laneExec .rowWait f s (rowWaitBody f) =
      ((s.enabledFor f).foldl (fun t _ => t.modGroup s.cur.gid (fun g => { g with wait := .rows n })) s).goOn
        (lanesOf s.cur.lanes) := by
    refine laneExec_of_done h hq rfl (fun t i same _ => ?_) fun t i _ => .of_modGroup t i _ (fun _ => rfl) (fun _ => rfl) fun _ _ _ => rfl
    rw [rowWaitBody_eq same least, if_neg (Nat.not_le.2 many)]
  have cur : ((s.enabledFor f).foldl (fun t _ => t.modGroup s.cur.gid (fun g => { g with wait := .rows n })) s).cur = s.cur :=
    List.foldlRecOn (motive := fun t : State => t.cur = s.cur) _ _ rfl fun _ k _ _ => k
  have after : (laneExec .rowWait f s (rowWaitBody f)).group s.cur.gid =
      ({ g with wait := .rows n } : Group).advanceAll (lanesOf s.cur.lanes) s.cur.size := by
    rw [run]
    exact State.group_of_group? (State.goOn_group? cur (State.rowWait_fold _ some_ hg) _)
  obtain ⟨frame, lane⟩ := Group.advanceAll_lanes (lanesOf s.cur.lanes) s.cur.size (lanesOf_nodup _)
    { g with wait := .rows n } fun i hi => ⟨(alive i (inMask_lanesOf.1 hi).2).2, Group.lane_lt (alive i (inMask_lanesOf.1 hi).2).1⟩
  rw [after]
  refine ⟨(congrArg Group.wait frame :), fun i on => ?_⟩
  rw [lane i, if_pos (inMask_lanesOf.2 ⟨lt_of_inMask on, on⟩), State.pastPc, own]
  rfl

end RowWait

/-- Settles O38: each command instruction is `rowExec` with its code; `ROW.WAIT` compares the least source with the commands
left. -/
theorem rowInstructionsSubmitCommands : Obligations.RowInstructionsSubmitCommands := by
  intro s f g
  refine ⟨?_, fun n h hq least => ⟨fun few => ?_, fun many => ?_⟩⟩
  · intro i bs s1 h1 htx la hk issues
    have issued : ∀ (op : Op) (cmd : Nat), dest op f = destCells g1 f.xd f.dst.toNat → ¬ (op = .atom ∨ op = .atomCas) →
        issues op cmd (.next (rowExec op cmd f s)) := by
      intro op cmd one noAtom h hq hload
      exact ⟨_, rfl, rowExec_one cmd one noAtom h1 htx la hk h hq hload⟩
    exact ⟨issued .rowCopy 0 rfl (by decide), issued .rowFill 1 rfl (by decide), issued .rowAnd 2 rfl (by decide),
      issued .rowOr 3 rfl (by decide), issued .rowXor 4 rfl (by decide), issued .rowNot 5 rfl (by decide),
      issued .rowMaj 6 rfl (by decide), issued .rowAllb 7 rfl (by decide), issued .rowBcst 8 rfl (by decide),
      issued .rowMac 9 rfl (by decide), issued .rowSadd 10 rfl (by decide), issued .rowRdacc 11 rfl (by decide),
      issued .rowProg 12 rfl (by decide)⟩
  · exact ⟨_, execRowWait_eq f s, execRowWait_few h hq least few⟩
  · exact ⟨_, execRowWait_eq f s, execRowWait_many h hq least many⟩

end Sys2Proof.Machine

namespace Sys2Proof.Machine

open Sys2Proof

/-! ### Events of memory (O44)

A home performs nothing on a line whose set is under test (21 R388): `State.releaseHold` asks `State.homeHeld`. The clause of
`holdRelease` names no test. -/

/-- A write of no bytes that stands in the queue of a line. -/
def heldWrite : HWrite := { op := .store [] }

/-- The line 0 with one write whose time has come. -/
def heldHome : Home := { line := 0, pt := some 0, queue := [heldWrite] }

/-- A machine that tests the set of line 0 (21 R388) while a write to it has come due. -/
def testedHome : State :=
  { State.reset with
    ticks := 1
    homes := [heldHome]
    tests := [{ num := 1, kind := 7, loc := 0 }] }

/-- How many writes stand in the queues of the homes after a result. -/
def Result.queued : Result → List Nat
  | .next t => t.homes.map (fun h => h.queue.length)
  | _ => []

/-- The write stays in its queue while the test lasts. -/
theorem testedHome_holdRelease : Result.queued (exec .holdRelease testedHome) = [1] := by decide

/-- Refutes O44: the statement's `holdRelease` performs the write to a line under test, the model's leaves it queued. -/
theorem not_memoryEvents : ¬ Obligations.MemoryEvents := by
  unfold Obligations.MemoryEvents
  intro h
  obtain ⟨-, -, -, -, release, -⟩ := h testedHome heldHome { tenant := 0, va := 0, pa := 0 }
  have same := testedHome_holdRelease
  rw [release 0 heldWrite rfl rfl (Nat.le_refl 0) rfl rfl rfl (Nat.le_refl 0) (by decide)] at same
  exact absurd same (by decide)

end Sys2Proof.Machine

namespace Sys2Proof.Machine

open Sys2Proof

/-! ### Barrier objects and copies (O37) -/

/-- `t` is `s` but for its groups and its teams. -/
structure OnlyPlaced (s t : State) : Prop where
  same : { t with groups := s.groups, teams := s.teams } = s

theorem OnlyPlaced.refl (s : State) : OnlyPlaced s s := ⟨rfl⟩

theorem OnlyPlaced.trans {s t u : State} (h : OnlyPlaced s t) (k : OnlyPlaced t u) : OnlyPlaced s u :=
  ⟨(congrArg (fun x : State => { x with groups := s.groups, teams := s.teams }) k.same).trans h.same⟩

theorem OnlyPlaced.foldl {α : Type} {F : State → α → State} (hF : ∀ s a, OnlyPlaced s (F s a)) (l : List α) (s : State) :
    OnlyPlaced s (l.foldl F s) := by
  induction l generalizing s with
  | nil => exact .refl s
  | cons a l ih => exact (hF s a).trans (ih _)

theorem OnlyPlaced.cur {s t : State} (h : OnlyPlaced s t) : t.cur = s.cur := (congrArg State.cur h.same :)
theorem OnlyPlaced.ev {s t : State} (h : OnlyPlaced s t) : t.ev = s.ev := (congrArg State.ev h.same :)

theorem OnlyPlaced.wakeQueue (s : State) (team q : Nat) (push : Bool) : OnlyPlaced s (s.wakeQueue team q push) := by
  unfold State.wakeQueue
  exact .foldl (by intro _ _; exact ⟨rfl⟩) _ s

theorem OnlyPlaced.popQueue (s : State) (team q gid lane : Nat) : OnlyPlaced s (s.popQueue team q gid lane).2 := by
  unfold State.popQueue
  dsimp only
  split
  · split <;> exact ⟨rfl⟩
  · split <;> exact ⟨rfl⟩
  · split
    · refine OnlyPlaced.trans (t := s.modTeam team _) ⟨rfl⟩ (OnlyPlaced.wakeQueue _ team q false)
    · exact ⟨rfl⟩

theorem OnlyPlaced.popAll (s : State) (team q gid : Nat) (en : List Nat) : OnlyPlaced s (s.popAll team q gid en).2 := by
  refine List.foldlRecOn (motive := fun a : List (Nat × W64) × State => OnlyPlaced s a.2) _ _ (.refl s) fun a ha i _ => ?_
  have popped := OnlyPlaced.popQueue a.2 team q gid i
  split <;> rename_i eq <;> rw [eq] at popped <;> exact ha.trans popped

theorem OnlyPlaced.retestObjects (s : State) (die : Nat) : OnlyPlaced s (s.retestObjects die) := by
  unfold State.retestObjects
  refine .foldl (fun u g => ?_) _ s
  split
  · split
    · rename_i pops _ _
      have popped : OnlyPlaced u (u.popWaited g.id pops) := by
        cases pops with
        | none => exact .refl u
        | some p => exact .popAll _ _ _ _ _
      exact popped.trans ⟨rfl⟩
    · exact .refl u
  · exact .refl u

@[simp] theorem State.setVault_cur (s : State) (die : Nat) (cells : List (Nat × Byte)) : (s.setVault die cells).cur = s.cur :=
  (OnlyPlaced.retestObjects _ die).cur

theorem State.objOp_cur {s t : State} {die a v : Nat} {k : ObjKind} (h : s.objOp die a k v = some t) : t.cur = s.cur := by
  obtain ⟨bs, -, rfl⟩ := Option.map_eq_some_iff.1 h
  exact State.setVault_cur _ _ _

section

variable {s t : State} {op : Op} {f : Full} {body : State → Group → List Nat → List (Nat × W64) → GroupStep}

/-- A group that waits has no lane that could have issued. -/
theorem Cur.lanesStay_of_wait (c : Cur) (h : (t.group t.cur.gid).wait ≠ .none) : c.lanesStay t = t := by
  have stayed : ∀ i, t.stayed i = t := fun i => if_pos (bne_iff_ne.2 h)
  unfold Cur.lanesStay
  exact List.foldlRecOn (motive := fun u => u = t) _ _ rfl fun u hu i _ => by rw [hu, stayed]

/-- An issue without queue operands whose body leaves its group waiting: no lane moves. -/
theorem groupExec_of_wait (h : Ready s op f) (hq : noQueue op f) (hen : s.enabledFor f ≠ [])
    (hb : body s (s.group s.cur.gid) (s.enabledFor f) ((s.enabledFor f).map (fun i => (i, 0))) = .stay t)
    (wait : (t.group t.cur.gid).wait ≠ .none) : groupExec op f s body = t := by
  have hpop : popQueueOf op f = none := hq.1
  have hbad : s.badPops op f = [] := by simp [State.badPops, hpop]
  simp only [groupExec, List.isEmpty_iff, hen, h.safe, s.queueTraps_of_noQueue hq, hbad, hpop, hb, List.length_map,
    Nat.lt_irrefl, List.isEmpty_nil, Bool.not_true, Bool.false_eq_true, if_false, Cur.lanesStay_of_wait _ wait]

end

/-- The conditions under which a barrier object at an address can be reached at once. -/
structure ObjectAt (s : State) (g : Group) (a : Nat) (write : Bool) : Prop where
  aligned : a % 64 = 0
  range : vaultRange g.vwin a 64 write = true
  vheld : s.vheld = []
  arrivals : s.arrivals = []
  free : write = true → s.pinned (dieOfCore g.core) (a / 128) none = false
  active : ∃ x, s.retention (arrayOf (dieOfCore g.core) a) = .active x

section Objects

variable {s t : State} {op : Op} {f : Full} {a : Nat} {write : Bool}

theorem ObjectAt.no_trap {g : Group} (h : ObjectAt s g a write) : objTrap g a write = none := by
  simp only [objTrap, h.aligned, h.range, bne_self_eq_false, Bool.not_true, Bool.false_eq_true, if_false]

theorem ObjectAt.readArray {g : Group} (h : ObjectAt s g a write) (who : Reader) :
    s.readArray (arrayOf (dieOfCore g.core) a) who = (true, s.setRetention (arrayOf (dieOfCore g.core) a) (.active s.time)) := by
  obtain ⟨x, active⟩ := h.active
  exact State.readArray_of_active who active h.vheld h.arrivals

/-- An operation on an object that can be reached and whose group has no write left. -/
theorem objExec_of_some {body : State → Group → Nat → Nat → Option State} (h : Ready s op f) (hq : noQueue op f)
    (hen : s.enabledFor f ≠ []) (ha : (srcA op f (s.group s.cur.gid) ((s.enabledFor f).headD 0) 0).toNat = a)
    (object : ObjectAt s (s.group s.cur.gid) a true) (drained : s.drained (s.group s.cur.gid).id = true)
    (done : body (s.setRetention (arrayOf (dieOfCore (s.group s.cur.gid).core) a) (.active s.time)) (s.group s.cur.gid) a
      (srcB op f (s.group s.cur.gid) ((s.enabledFor f).headD 0)).toNat = some t) (cur : t.cur = s.cur) :
    objExec op f s body = t.goOn (s.enabledFor f ++ s.disabledFor f) := by
  have kept : s.lineKept (dieOfCore (s.group s.cur.gid).core) (a / 128) = false := by
    simp only [State.lineKept, object.free rfl, object.vheld, List.any_nil, Bool.or_self]
  refine groupExec_of_go h hq hen ?_ cur
  simp only [poppedBy_zero, ha, object.no_trap, drained, kept, object.readArray, done, Bool.not_true, Bool.or_self,
    Bool.false_eq_true, if_false]

/-- The group that a state changes waits as it says. -/
theorem State.wait_modGroup {gid : Nat} (here : (s.group? gid).isSome = true) (w : GroupWait) :
    ((s.modGroup gid (fun g => { g with wait := w })).group gid).wait = w := by
  obtain ⟨g, hg⟩ := Option.isSome_iff_exists.1 here
  have after := State.group?_modGroup s gid (fun g => { g with wait := w }) (fun _ => rfl)
  rw [hg] at after
  rw [State.group_of_group? after]

theorem execBobjWait_past (h : Ready s .bobjWait f) (hq : noQueue .bobjWait f) (hen : s.enabledFor f ≠ [])
    (ha : (srcA .bobjWait f (s.group s.cur.gid) ((s.enabledFor f).headD 0) 0).toNat = a)
    (object : ObjectAt s (s.group s.cur.gid) a false)
    (differs : s.phaseBit (dieOfCore (s.group s.cur.gid).core) a ≠ (f.fam % 2 == 1)) :
    execBobjWait f s = .next ((s.setRetention (arrayOf (dieOfCore (s.group s.cur.gid).core) a) (.active s.time)).goOn
      (s.enabledFor f ++ s.disabledFor f)) := by
  refine congrArg Host.Outcome.next (groupExec_of_go
    (t := s.setRetention (arrayOf (dieOfCore (s.group s.cur.gid).core) a) (.active s.time)) h hq hen ?_ rfl)
  simp only [poppedBy_zero, ha, object.no_trap, object.readArray]
  exact if_pos (bne_iff_ne.2 differs)

theorem execBobjWait_waits (h : Ready s .bobjWait f) (hq : noQueue .bobjWait f) (hen : s.enabledFor f ≠ [])
    (ha : (srcA .bobjWait f (s.group s.cur.gid) ((s.enabledFor f).headD 0) 0).toNat = a)
    (object : ObjectAt s (s.group s.cur.gid) a false)
    (same : s.phaseBit (dieOfCore (s.group s.cur.gid).core) a = (f.fam % 2 == 1)) :
    execBobjWait f s = .next ((s.setRetention (arrayOf (dieOfCore (s.group s.cur.gid).core) a) (.active s.time)).modGroup
      (s.group s.cur.gid).id (fun g => { g with wait := .object a (f.fam % 2 == 1) s.cur.lanes none })) := by
  have phase : ¬ (s.phaseBit (dieOfCore (s.group s.cur.gid).core) a != (f.fam % 2 == 1)) = true := by
    rw [same, bne_self_eq_false]
    exact Bool.false_ne_true
  refine congrArg Host.Outcome.next (groupExec_of_wait h hq hen ?_ ?_)
  · simp only [poppedBy_zero, ha, object.no_trap, object.readArray, hq.1, Option.map_none]
    exact if_neg phase
  · rw [State.group_id]
    exact fun same => nomatch (State.wait_modGroup h.here _).symm.trans same

end Objects

/-! ### Copies (13 R254, R260) -/

theorem Group.lane_modLanes (F : Lane → Lane) (ls : List Nat) (hn : ls.Nodup) (g : Group) (j : Nat) :
    (g.modLanes ls F).lane j = if j ∈ ls ∧ j < g.lanes.length then F (g.lane j) else g.lane j := by
  induction ls generalizing g with
  | nil => simp [Group.modLanes]
  | cons i ls ih =>
    obtain ⟨notIn, nodup⟩ := List.nodup_cons.1 hn
    refine (ih nodup (g.modLane i F)).trans ?_
    rw [Group.lane_modLane, Group.modLane_length]
    by_cases ji : j = i
    · subst ji
      simp [notIn]
    · simp [ji]

/-- The lanes `ls` of a group are owed the result of one number. -/
theorem State.oweDests_group? {op : Op} {f : Full} {n gid : Nat} (ls : List Nat) (s : State) (g : Group)
    (hg : s.group? gid = some g) :
    (ls.foldl (fun s i => s.oweDest gid i op f n) s).group? gid = some (g.modLanes ls (s.oweLane op f n)) := by
  induction ls generalizing s g with
  | nil => exact hg
  | cons i ls ih => exact ih (s.oweDest gid i op f n) (g.modLane i (s.oweLane op f n)) (State.oweDest_group? gid i op f n hg)

theorem State.oweDests_rest {op : Op} {f : Full} {n gid : Nat} (ls : List Nat) (s : State) :
    OnlyGroups s (ls.foldl (fun s i => s.oweDest gid i op f n) s) :=
  List.foldlRecOn (motive := fun u => OnlyGroups s u) _ _ (.refl s) fun _ hu _ _ => hu.trans ⟨rfl⟩

section Copies

variable {s : State} {op : Op} {f : Full} {two : Bool}

/-- The slice that a group supplies to its team's copy. -/
def State.copySlice (s : State) (op : Op) (two : Bool) (f : Full) : Slice :=
  let g := s.group s.cur.gid
  let en := s.enabledFor f
  let l := (s.launch? (s.team g.team).die (s.team g.team).launch).getD { die := (s.team g.team).die, num := (s.team g.team).launch }
  { gid := g.id, num := g.num, two := two, desc := (srcA op f g (en.headD 0) 0).toNat, word := srcB op f g (en.headD 0),
    lanes := maskOf en.contains, here := s.cur.lanes, serial := s.serial, origin := (l.origin s.cur.pc.toNat).1 }

/-- The state in which a group has supplied its slice and waits for the copy. -/
def State.copySupplied (s : State) (op : Op) (two : Bool) (f : Full) : State :=
  let g := s.group s.cur.gid
  let owed := (s.enabledFor f).foldl (fun u i => u.oweDest s.cur.gid i op f s.serial) { s with serial := s.serial + 1 }
  (owed.modTeam g.team (fun t => { t with slices := t.slices ++ [s.copySlice op two f] })).modGroup s.cur.gid
    (fun g => { g with wait := .copy })

theorem copyExec_of_ok (h : Ready s op f) (hq : noQueue op f) (hen : s.enabledFor f ≠ [])
    (clean : s.writeBackGroup (s.group s.cur.gid).id = s)
    (aligned : (srcA op f (s.group s.cur.gid) ((s.enabledFor f).headD 0) 0).toNat % 64 = 0)
    (inside : (srcA op f (s.group s.cur.gid) ((s.enabledFor f).headD 0) 0).toNat + 64 ≤ (s.team (s.group s.cur.gid).team).lsBytes)
    (word : two = true ∨ srcB op f (s.group s.cur.gid) ((s.enabledFor f).headD 0) &&& 0x0000000300000003#64 = 0) :
    copyExec op two f s = s.copySupplied op two f := by
  have allowed : (!two && srcB op f (s.group s.cur.gid) ((s.enabledFor f).headD 0) &&& 0x0000000300000003#64 != 0) = false := by
    rcases word with two | zero
    · rw [two]
      rfl
    · rw [zero]
      exact Bool.and_false _
  refine groupExec_of_wait h hq hen ?_ ?_
  · simp only [poppedBy_zero, aligned, Nat.not_lt.2 inside, allowed, clean, hq.1, bne_self_eq_false, Bool.false_eq_true, if_false]
    simp only [State.copySupplied, State.copySlice, State.group_id]
    rfl
  · obtain ⟨g, hg⟩ := Option.isSome_iff_exists.1 h.here
    obtain ⟨u, hu⟩ : ∃ u, u = ((s.enabledFor f).foldl (fun (u : State) i => u.oweDest s.cur.gid i op f s.serial)
        { s with serial := s.serial + 1 }).modTeam (s.group s.cur.gid).team
          (fun t => { t with slices := t.slices ++ [s.copySlice op two f] }) := ⟨_, rfl⟩
    have cur : (s.copySupplied op two f).cur = s.cur :=
      ((State.oweDests_rest (s.enabledFor f) { s with serial := s.serial + 1 }).cur :)
    have here : u.group? s.cur.gid = some (g.modLanes (s.enabledFor f) (State.oweLane { s with serial := s.serial + 1 } op f s.serial)) := by
      rw [hu]
      exact State.oweDests_group? _ { s with serial := s.serial + 1 } g hg
    have waits : s.copySupplied op two f = u.modGroup s.cur.gid (fun g => { g with wait := .copy }) := by rw [hu]; rfl
    rw [cur, waits]
    exact fun same => nomatch (State.wait_modGroup (by rw [here]; rfl) _).symm.trans same

/-- What a group that supplies its slice is left with. -/
theorem State.copySupplied_group (h : Ready s op f) (one : dest op f = destCells g1 f.xd f.dst.toNat)
    (noAtom : ¬ (op = .atom ∨ op = .atomCas)) :
    ((s.copySupplied op two f).group s.cur.gid).wait = .copy ∧ ∀ i, i < 32 →
      (((s.copySupplied op two f).group s.cur.gid).lane i).pc = ((s.group s.cur.gid).lane i).pc ∧
      (i ∈ s.enabledFor f → i < (s.group s.cur.gid).lanes.length →
        (((s.copySupplied op two f).group s.cur.gid).lane i).pend =
          [{ serial := s.serial, window := f.la.toNat + 1, cells := (dest op f).map (fun c => (c, none)), tick := s.ticks,
             pc := s.cur.pc }]) := by
  obtain ⟨g, hg⟩ := Option.isSome_iff_exists.1 h.here
  have alive := h.alive
  have own := State.group_of_group? hg
  rw [own] at alive ⊢
  obtain ⟨after, hafter⟩ : ∃ a, a = g.modLanes (s.enabledFor f) (State.oweLane { s with serial := s.serial + 1 } op f s.serial) := ⟨_, rfl⟩
  have group : (s.copySupplied op two f).group s.cur.gid = { after with wait := .copy } := by
    refine State.group_of_group? ?_
    refine (State.group?_modGroup _ s.cur.gid (fun g => { g with wait := .copy }) fun _ => rfl).trans ?_
    refine (congrArg (Option.map _) (State.oweDests_group? (s.enabledFor f) { s with serial := s.serial + 1 } g hg)).trans ?_
    rw [hafter]
    rfl
  have lane : ∀ j, ({ after with wait := .copy } : Group).lane j =
      if j ∈ s.enabledFor f ∧ j < g.lanes.length then State.oweLane { s with serial := s.serial + 1 } op f s.serial (g.lane j)
      else g.lane j := fun j => by
    refine (rfl : _ = after.lane j).trans ?_
    rw [hafter]
    exact Group.lane_modLanes _ _ (enabledFor_nodup s f) g j
  rw [group]
  refine ⟨rfl, fun i _ => ⟨?_, fun mem bound => ?_⟩⟩
  · rw [lane i]
    split
    · rfl
    · rfl
  · have none : (g.lane i).pend = [] := (alive i (mem_enabledFor mem).2).2
    rw [lane i, if_pos ⟨mem, bound⟩, State.oweLane, Lane.dropCells_nil _ _ none, none,
      State.owedPend_one one noAtom]
    rfl

theorem State.copySupplied_slices {t : Team} (ht : s.team? (s.group s.cur.gid).team = some t) :
    ((s.copySupplied op two f).team (s.group s.cur.gid).team).slices =
      (s.team (s.group s.cur.gid).team).slices ++ [s.copySlice op two f] := by
  obtain ⟨u, hu⟩ : ∃ u, u = (s.enabledFor f).foldl (fun (u : State) i => u.oweDest s.cur.gid i op f s.serial)
    { s with serial := s.serial + 1 } := ⟨_, rfl⟩
  have rest : OnlyGroups { s with serial := s.serial + 1 } u := by
    rw [hu]
    exact State.oweDests_rest _ _
  have teams : u.teams = s.teams := (congrArg State.teams rest.same :)
  have here : u.team? (s.group s.cur.gid).team = some t := by
    rw [State.team?, teams]
    exact ht
  have supplied : (s.copySupplied op two f).team (s.group s.cur.gid).team = (u.modTeam (s.group s.cur.gid).team
      (fun t => { t with slices := t.slices ++ [s.copySlice op two f] })).team (s.group s.cur.gid).team := by
    rw [hu]
    rfl
  have own : s.team (s.group s.cur.gid).team = t := by
    rw [State.team, ht]
    rfl
  rw [supplied, State.team_modTeam (fun t => { t with slices := t.slices ++ [s.copySlice op two f] }) (fun _ => rfl) here, own]

theorem tcstat_computes (f : Full) : Computes (exec (.tcstat f)) .tcstat f (fun s _ v _ _ =>
    let mine := s.copies.filter (fun (c : Copy) => c.team == (s.group s.cur.gid).team)
    let old := !mine.any (fun (c : Copy) => c.seq == v.toNat % 2 ^ 16)
    ([w64 (old.toNat * 2 ^ 31 + min 255 mine.length * 2 ^ 16 + (s.team (s.group s.cur.gid).team).copySeq)], 0)) := by
  refine computes_of_body (fun _ s g got i =>
    let n := (srcA .tcstat f g i (poppedBy got i)).toNat % 2 ^ 16
    let mine := s.copies.filter (fun (c : Copy) => c.team == g.team)
    let busy := mine.any (fun (c : Copy) => c.seq == n)
    let v := (!busy).toNat * 2 ^ 31 + min 255 mine.length * 2 ^ 16 + (s.team g.team).copySeq
    finishAlu s .tcstat f g [w64 v] 0) (fun _ => rfl) fun s h hq t only i _ => ?_
  have copies : t.copies = s.copies := (congrArg State.copies only.rest :)
  have team : t.team = s.team := by
    have teams : t.teams = s.teams := (congrArg State.teams only.rest :)
    funext id
    simp only [State.team, State.team?, teams]
  simp only [poppedBy_zero, finishAlu_of_noQueue hq, copies, team]

end Copies

/-- Settles O37: with their checks met, the operations on an object go on or wait, and a copy instruction supplies its slice. -/
theorem copiesAndBarrierObjects : Obligations.CopiesAndBarrierObjects := by
  intro s f hen en go g die a b object s1
  have at_ : ∀ {op : Op} {write : Bool}, object op write → Ready s op f ∧ noQueue op f ∧ ObjectAt s g (a op) write :=
    fun ⟨h, hq, aligned, range, vheld, arrivals, free, active⟩ => ⟨h, hq, aligned, range, vheld, arrivals, free, active⟩
  refine ⟨fun n obj drained hn low high => ?_, fun u obj drained done => ?_, fun obj same => ?_, fun obj differs => ?_, ?_, ?_⟩
  · obtain ⟨h, hq, here⟩ := at_ obj
    refine congrArg Host.Outcome.next (objExec_of_some h hq hen rfl here drained ?_ (State.setVault_cur _ _ _))
    have fits : ((b .bobjInit).toNat % 2 ^ 32 == 0 || decide (65535 < (b .bobjInit).toNat % 2 ^ 32)) = false := by
      rw [← hn, beq_eq_false_iff_ne.2 (by omega), decide_eq_false (by omega)]
      rfl
    rw [hn]
    exact if_neg (Bool.eq_false_iff.1 fits)
  · obtain ⟨h, hq, here⟩ := at_ obj
    exact congrArg Host.Outcome.next (objExec_of_some h hq hen rfl here drained done (State.objOp_cur (s := s1 .bobjExpect) done))
  · obtain ⟨h, hq, here⟩ := at_ obj
    exact execBobjWait_waits h hq hen rfl here same
  · obtain ⟨h, hq, here⟩ := at_ obj
    exact execBobjWait_past h hq hen rfl here differs
  · intro op two r which h hq clean hteam aligned inside word l slice owed
    obtain ⟨t, ht⟩ := Option.isSome_iff_exists.1 hteam
    have supplied : ∀ r, r = .next (s.copySupplied op two f) → dest op f = destCells g1 f.xd f.dst.toNat →
        ¬ (op = .atom ∨ op = .atomCas) → Completes r (fun t => (t.team g.team).slices = (s.team g.team).slices ++ [slice] ∧
          (t.group s.cur.gid).wait = .copy ∧ ∀ i, i < 32 → ((t.group s.cur.gid).lane i).pc = (g.lane i).pc ∧
            (i ∈ en → i < g.lanes.length → ((t.group s.cur.gid).lane i).pend = [owed])) := by
      rintro r rfl one noAtom
      exact ⟨_, rfl, State.copySupplied_slices ht, State.copySupplied_group h one noAtom⟩
    have run : copyExec op two f s = s.copySupplied op two f := copyExec_of_ok h hq hen clean aligned inside word
    obtain ⟨rfl, rfl, rfl⟩ | ⟨rfl, rfl, rfl⟩ := which
    · exact supplied _ (congrArg Host.Outcome.next run) rfl (by decide)
    · exact supplied _ (congrArg Host.Outcome.next run) rfl (by decide)
  · exact tcstat_computes f

end Sys2Proof.Machine

namespace Sys2Proof.Machine

open Sys2Proof

/-! ### Texture instructions and splats (O36) -/

section Textures

variable {s s1 s2 : State} {f : Full} {i n : Nat} {d : TexDesc} {l : List (Nat × Nat)} {op : Op} {o : TexOp}
  {lams : Group → Nat → List W32}

/-- The results of a texture instruction on a lane, from the descriptor and the texels that it has read. -/
def texResults (op : Op) (o : TexOp) (f : Full) (s : State) (d : TexDesc) (l : List (Nat × Nat)) (i : Nat) (lams : List W32) :
    List Nat × FlagSet :=
  let x := srcA op f (s.group s.cur.gid) i 0
  (texPlan o d (s.envFor f) (x.setWidth 32) (x.extractLsb' 32 32) (lams.take (s.group s.cur.gid).width)).results o d (s.envFor f)
    (fun a => ((l.find? (fun x => x.1 == a)).map (·.2)).getD 0)

/-- The values that a texture instruction writes: the eight elements of a spectral register, or one word. -/
def TexOp.values (o : TexOp) (vs : List Nat) : List W64 :=
  match o with
  | .w | .ups => (List.range 8).map (fun e => (vs.map w64).getD e 0)
  | _ => vs.map w64

/-- What a texture instruction reads of memory on its lane: its descriptor and its texels. -/
structure TexReads (s s1 s2 : State) (op : Op) (o : TexOp) (f : Full) (i n : Nat) (d : TexDesc) (l : List (Nat × Nat))
    (lams : List W32) : Prop where
  descriptor : s.descriptor (s.group s.cur.gid) i n o.allows = .ok d s1
  texels : s1.loadTexels (s.group s.cur.gid) i d.size (texPlan o d (s.envFor f) ((srcA op f (s.group s.cur.gid) i 0).setWidth 32)
    ((srcA op f (s.group s.cur.gid) i 0).extractLsb' 32 32) (lams.take (s.group s.cur.gid).width)).addrs = .bits l s2

/-- What a texture instruction does on a lane. -/
def texBody (op : Op) (o : TexOp) (f : Full) (env : FpEnv) (n : Nat) (lams : Group → Nat → List W32) (s : State) (g : Group)
    (got : List (Nat × W64)) (i : Nat) : LaneStep :=
  match s.descriptor g i n o.allows with
  | .trap t s => .trapIn t s
  | .wait s => .stay s
  | .ok d s =>
    let x := srcA op f g i (poppedBy got i)
    let p := texPlan o d env (x.setWidth 32) (x.extractLsb' 32 32) ((lams g i).take g.width)
    match s.loadTexels g i d.size p.addrs with
    | .trap t s => .trapIn t s
    | .wait s => .stay s
    | .bits l s =>
      let (vs, fl) := p.results o d env (fun a => ((l.find? (fun x => x.1 == a)).map (·.2)).getD 0)
      match o with
      | .w | .ups => .res s (o.values vs) fl
      | _ => finishAlu s op f g (o.values vs) fl

theorem texExec_eq : texExec op o f s n lams = laneExec op f s (texBody op o f (s.envFor f) n lams) := by
  unfold texExec
  refine congrArg (laneExec op f s) ?_
  funext t g got i
  cases o <;> rfl

theorem texBody_of_reads (hq : noQueue op f) (reads : TexReads s s1 s2 op o f i n d l (lams (s.group s.cur.gid) i)) :
    texBody op o f (s.envFor f) n lams s (s.group s.cur.gid) (s.noneGot f) i =
      .res s2 (o.values (texResults op o f s d l i (lams (s.group s.cur.gid) i)).1)
        (texResults op o f s d l i (lams (s.group s.cur.gid) i)).2 := by
  have plan : (texPlan o d (s.envFor f) ((srcA op f (s.group s.cur.gid) i 0).setWidth 32)
      ((srcA op f (s.group s.cur.gid) i 0).extractLsb' 32 32) ((lams (s.group s.cur.gid) i).take (s.group s.cur.gid).width)).results o d
        (s.envFor f) (fun a => ((l.find? (fun x => x.1 == a)).map (·.2)).getD 0) =
      texResults op o f s d l i (lams (s.group s.cur.gid) i) := rfl
  unfold texBody
  simp only [s.poppedBy_noneGot f i, reads.descriptor, reads.texels, plan, finishAlu_of_noQueue hq]
  cases o <;> rfl

theorem texExec_one (h : Ready s op f) (hq : noQueue op f) (h1 : OneLane s f i) (htx : (s.group s.cur.gid).tx = none)
    (la : f.la = 0) (hk : AccessKeeps s s2) (reads : TexReads s s1 s2 op o f i n d l (lams (s.group s.cur.gid) i)) :
    LaneEffect s2 (texExec op o f s n lams) f
      (fun _ => destVals (dest op f) (o.values (texResults op o f s d l i (lams (s.group s.cur.gid) i)).1))
      (fun _ => (texResults op o f s d l i (lams (s.group s.cur.gid) i)).2) := by
  rw [texExec_eq]
  exact laneExec_one_res h hq h1 htx (.inr la) hk (texBody_of_reads hq reads)

theorem execTqry_one (h : Ready s .tqry f) (hq : noQueue .tqry f) (h1 : OneLane s f i) (htx : (s.group s.cur.gid).tx = none)
    (la : f.la = 0) (hk : AccessKeeps s s2)
    (descriptor : s.descriptor (s.group s.cur.gid) i f.sb.toNat (fun _ => true) = .ok d s2) :
    Completes (exec (.tqry f) s) (fun t => LaneEffect s2 t f (fun _ => destVals (dest .tqry f) [w64 (match f.fam with
      | 0 => d.flags
      | 1 => d.w
      | 2 => d.h
      | 3 => d.s
      | 4 => d.lam0
      | _ => d.invd)]) (fun _ => 0)) := by
  refine ⟨_, rfl, laneExec_one_res h hq h1 htx (.inr la) hk ?_⟩
  simp only [descriptor]
  exact finishAlu_of_noQueue hq _ _ _ _

end Textures

section Splats

variable {s : State} {f : Full} {i : Nat}

/-- The splat of a lane of `FSPLAT.W` (20 R358). -/
def splatOf (f : Full) (g : Group) (i : Nat) : Splat :=
  { die := dieOfCore g.core, gid := some g.id, camera := (g.readG i f.sb.toNat).toNat,
    x := (g.readG i f.sc.toNat).toNat % 65536, y := (g.readG i f.sc.toNat).toNat / 65536,
    elems := (List.range g.width).map (fun e => (g.readW i f.sa.toNat e, g.readW i (f.sa.toNat + 1) e)) }

theorem execFsplatW_sends (h : Ready s .fsplatW f) (hq : noQueue .fsplatW f) (h1 : OneLane s f i)
    (htx : (s.group s.cur.gid).tx = none) (la : f.la = 0) (small : ((s.group s.cur.gid).readG i f.sb.toNat).toNat < 256)
    (ok : s.cameraOk ((s.group s.cur.gid).readG i f.sb.toNat).toNat (s.group s.cur.gid).tenant (dieOfCore (s.group s.cur.gid).core) = true)
    (first : s.splatQueued (s.group s.cur.gid).team s.cur.gid i = false) :
    Completes (exec (.fsplatW f) s) (fun t =>
      LaneEffect { s with splats := s.splats ++ [splatOf f (s.group s.cur.gid) i] } t f (fun _ => []) (fun _ => 0)) := by
  have keeps : AccessKeeps s { s with splats := s.splats ++ [splatOf f (s.group s.cur.gid) i] } := by
    obtain ⟨cur, w, here⟩ := AccessKeeps.refl h.here
    exact ⟨cur, w, here⟩
  refine ⟨_, rfl, laneExec_one_res (vals := []) h hq h1 htx (.inr la) keeps ?_⟩
  simp only [Nat.div_eq_of_lt small, ok, State.group_id, first, bne_self_eq_false, Bool.not_true, Bool.false_eq_true, if_false]
  simp only [splatOf, State.group_id]

theorem execFsplatW_illegal (h : Ready s .fsplatW f) (hq : noQueue .fsplatW f) (h1 : OneLane s f i)
    (large : 256 ≤ ((s.group s.cur.gid).readG i f.sb.toNat).toNat) :
    Completes (exec (.fsplatW f) s) (fun t =>
      (t.group s.cur.gid).stopped = true ∧ (t.group s.cur.gid).trapCause = 0x1501 ∧ t.splats = s.splats) := by
  have reported : reportTrap [(i, Trap.illegal 0x15)] = some (.illegal 0x15) := reportTrap_one i _
  have trapped : exec (.fsplatW f) s =
      .next ((s.goOn (s.disabledFor f)).takeTrap s.cur.gid s.cur.pc s.cur.words [(i, .illegal 0x15)]) := by
    refine congrArg Host.Outcome.next (laneExec_one_trap h hq h1 rfl ?_)
    exact if_pos (bne_iff_ne.2 (by omega))
  obtain ⟨g1, here, -, -⟩ := State.goOn_group h (disabledFor_nodup s f) fun j hj => (State.mem_disabledFor hj).1
  refine ⟨_, trapped, ?_⟩
  dsimp only
  rw [State.group_of_group? (State.takeTrap_group? reported here), State.takeTrap_of_report reported]
  exact ⟨rfl, rfl, rfl⟩

end Splats

/-- Settles O36: a texture instruction whose reads succeed writes the results of its plan; a splat to a camera number above 255 is
illegal. -/
theorem textureAndSplatInstructions : Obligations.TextureAndSplatInstructions := by
  refine ⟨?_, ?_⟩
  · intro s s1 s2 f i d l h1 htx la hk g plan reads result writes eight
    refine ⟨?_, ?_, ?_, ?_, fun h hq descriptor => execTqry_one h hq h1 htx la hk descriptor⟩
    · rintro ⟨h, hq, descriptor, texels⟩
      exact ⟨_, rfl, texExec_one (o := .w) h hq h1 htx la hk ⟨descriptor, texels⟩⟩
    · rintro ⟨h, hq, descriptor, texels⟩
      exact ⟨_, rfl, texExec_one (o := .ups) h hq h1 htx la hk ⟨descriptor, texels⟩⟩
    · rintro ⟨h, hq, descriptor, texels⟩
      exact ⟨_, rfl, texExec_one (o := .f) (lams := fun _ _ => []) h hq h1 htx la hk ⟨descriptor, texels⟩⟩
    · rintro ⟨h, hq, descriptor, texels⟩
      exact ⟨_, rfl, texExec_one (o := .fet) (lams := fun _ _ => []) h hq h1 htx la hk ⟨descriptor, texels⟩⟩
  · intro s f i h1 htx h hq la g camera xy splat
    exact ⟨fun small ok first => execFsplatW_sends h hq h1 htx la small ok first, fun large => execFsplatW_illegal h hq h1 large⟩

end Sys2Proof.Machine

namespace Sys2Proof.Machine

open Sys2Proof

/-! ### The event under way (O45)

The four turns of `COPY_TURN` take their cluster from the event, which moving a word keeps. -/

theorem HomeFrame.ev {s t : State} (h : HomeFrame s t) : t.ev = s.ev := (congrArg State.ev h.rest :)

theorem State.report_ev (s : State) (e : ErrorRec) : (s.report e).ev = s.ev := (HomeOnly.report s e).frame.ev

theorem State.raiseError_ev (s : State) (e : ErrorRec) (kind loc : Nat) : (s.raiseError e kind loc).ev = s.ev := by
  unfold State.raiseError
  dsimp only
  split
  · rfl
  · split <;> exact State.report_ev s _

theorem State.vaultPerform_ev (s : State) (h : VHeld) : (s.vaultPerform h).ev = s.ev := by
  have stored : ∀ v n, ((({ s with vault := v } : State).retestObjects h.die).complete h.gid n).ev = s.ev := fun v n =>
    (HomeFrame.complete _ h.gid n).ev.trans (OnlyPlaced.retestObjects { s with vault := v } h.die).ev
  unfold State.vaultPerform
  dsimp only
  split
  · split
    · exact stored _ _
    · exact stored _ _
  · split
    · split
      · exact stored _ _
      · exact stored _ _
    · exact stored _ _

theorem State.wakeArray_ev (s : State) (a : Nat) : (s.wakeArray a).2.ev = s.ev := by
  unfold State.wakeArray
  split <;> rfl

theorem State.vaultWrite_ev (s : State) (h : VHeld) : (s.vaultWrite h).ev = s.ev := by
  have woken := s.wakeArray_ev h.array
  unfold State.vaultWrite State.vaultHolds
  dsimp only
  split
  · rename_i eq
    exact (congrArg (fun x : Bool × State => x.2.ev) eq).symm.trans woken
  · rename_i eq
    exact (State.vaultPerform_ev _ h).trans ((congrArg (fun x : Bool × State => x.2.ev) eq).symm.trans woken)

theorem State.readArray_ev (s : State) (a : Nat) (who : Reader) : (s.readArray a who).2.ev = s.ev := by
  have woken := s.wakeArray_ev a
  unfold State.readArray
  dsimp only
  split
  · exact woken
  · dsimp only
    split
    · exact woken
    · exact woken

/-- The state that reading or writing a word leaves. -/
def WordEnd.state : WordEnd → State
  | .ok _ s => s
  | .fault s => s
  | .refused s => s
  | .ecc s => s
  | .wait s => s

theorem State.engineLoads_ev (s : State) (pa n : Nat) : (s.engineLoads pa n).ev = s.ev := by
  unfold State.engineLoads
  split
  · rfl
  · exact List.foldlRecOn (motive := fun u : State => u.ev = s.ev) _ _ rfl fun _ hu _ _ => hu

theorem State.askBank_ev (s : State) (pa : Nat) : (s.askBank pa).ev = s.ev := by
  unfold State.askBank
  split
  · rfl
  · split
    · rfl
    · split <;> rfl

theorem State.copyRead_ev (s : State) (c : Copy) (a : Nat) : (s.copyRead c a).state.ev = s.ev := by
  have raised : ∀ (u : State) e kind loc, u.ev = s.ev → (u.raiseError e kind loc).ev = s.ev := fun u e kind loc hu =>
    (State.raiseError_ev u e kind loc).trans hu
  unfold State.copyRead
  dsimp only
  split
  · split
    · rfl
    · split
      · rfl
      · split
        · split
          · rfl
          · split
            · rfl
            · exact State.engineLoads_ev s _ _
        · split
          · exact State.askBank_ev s _
          · split
            · exact State.raiseError_ev s _ _ _
            · exact ((HomeOnly.mscTouch _ _ _ _ _).frame.ev).trans (State.askBank_ev s _)
  · split
    · rfl
    · split
      · exact State.raiseError_ev s _ _ _
      · rfl
  · split
    · rfl
    · have woken := s.readArray_ev (arrayOf c.die a) (.copy c.id)
      split
      · rename_i eq
        exact (congrArg (fun x : Bool × State => x.2.ev) eq).symm.trans woken
      · rename_i eq
        have kept := (congrArg (fun x : Bool × State => x.2.ev) eq).symm.trans woken
        split
        · exact raised _ _ _ _ kept
        · exact kept

theorem State.copyWrite_ev (s : State) (c : Copy) (a : Nat) (bs : List Byte) : (s.copyWrite c a bs).state.ev = s.ev := by
  unfold State.copyWrite
  dsimp only
  split
  · split
    · rfl
    · split
      · rfl
      · split
        · rfl
        · split
          · rfl
          · exact (HomeFrame.writeAtHome s _ _ rfl).ev
  · split <;> rfl
  · refine (apply_ite State.ev _ _ _).trans ((ite_self _).trans (State.vaultWrite_ev s _))

theorem State.copyWords_ev (id : Nat) (n : Nat) (s : State) : (s.copyWords id n).ev = s.ev := by
  induction n generalizing s with
  | zero => rfl
  | succ n ih =>
    unfold State.copyWords
    split
    · rfl
    · rename_i c _
      split
      · rfl
      · dsimp only
        have read := s.copyRead_ev c (c.srcAt c.moved)
        split <;> rename_i hr <;> rw [hr] at read
        · exact read
        · exact read
        · exact read
        · exact read
        · rename_i bs u
          have written := u.copyWrite_ev c (c.dstAt c.moved) bs
          split <;> rename_i hw <;> rw [hw] at written
          · exact written.trans read
          · exact written.trans read
          · exact written.trans read
          · exact written.trans read
          · exact (ih _).trans (written.trans read)

theorem State.copyTurn_ev (s : State) (cluster : Nat) : (s.copyTurn cluster).ev = s.ev := by
  have active : (s.activate cluster).ev = s.ev := by
    unfold State.activate
    exact List.foldlRecOn (motive := fun u : State => u.ev = s.ev) _ _ rfl fun _ hu _ _ => hu
  unfold State.copyTurn
  dsimp only
  split
  · exact (State.copyWords_ev _ _ _).trans active
  · split
    · exact active
    · exact (State.copyWords_ev _ _ _).trans active

/-! ### Events of engines (O45) -/

/-- A copy as it is formed stands in no spill ring. -/
theorem Team.copyOf_spilled (t : Team) (id : Nat) (l : List Slice) : (t.copyOf id l).spilled = false := by
  unfold Team.copyOf
  dsimp only
  split <;> rfl

section Engines

variable {s : State} {t : Team} {q : Sequencer}

theorem execMmaRetire_of_over {m : MmaOp} {r : List MmaOp} {e : Nat} (ht : s.team? s.ev.obj = some t) (hq : s.seq? s.ev.obj = some q)
    (mma : q.mma = m :: r) (array : (s.cores.getD t.core {}).array = some (s.ev.obj, e)) (past : e ≤ s.ticks) :
    let b := (q.slotAt (4 + m.b)).rows.map (rowElems (q.slotAt (4 + m.b)).fmt m.ftz)
    let out := mmaTile { mode := Mode.ofCode m.mode, ftz := m.ftz } (q.aElems m) b (q.tile m.t).c
    let q1 := { q with mma := r, flg := q.flg ||| out.2, skips := q.skips + zeroCount (q.aElems m) }
    let q2 := q1.modTile m.t (fun x => { x with c := out.1 })
    let q3 := if m.ka then q2 else q2.modSlot m.a (fun _ => emptySlot)
    let q4 := if m.kb then q3 else q3.modSlot (4 + m.b) (fun _ => emptySlot)
    let s1 := (s.clearSlots s.ev.obj ((if m.ka then [] else [m.a]) ++ (if m.kb then [] else [4 + m.b]))).modSeq s.ev.obj (fun _ => q4)
    execMmaRetire s = .next
      ({ s1 with cores := modAt (fun (c : Core) => { c with array := none }) s1.cores t.core }.releasePins.feedArray t.core) := by
  intro b out q1 q2 q3 q4 s1
  have due : (s.ev.obj != s.ev.obj || decide (s.ticks < e)) = false := by
    rw [bne_self_eq_false, decide_eq_false (Nat.not_lt.2 past)]
    rfl
  unfold execMmaRetire
  simp only [ht, hq, mma, array]
  exact if_neg (Bool.eq_false_iff.1 due)

theorem execBlockLoadPerformed_of_free {base stride a : Nat} (ht : s.team? s.ev.obj = some t) (hq : s.seq? s.ev.obj = some q)
    (loading : (q.slotAt s.ev.sub).loading = some (base, stride))
    (one : ((linesOf (rowStarts base stride) (rowLen (q.slotAt s.ev.sub).fmt)).map (fun ln => arrayOf t.die (ln * 128))).eraseDups = [a])
    (active : ∃ u, s.retention a = .active u) (poison : s.poison = []) (tests : s.tests = []) (vheld : s.vheld = [])
    (arrivals : s.arrivals = []) :
    execBlockLoadPerformed s = .next ((s.setRetention a (.active s.time)).modSeq s.ev.obj (fun x =>
      x.modSlot s.ev.sub (fun sl =>
        { sl with
          loading := none
          rows := (rowStarts base stride).map (fun x => s.vaultBytes t.die x (rowLen (q.slotAt s.ev.sub).fmt))
          pins := linesOf (rowStarts base stride) (rowLen (q.slotAt s.ev.sub).fmt) }))) := by
  obtain ⟨u, active⟩ := active
  obtain ⟨v, hv⟩ : ∃ v, v = s.setRetention a (.active s.time) := ⟨_, rfl⟩
  have read : s.readArray a (.block s.ev.obj s.ev.sub) = (true, v) := hv ▸ State.readArray_of_active _ active vheld arrivals
  have clean : v.poison = [] := by rw [hv]; exact poison
  have untested : v.tests = [] := by rw [hv]; exact tests
  have unheld : v.vheld = [] := by rw [hv]; exact vheld
  have bytes : v.vaultBytes = s.vaultBytes := by rw [hv]; rfl
  have sound : ∀ (l : List Nat), l.find? (fun ln => v.poison.contains (2, t.die * 2 ^ 22 + ln)) = none := fun l =>
    List.find?_eq_none.2 fun ln _ => by rw [clean]; exact Bool.false_ne_true
  have calm : ∀ (l : List Nat), l.any (fun ln => v.underTest 4 (t.die * 2 ^ 22 + ln)) = false := fun l =>
    List.any_eq_false.2 fun ln _ => by rw [State.underTest, untested]; exact Bool.false_ne_true
  unfold execBlockLoadPerformed
  simp only [ht, hq, loading, one, List.foldl_cons, List.foldl_nil, read, sound, calm, unheld, bytes, List.any_nil, Bool.true_and,
    Bool.not_true, Bool.or_self, Bool.false_eq_true, if_false, ← hv]

theorem execCopyForm_of_room (ht : s.team? s.ev.obj = some t) (forms : s.canForm t = true) (copies : s.copies = []) :
    let c := t.copyOf s.serial t.slices
    let fills := c.status == 0 && c.dspc == 1
    let s1 := ({ s with serial := s.serial + 1 }.passCopy t.slices).modTeam t.id (fun t =>
      let t := { t with slices := [], copySeq := (t.copySeq + 1) % 2 ^ 16 }
      if fills then c.lines.foldl (fun (t : Team) ln => t.beginFill ln) t else t)
    execCopyForm s = .next { s1 with copies := s1.copies ++ [{ c with filling := fills }] } := by
  intro c fills s1
  have room : s.copyRoom t.cluster = (some false, s) := by
    simp only [State.copyRoom, copies, List.filter_nil]
    rfl
  have plain : ({ c with spilled := false, filling := fills, status := if c.status == 0 && false then 6 else c.status } : Copy) =
      { c with filling := fills } := by
    rw [Bool.and_false, if_neg Bool.false_ne_true, ← t.copyOf_spilled s.serial t.slices]
  unfold execCopyForm
  simp only [ht, forms, room, Bool.not_true, Bool.false_eq_true, if_false]
  refine congrArg Host.Outcome.next ?_
  refine (rfl : _ = { s1 with copies := s1.copies ++
    [({ c with spilled := false, filling := fills, status := if c.status == 0 && false then 6 else c.status } : Copy)] }).trans ?_
  rw [plain]

theorem execCopyTurn_eq : execCopyTurn s =
    .next ((((s.copyTurn s.ev.obj).copyTurn s.ev.obj).copyTurn s.ev.obj).copyTurn s.ev.obj) := by
  have four : List.range 4 = [0, 1, 2, 3] := by decide
  unfold execCopyTurn
  rw [four]
  simp only [List.foldl_cons, List.foldl_nil, State.copyTurn_ev]

theorem State.unspill_of_none {cluster : Nat} (none_ : ∀ c ∈ s.copies, c.spilled = false) : s.unspill cluster = s := by
  have empty : (s.copies.filter (fun (c : Copy) => c.cluster == cluster)).filter (fun (c : Copy) => c.spilled) = [] :=
    List.filter_eq_nil_iff.2 fun c hc => Bool.eq_false_iff.1 (none_ c (List.mem_filter.1 hc).1)
  simp only [State.unspill, empty]

/-- The status word of a copy goes to the lanes of its slices. -/
def State.tellCopy (s : State) (c : Copy) (n : Nat) : State :=
  c.slices.foldl (fun s (sl : Slice) => s.modGroup sl.gid (fun g =>
    (lanesOf sl.lanes).foldl (fun g i => g.deliver i sl.serial [w64 (c.seq * 2 ^ 16 + n)]) g)) s

theorem State.tellCopy_copies (s : State) (c : Copy) (n : Nat) : (s.tellCopy c n).copies = s.copies :=
  List.foldlRecOn (motive := fun u : State => u.copies = s.copies) _ _ rfl fun _ hu _ _ => hu

theorem execCopyEnd_counted {s2 : State} {c : Copy} {n : Nat} (hc : s.copy? s.ev.obj = some c) (here : c.spilled = false)
    (past : s.copyOver c = true) (local_ : c.filling = false) (ring : s.copies.filter (fun (x : Copy) => x.spilled) = [])
    (count : s.copyCount c = (some n, s2)) (kept : s2.copies = s.copies) :
    execCopyEnd s = .next { s2.tellCopy c n with
      copies := (s2.tellCopy c n).copies.filter (fun (y : Copy) => y.id != c.id) } := by
  have unspilled : ∀ x ∈ (s2.tellCopy c n).copies.filter (fun (y : Copy) => y.id != c.id), x.spilled = false := fun x hx => by
    have mem := (List.mem_filter.1 hx).1
    rw [State.tellCopy_copies, kept] at mem
    exact Bool.eq_false_iff.2 (List.filter_eq_nil_iff.1 ring x mem)
  unfold execCopyEnd
  simp only [hc, here, past, local_, count, Bool.not_true, Bool.false_eq_true, if_false]
  exact congrArg Host.Outcome.next (State.unspill_of_none unspilled)

theorem execCopyEnd_uncounted {s2 : State} {c : Copy} (hc : s.copy? s.ev.obj = some c) (here : c.spilled = false)
    (past : s.copyOver c = true) (count : s.copyCount c = (none, s2)) : execCopyEnd s = .next s2 := by
  unfold execCopyEnd
  simp only [hc, here, past, count, Bool.not_true, Bool.false_eq_true, if_false]

/-- What a change of the tags of one place, which keeps their place, makes of the first of them. -/
theorem State.tag?_updWhere {die tag : Nat} {F : RouteTag → RouteTag} (hF : ∀ y, (F y).die = y.die ∧ (F y).tag = y.tag) :
    ({ s with tags := updWhere (fun (y : RouteTag) => y.die == die && y.tag == tag) F s.tags } : State).tag? die tag =
      (s.tag? die tag).map F := by
  unfold State.tag?
  simp only
  rw [find_updWhere _ _ _ _ fun y => by rw [(hF y).1, (hF y).2]]
  cases found : s.tags.find? (fun x => x.die == die && x.tag == tag) with
  | none => rfl
  | some y => exact congrArg some (if_pos (List.find?_some found))

theorem execTreePhaseComplete_of_due {x : RouteTag} {u : Nat} (hx : s.tag? s.ev.obj s.ev.sub = some x) (due : x.due = some u)
    (past : u ≤ s.ticks) : Completes (execTreePhaseComplete s) (fun t => ∃ y, t.tag? s.ev.obj s.ev.sub = some y ∧
      y.phase = x.phase + 1 ∧ y.arrived = [] ∧ y.due = none ∧ y.holder = x.holder) := by
  obtain ⟨v, hv⟩ : ∃ v, v = ({ s with
      tags := updWhere (fun (y : RouteTag) => y.die == s.ev.obj && y.tag == s.ev.sub)
        (fun y => { y with phase := y.phase + 1, arrived := [], due := none }) s.tags } : State) := ⟨_, rfl⟩
  have next : v.tag? s.ev.obj s.ev.sub = some { x with phase := x.phase + 1, arrived := [], due := none } := by
    rw [hv]
    refine (State.tag?_updWhere (F := fun y => { y with phase := y.phase + 1, arrived := [], due := none }) fun _ => ⟨rfl, rfl⟩).trans ?_
    rw [hx]
    rfl
  have tags : ∀ (ids : List Nat) (p : Lane → Bool), (ids.foldl (fun (s : State) id =>
      (s.modTeam id (fun t => { t with treeSent := false, treeSet := 0 })).proceed id p) v).tags = v.tags := fun ids p =>
    List.foldlRecOn (motive := fun u : State => u.tags = v.tags) _ _ rfl fun _ hu _ _ => hu
  have run : ∃ (ids : List Nat) (p : Lane → Bool), execTreePhaseComplete s = .next (ids.foldl (fun (s : State) id =>
      (s.modTeam id (fun t => { t with treeSent := false, treeSet := 0 })).proceed id p) v) := by
    unfold execTreePhaseComplete
    simp only [hx, due, if_neg (Nat.not_lt.2 past), hv]
    exact ⟨_, _, rfl⟩
  obtain ⟨ids, p, run⟩ := run
  refine ⟨_, run, { x with phase := x.phase + 1, arrived := [], due := none }, ?_, rfl, rfl, rfl, rfl⟩
  rw [State.tag?, tags]
  exact next

theorem execTreeTagWithdraw_of_free (free : (s.tag? s.ev.obj s.ev.sub).bind (·.holder) = none) :
    Completes (execTreeTagWithdraw s) (fun t => ∀ y, t.tag? s.ev.obj s.ev.sub = some y → y.withdrawn = true) := by
  have run : execTreeTagWithdraw s = .next { s with
      tags := updWhere (fun (y : RouteTag) => y.die == s.ev.obj && y.tag == s.ev.sub) (fun y => { y with withdrawn := true }) s.tags } := by
    unfold execTreeTagWithdraw
    simp only [free]
  refine ⟨_, run, fun y hy => ?_⟩
  rw [State.tag?_updWhere (F := fun y => { y with withdrawn := true }) fun _ => ⟨rfl, rfl⟩] at hy
  obtain ⟨x, -, rfl⟩ := Option.map_eq_some_iff.1 hy
  rfl

end Engines

/-- Settles O45: each event, its conditions met, makes the change that its rules give. -/
theorem engineEvents : Obligations.EngineEvents := by
  intro s t q c id
  refine ⟨rfl, ?_, ?_, fun m held => ?_, ?_, ?_, ?_, ?_, fun free => execTreeTagWithdraw_of_free free, fun n k held => ?_⟩
  · intro m r e ht hq mma array past
    exact execMmaRetire_of_over ht hq mma array past
  · intro base stride a ht hq loading len lines one active poison tests vheld arrivals rows
    exact execBlockLoadPerformed_of_free ht hq loading one active poison tests vheld arrivals
  · show execMstPerformed s = _
    unfold execMstPerformed
    simp only [id, held, beq_iff_eq]
    split <;> rfl
  · intro ht forms copies
    exact execCopyForm_of_room ht forms copies
  · exact execCopyTurn_eq
  · intro hc here past local_ ring
    exact ⟨fun s2 count => execCopyEnd_uncounted hc here past count,
      fun n s2 count kept => execCopyEnd_counted hc here past local_ ring count kept⟩
  · intro x u hx due past
    exact execTreePhaseComplete_of_due hx due past
  · show execTreeTagWithdraw s = _
    unfold execTreeTagWithdraw
    simp only [id, held]

end Sys2Proof.Machine

namespace Sys2Proof.Machine

open Sys2Proof

/-! ### Events of row commands (O47) -/

theorem HomeOnly.rows {s t : State} (h : HomeOnly s t) : t.rows = s.rows := (congrArg State.rows h.rest :)

theorem State.raiseError_rows (s : State) (e : ErrorRec) (kind loc : Nat) : (s.raiseError e kind loc).rows = s.rows := by
  unfold State.raiseError
  dsimp only
  split
  · rfl
  · split <;> exact (HomeOnly.report s _).rows

section Rows

variable {s : State} {c : RowCmd} {id : Nat}

theorem State.id_of_row? (h : s.row? id = some c) : c.id = id := beq_iff_eq.1 (List.find?_some h :)

theorem State.row?_modRow {F : RowCmd → RowCmd} (hF : ∀ c, (F c).id = c.id) (h : s.row? id = some c) :
    (s.modRow id F).row? id = some (F c) := by
  unfold State.row? State.modRow
  simp only
  rw [find_updWhere _ _ _ _ fun x => by rw [hF], show s.rows.find? (fun c => c.id == id) = some c from h]
  exact congrArg some (if_pos (beq_iff_eq.2 (State.id_of_row? h)))

/-- A command that enters its stream. -/
def State.rowEnters (s : State) (id : Nat) : State := s.modRow id (fun (c : RowCmd) => { c with st := RowState.entered })

theorem execRowCmdEnter_of_reading {c' : RowCmd} (h : s.row? s.ev.obj = some c) (reading : c.st = .reading) (may : s.canEnter c = true)
    (entered : (s.rowEnters s.ev.obj).row? s.ev.obj = some c') (st : c'.st = .entered) :
    execRowCmdEnter s = .next (if (s.rowEnters s.ev.obj).canStart c' then (s.rowEnters s.ev.obj).startRow s.ev.obj
      else s.rowEnters s.ev.obj) := by
  have enters : (c.st == RowState.reading && s.canEnter c) = true := by rw [reading, may]; rfl
  have next : (if (c.st == RowState.reading && s.canEnter c) = true then
      s.modRow s.ev.obj (fun (c : RowCmd) => { c with st := RowState.entered }) else s) = s.rowEnters s.ev.obj := if_pos enters
  unfold execRowCmdEnter
  simp only [h, next, entered, st, beq_self_eq_true, Bool.true_and]

theorem execRowCmdEnter_of_entered (h : s.row? s.ev.obj = some c) (st : c.st = .entered) (may : s.canStart c = true) :
    execRowCmdEnter s = .next (s.startRow s.ev.obj) := by
  have stays : (c.st == RowState.reading && s.canEnter c) = false := by rw [st]; rfl
  have starts : (c.st == RowState.entered && s.canStart c) = true := by rw [st, may]; rfl
  unfold execRowCmdEnter
  simp only [h, stays, starts, Bool.false_eq_true, if_false, if_true]

/-- A row step of a running command, which is past or begins. -/
theorem execRowStep_of_run (h : s.row? s.ev.obj = some c) (run : c.st = .run) :
    execRowStep s = .next (if c.worked then s.rowStepOver c else s.rowWork s.ev.obj) := by
  have runs : (c.st != .run) = false := by rw [run]; rfl
  unfold execRowStep
  simp only [h, runs, Bool.false_eq_true, if_false, State.id_of_row? h]

theorem State.rowWork_of_program (program : isRowOp c.op = false) (h : s.row? id = some c) :
    s.rowWork id =
      { s.modRow id (fun x => { x with worked := true, held := s.heldBanks c, since := s.ticks, isOpen := false }) with
        agenda := .row id :: s.agenda } := by
  unfold State.rowWork
  simp only [h, program, Bool.false_eq_true, if_false]

theorem State.rowStepOver_of_op (h : s.row? id = some c) (op : isRowOp c.op = true) :
    s.rowStepOver c =
      let s1 := (s.shadowRow (s.runsD c.tenant (c.d + 2048 * c.next) 2048)).modRow id (fun x => { x with next := x.next + 1, fill := x.work })
      if c.next + 1 = c.rows then s1.rowDone id 0 else s1.rowBoundary id := by
  unfold State.rowStepOver
  simp only [op, if_true, State.id_of_row? h, beq_iff_eq]

theorem State.rowStepOver_of_program (h : s.row? id = some c) (program : isRowOp c.op = false) :
    (∀ st, c.endsAs = some st → s.rowStepOver c = s.rowDone id st) ∧ (c.endsAs = none → s.rowStepOver c = s.rowBoundary id) := by
  unfold State.rowStepOver
  simp only [program, Bool.false_eq_true, if_false, State.id_of_row? h]
  exact ⟨fun st hst => by rw [hst], fun none_ => by rw [none_]⟩

theorem execRowSlotEnd_of_yield {n : Nat} (h : s.row? s.ev.obj = some c) (st : c.st = .yield n) :
    execRowSlotEnd s = .next (if 6 ≤ n || !s.askedFor c then s.rowResume s.ev.obj
      else s.modRow s.ev.obj (fun c => { c with st := .yield (n + 1), since := s.ticks, endAt := c.endAt + 128 })) := by
  unfold execRowSlotEnd
  simp only [h, st, State.id_of_row? h]

theorem execRowSlotEnd_resumes {n : Nat} (h : s.row? s.ev.obj = some c) (st : c.st = .yield n)
    (past : 6 ≤ n ∨ s.askedFor c = false) : execRowSlotEnd s = .next (s.rowResume s.ev.obj) := by
  have ends : (decide (6 ≤ n) || !s.askedFor c) = true := by
    rcases past with seven | free
    · rw [decide_eq_true seven, Bool.true_or]
    · rw [free, Bool.not_false, Bool.or_true]
  rw [execRowSlotEnd_of_yield h st, if_pos ends]

theorem execRowSlotEnd_yields {n : Nat} (h : s.row? s.ev.obj = some c) (st : c.st = .yield n) (few : n < 6)
    (asked : s.askedFor c = true) : Completes (execRowSlotEnd s) (fun t =>
      ∃ c', t.row? s.ev.obj = some c' ∧ c'.st = .yield (n + 1) ∧ c'.endAt = c.endAt + 128 ∧ c'.next = c.next) := by
  have goes : ¬ (decide (6 ≤ n) || !s.askedFor c) = true := by
    rw [asked, decide_eq_false (Nat.not_le.2 few)]
    exact Bool.false_ne_true
  have run := execRowSlotEnd_of_yield h st
  rw [if_neg goes] at run
  exact ⟨_, run, _, State.row?_modRow (fun _ => rfl) h, rfl, rfl, rfl⟩

theorem execRowRefreshDone_of_refresh (h : s.row? s.ev.obj = some c) (st : c.st = .refresh) :
    execRowRefreshDone s = .next (s.rowResume s.ev.obj) := by
  have refreshes : (c.st == .refresh) = true := by rw [st]; rfl
  unfold execRowRefreshDone
  simp only [h, refreshes, if_true, State.id_of_row? h]

/-! ### Commands of a port (18 R330) -/

theorem State.portRead_rows (s : State) (c : RowCmd) (va : Nat) : (s.portRead c va).2.rows = s.rows := by
  unfold State.portRead
  split
  · rfl
  · split
    · split
      · rfl
      · exact (State.engineLoads_sameRows s _ _).rows
    · split
      · exact State.raiseError_rows s _ _ _
      · exact (State.engineLoads_sameRows s _ _).rows

/-- A command of a port as it stands after its descriptor was read, or could not be. -/
theorem State.portTaken (s : State) (base : RowCmd) (va : Nat) (hva : base.port = some va) :
    ∃ c : RowCmd, (match s.portRead base va with
        | (some bs, s) => { s with rows := s.rows ++ [base.ofBytes bs] }
        | (none, s) => { s.engineFault base.die base.launch base.origin with rows := s.rows ++ [{ base with unread := true }] }).rows =
          s.rows ++ [c] ∧ c.team = base.team ∧ c.op = base.op ∧ c.queue = base.queue ∧ c.st = base.st ∧ c.port ≠ none := by
  have rows := s.portRead_rows base va
  have port : base.port ≠ none := by rw [hva]; exact nofun
  generalize s.portRead base va = r at rows ⊢
  obtain ⟨bs, u⟩ := r
  cases bs with
  | some bs => exact ⟨base.ofBytes bs, congrArg (· ++ _) rows, rfl, rfl, rfl, rfl, port⟩
  | none => exact ⟨{ base with unread := true }, congrArg (· ++ _) rows, rfl, rfl, rfl, rfl, port⟩

theorem execRowCmdPortTake_of_entry {t : Team} {q : Nat} {e : QEntry} {r : List QEntry} (ht : s.team? s.ev.obj = some t)
    (runs : s.preempting t.id = false) (free : s.portHeld t = false) (bound : t.bound? 7 = some q)
    (entries : (t.queue q).entries = e :: r) :
    Completes (execRowCmdPortTake s) (fun u => ∃ c : RowCmd, u.rows = s.rows ++ [c] ∧ c.team = t.id ∧
      c.op = e.val.toNat % 64 ∧ c.queue = q ∧ c.st = .reading ∧ c.port ≠ none) := by
  have id : t.id = s.ev.obj := beq_iff_eq.1 (List.find?_some ht :)
  have own : s.team s.ev.obj = t := by
    rw [State.team, ht]
    rfl
  obtain ⟨u, took, rows⟩ : ∃ u, s.engineTake t.id q true = some (e, u) ∧ u.rows = s.rows := by
    unfold State.engineTake
    simp only [id, own, entries]
    exact ⟨_, rfl, List.foldlRecOn (motive := fun u : State => u.rows = s.rows) _ _ rfl fun _ hu _ _ => hu⟩
  unfold execRowCmdPortTake
  simp only [own, runs, free, bound, took, Bool.or_self, Bool.false_eq_true, if_false]
  obtain ⟨c, taken, team, op, queue, st, port⟩ := State.portTaken { u with serial := u.serial + 1 }
    { id := u.serial, team := t.id, launch := t.launch, tenant := t.tenant, die := t.die, serial := u.serial,
      op := e.val.toNat % 64, queue := q, st := .reading,
      vwin := ((u.groups.find? (fun (g : Group) => g.team == t.id)).map (fun (g : Group) => g.vwin)).getD
        ((u.launch? t.die t.launch).getD { die := t.die, num := t.launch }).desc.vwin,
      port := some (e.val.toNat / 64 * 64),
      origin := (((u.launch? t.die t.launch).getD { die := t.die, num := t.launch }).origin e.pc.toNat).1 }
    (e.val.toNat / 64 * 64) rfl
  exact ⟨_, rfl, c, taken.trans (congrArg (· ++ [c]) rows), team, op, queue, st, port⟩

end Rows

/-- Whether a command works on rows of a stack. -/
def State.worksOn (s : State) (k : Nat) (c : RowCmd) : Bool :=
  s.rowStack c == some k && (match c.st with
    | .run | .yield _ | .refresh => true
    | _ => false)

/-- Settles O47: each event acts on the command that it names, whose state decides. -/
theorem rowCommandEvents : Obligations.RowCommandEvents := by
  intro s c id enters bank held
  refine ⟨fun c' h reading may entered st => execRowCmdEnter_of_reading h reading may entered st,
    fun h st may => execRowCmdEnter_of_entered h st may, fun h run idle => ?_, fun program h => State.rowWork_of_program program h,
    fun h run worked op => ?_, fun h run worked program => ?_, fun n h st => ⟨execRowSlotEnd_resumes h st, execRowSlotEnd_yields h st⟩,
    fun h st => execRowRefreshDone_of_refresh h st, rfl, fun on => ?_, fun off => ?_,
    fun t q e r ht runs free bound entries _ => execRowCmdPortTake_of_entry ht runs free bound entries,
    fun rows stack st => ?_, fun rows => ?_⟩
  · refine (execRowStep_of_run h run).trans ?_
    rw [idle]
    rfl
  · refine (execRowStep_of_run h run).trans ?_
    rw [worked, if_pos rfl, State.rowStepOver_of_op h op]
  · have past : exec .rowStep s = .next (s.rowStepOver c) := by
      refine (execRowStep_of_run h run).trans ?_
      rw [worked, if_pos rfl]
    obtain ⟨ended, goes⟩ := State.rowStepOver_of_program h program
    exact ⟨fun st hst => past.trans (congrArg _ (ended st hst)), fun none_ => past.trans (congrArg _ (goes none_))⟩
  · have run : exec .refreshDue s = .next { s with postponed := Sparse.put 0 s.postponed bank (Sparse.get 0 s.postponed bank + 1) } :=
      congrArg Host.Outcome.next (if_pos on)
    exact ⟨_, run, Sparse.get_put_same 0 s.postponed bank _, fun b hb => Sparse.get_put_ne 0 s.postponed _ hb, rfl⟩
  · exact congrArg Host.Outcome.next (if_neg (Bool.eq_false_iff.1 off))
  · have on : s.worksOn s.ev.obj c = true := by
      unfold State.worksOn
      rw [stack, beq_self_eq_true, Bool.true_and]
      rcases st with st | st <;> rw [st]
    refine congrArg Host.Outcome.next ?_
    rw [rows]
    exact (congrArg (fun l : List RowCmd => l.foldl (fun s c => s.rowDone c.id 5) s) (List.filter_cons_of_pos (p := s.worksOn s.ev.obj) on)).trans rfl
  · show execStackFailure s = _
    unfold execStackFailure
    simp only [rows, List.filter_nil, List.foldl_nil]

end Sys2Proof.Machine

namespace Sys2Proof.Machine

open Sys2Proof

/-! ### Events of a front end (O46) -/

section FrontEnd

variable {s : State} {l : Launch}

theorem State.launch?_eq {die num : Nat} (h : s.launch? die num = some l) : l.die = die ∧ l.num = num := by
  have found : (l.die == die && l.num == num) = true := (List.find?_some h :)
  rw [Bool.and_eq_true, beq_iff_eq, beq_iff_eq] at found
  exact found

theorem execLaunchTake_of_packet {bs : List Byte} {s1 : State} (noBytes : s.ev.bytes = []) (aligned : s.ev.val.toNat % 64 = 0)
    (read : s.tenantRead s.ev.sub s.ev.val.toNat 128 = (some bs, s1)) :
    execLaunchTake s = .next (s1.takeLaunch s.ev.sub s.ev.aux bs).2 := by
  unfold execLaunchTake
  simp only [noBytes, aligned, read, List.isEmpty_nil, Bool.not_true, bne_self_eq_false, Bool.false_eq_true, if_false]

theorem execPairTake_of_read {pr pb cb : List Byte} {s1 s2 s3 : State}
    (pair : s.tenantRead s.ev.sub s.ev.val.toNat 64 = (some pr, s1))
    (producer : s1.tenantRead s.ev.sub (fieldAt pr 0 8) 128 = (some pb, s2))
    (consumer : s2.tenantRead s.ev.sub (fieldAt pr 8 8) 128 = (some cb, s3)) (first : fieldAt pr 0 8 % 64 = 0)
    (second : fieldAt pr 8 8 % 64 = 0) : execPairTake s = .next (s3.takePair s.ev.sub s.ev.aux pr pb cb) := by
  unfold execPairTake
  simp only [pair, producer, consumer, first, second, bne_self_eq_false, Bool.or_self, Bool.false_eq_true, if_false]

theorem execTeamPlace_of_one {s1 : State} (one : s.launches = [l]) (here : l.die = s.ev.obj) (unit : s.hasUnit l = true)
    (served : (s.exhausted s.ev.obj l.tenant && s.poolFits s.ev.obj) = false) (serve : s.serve (l, s.nextDeadline l) = some s1) :
    execTeamPlace s = .next { s1 with
      reserves := s1.reserves.filter (fun (y : Reserve) => !(y.die == s.ev.obj && y.launch == l.num)) } := by
  have order : s.unitOrder s.ev.obj = [(l, s.nextDeadline l)] := by
    simp only [State.unitOrder, one, List.filter_cons, here, beq_self_eq_true, unit, Bool.and_self, if_true, List.filter_nil]
    rfl
  unfold execTeamPlace
  rw [order]
  simp only [State.serveFirst, here, served, Bool.false_eq_true, if_false, serve, State.dropReserve]

theorem execPoolRecordBin_of_bin {r : Record} {rest : List Record} {k : Nat} {b : Bin}
    (hl : s.launch? s.ev.obj s.ev.sub = some l) (ring : l.ring = r :: rest)
    (entry : (s.poolEntries l).any (fun o => l.desc.code + w64 o == r.code) = true)
    (keyed : (List.range 64).find? (fun k => ((s.bins.getD s.ev.obj []).getD k .free).keyed l.num r) = some k)
    (stored : ((s.bins.getD s.ev.obj []).getD k .free).store l.num r = some b) :
    execPoolRecordBin s = .next ({ s with bins := modAt (fun l => setAt l k b) s.bins s.ev.obj }.modLaunch s.ev.obj l.num
      (fun l => { l with ring := rest })) := by
  unfold execPoolRecordBin
  simp only [hl, ring, entry, keyed, stored, Option.bind_some, Option.map_some, Bool.not_true, Bool.false_eq_true, if_false]

theorem execPoolBinAgeDue_of_aged {n : Nat} {code : W64} {p : Bool} {r : Record} {rs : List Record}
    (bound : (s.bins.getD s.ev.obj []).getD s.ev.sub .free = .bound false n code p (r :: rs)) (die : s.ev.obj < s.bins.length)
    (old : r.time + s.poolAge s.ev.obj ≤ s.time) : Completes (exec .poolBinAgeDue s) (fun t =>
      (t.bins.getD s.ev.obj []).getD s.ev.sub .free = .bound true n code p (r :: rs)) := by
  have listed : s.ev.sub < (s.bins.getD s.ev.obj []).length := by
    refine Nat.lt_of_not_le fun none_ => ?_
    rw [getD_of_length_le none_] at bound
    cases bound
  have due : aged s.time (s.poolAge s.ev.obj) (r :: rs) = true := decide_eq_true old
  refine ⟨_, rfl, ?_⟩
  dsimp only
  rw [getD_modAt, if_pos ⟨rfl, die⟩, getD_modAt, if_pos ⟨rfl, listed⟩, bound]
  simp only [due, Bool.or_true]

theorem execPoolGroupForm_of_one {c : BinCand} {core : Nat} {sp : Spot} {s1 : State} (one : s.dueBins s.ev.obj = [c])
    (served : (s.exhausted c.l.die c.l.tenant && s.unitFits c.l.die) = false)
    (picked : s.pickCore c.l.die c.l.need (s.closedTo (s.binUnit c)) = some (core, sp)) (awake : s.coresAwake [core] = (true, s1)) :
    execPoolGroupForm s = .next ((s1.formGroup c core sp).dropReserve c.l) := by
  unfold execPoolGroupForm
  rw [one]
  simp only [State.formFirst, List.contains_nil, served, picked, awake, Bool.false_eq_true, if_false]

theorem execAtRiskTest_of_one {cores : List Nat} {ts : List Team} (one : s.launches = [l]) (here : l.die = s.ev.obj)
    (risk : s.atRisk l = true) (reserves : s.reserves = []) (victims : s.victimSet l [] = some (cores, ts)) :
    execAtRiskTest s = .next ({ s with
      reserves := [({ die := s.ev.obj, launch := l.num, cores := cores } : Reserve)]
      groups := s.groups.map (fun (g : Group) => if ts.any (fun (t : Team) => t.id == g.team) then { g with preempt := true } else g) }.push
        (ts.filterMap (fun (t : Team) =>
          (s.groups.find? (fun (g : Group) => g.team == t.id)).map (fun (g : Group) => evWork .groupPreempt g.id)))) := by
  have order : s.launches.filter (fun (l : Launch) => l.die == s.ev.obj && s.atRisk l) = [l] := by
    simp only [one, List.filter_cons, here, beq_self_eq_true, risk, Bool.and_self, if_true, List.filter_nil]
  have noReserve : ∀ p : Reserve → Bool, ({ s with reserves := s.reserves.filter p } : State) = s := fun p => by
    rw [reserves, List.filter_nil, ← reserves]
  have open_ : s.closedTo (l, s.nextDeadline l) = [] := by rw [State.closedTo, reserves]; rfl
  have firsts : (ts.filterMap (fun (t : Team) => (s.groups.find? (fun (g : Group) => g.team == t.id)).map (fun (g : Group) => g.id))).map
      (fun id => evWork .groupPreempt id) = ts.filterMap (fun (t : Team) =>
        (s.groups.find? (fun (g : Group) => g.team == t.id)).map (fun (g : Group) => evWork .groupPreempt g.id)) := by
    rw [List.map_filterMap]
    refine congrArg (fun F => ts.filterMap F) (funext fun t => ?_)
    rw [Option.map_map]
    rfl
  have rescued : s.rescue l = ({ s with
      reserves := [({ die := s.ev.obj, launch := l.num, cores := cores } : Reserve)]
      groups := s.groups.map (fun (g : Group) => if ts.any (fun (t : Team) => t.id == g.team) then { g with preempt := true } else g) }.push
        (ts.filterMap (fun (t : Team) =>
          (s.groups.find? (fun (g : Group) => g.team == t.id)).map (fun (g : Group) => evWork .groupPreempt g.id)))) := by
    unfold State.rescue
    rw [open_, victims]
    simp only [reserves, List.filter_nil, List.nil_append, here, firsts]
    rfl
  unfold execAtRiskTest
  simp only [order, noReserve]
  exact congrArg Host.Outcome.next rescued

/-- The state once a hint for a peer of a die has come. -/
def State.hinted (s : State) (die peer aux : Nat) : State :=
  let same : Hint → Bool := fun h => h.die == die && h.peer == peer
  let old := ((s.hints.find? same).map (fun h => h.t)).getD 0
  { s with hints := s.hints.filter (fun h => !same h) ++ [({ die := die, peer := peer, t := max old (s.time + aux) } : Hint)] }

theorem execStallHint_of_short (some_ : 1 ≤ s.ev.aux) (short : s.ev.aux ≤ 10000) :
    execStallHint s = .next { s.hinted s.ev.obj s.ev.sub s.ev.aux with
      groups := s.groups.map (fun (g : Group) => { g with hint := (s.hinted s.ev.obj s.ev.sub s.ev.aux).hintOf g })
      hints := (s.hinted s.ev.obj s.ev.sub s.ev.aux).hints.filter (fun (h : Hint) => s.time < h.t) } := by
  have length : (s.ev.aux == 0 || decide (10000 < s.ev.aux)) = false := by
    rw [beq_eq_false_iff_ne.2 (by omega), decide_eq_false (by omega)]
    rfl
  have hints : (s.hinted s.ev.obj s.ev.sub s.ev.aux).hints.isEmpty = false := by
    simp [State.hinted]
  have applied : execStallHint s = .next (s.hinted s.ev.obj s.ev.sub s.ev.aux).applyHints := by
    unfold execStallHint
    simp only [length, Bool.false_eq_true, if_false]
    rfl
  rw [applied, State.applyHints, hints]
  rfl

theorem State.hintOf_one {g : Group} {h : Hint} (one : s.hints = [h]) :
    s.hintOf g = if h.die = dieOfCore g.core ∧ s.oldestTarget g = some h.peer ∧ s.time < h.t then h.t else 0 := by
  unfold State.hintOf
  rw [one]
  cases target : s.oldestTarget g with
  | none => rw [if_neg (fun c => by cases c.2.1)]
  | some m =>
    by_cases holds : h.die = dieOfCore g.core ∧ h.peer = m ∧ s.time < h.t
    · obtain ⟨die, peer, late⟩ := holds
      rw [if_pos ⟨die, by rw [peer], late⟩]
      simp [die, peer, late, maxOf]
    · have gone : (h.die == dieOfCore g.core && h.peer == m && decide (s.time < h.t)) = false := by
        refine Bool.eq_false_iff.2 fun c => holds ?_
        rw [Bool.and_eq_true, Bool.and_eq_true, beq_iff_eq, beq_iff_eq, decide_eq_true_eq] at c
        exact ⟨c.1.1, c.1.2, c.2⟩
      rw [if_neg (fun c => holds ⟨c.1, (Option.some.inj c.2.1).symm, c.2.2⟩)]
      simp only [List.filter_cons, gone, Bool.false_eq_true, if_false, List.filter_nil, List.map_nil]
      rfl

theorem State.completeLaunch_ends (hl : s.launch? s.ev.obj s.ev.sub = some l) (after : l.after = none) (spliced : l.spliced = false)
    (stage : l.stage = 0) (idle : s.launchIdle l = true) (quiet : s.launchQuiet l = true) (splice : l.splice = none) :
    let s1 := s.modLaunch l.die l.num (fun l => { l with ended := true, stage := 1, endT := s.time })
    let l1 := (s1.launch? l.die l.num).getD l
    s.completeLaunch l = (s1.releaseText l1).writeCompletion l1 := by
  intro s1 l1
  have own : s.launch? l.die l.num = some l := by
    obtain ⟨die, num⟩ := State.launch?_eq hl
    rw [die, num]
    exact hl
  have changed : s1.launch? l.die l.num = some { l with ended := true, stage := 1, endT := s.time } :=
    (State.launch?_modLaunch s _ _ (fun l => { l with ended := true, stage := 1, endT := s.time }) fun _ => ⟨rfl, rfl⟩).trans
      (by rw [own]; rfl)
  have ended : l1 = { l with ended := true, stage := 1, endT := s.time } := congrArg (fun x : Option Launch => x.getD l) changed
  have plain : ∀ u : State, u.endConsumer l1 = u := fun u => by
    rw [State.endConsumer, ended]
    simp only [splice]
  have free : s.awaitsProducer l = false := by rw [State.awaitsProducer, after]
  unfold State.completeLaunch
  simp only [after, spliced, free, stage, idle, quiet, Option.isSome_none, Bool.not_true, Bool.false_and, Bool.or_self,
    Bool.false_eq_true, if_false]
  exact congrArg (fun u : State => (u.releaseText l1).writeCompletion l1) (plain s1)

theorem execConsumerDeferredTake_of_ready (hl : s.launch? s.ev.obj s.ev.sub = some l) (after : l.after.isSome = true)
    (spliced : l.spliced = false) (free : s.awaitsProducer l = false) :
    execConsumerDeferredTake s = .next (s.takeDeferred l) := by
  have waits : l.after.isNone = false := by rw [← Option.not_isSome, after]; rfl
  unfold execConsumerDeferredTake
  simp only [hl, waits, spliced, free, Bool.or_self, Bool.false_eq_true, if_false]

theorem State.takeDeferred_plain (plain : l.isPool = false ∨ l.status.isSome = true) :
    s.takeDeferred l = s.modLaunch l.die l.num (fun l => { l with after := none }) := by
  have goes : (!l.isPool || l.status.isSome) = true := by
    rcases plain with pool | status
    · rw [pool]
      rfl
    · rw [status, Bool.or_true]
  unfold State.takeDeferred
  simp only [goes, if_true]

theorem State.takeDeferred_pool {bs : List Byte} {s2 : State} (pool : l.isPool = true) (status : l.status = none)
    (read : (s.modLaunch l.die l.num (fun l => { l with after := none })).tenantRead l.tenant l.desc.initrec.toNat (32 * l.desc.count) =
      (some bs, s2)) : s.takeDeferred l = s2.openRing l (recordsOf bs s2.time l.desc.count) := by
  unfold State.takeDeferred
  simp only [pool, status, read, Option.isSome_none, Bool.not_true, Bool.or_self, Bool.false_eq_true, if_false]

theorem execGroupPreempt_of_team {g : Group} {t0 t : Team} (hg : s.group? s.ev.obj = some g) (ht0 : s.team? g.team = some t0) :
    let whole := (s.clusterOf t0).map (fun (x : Team) => x.id)
    let mine := (s.groups.filter (fun (x : Group) => whole.contains x.team)).map (fun (x : Group) => x.id)
    let s1 := mine.foldl State.stopGroup s
    s1.team? g.team = some t →
    let s2 := if s1.seqDrained t then (s1.modTeam t.id (fun t => { t with seq := t.seq.map Sequencer.unpin })).releasePins else s1
    execGroupPreempt s = .next (if s2.teamDrained (s2.team t.id) then s2.saveTeam (s2.team t.id) else s2) := by
  intro whole mine s1 ht s2
  have id0 : t0.id = g.team := beq_iff_eq.1 (List.find?_some ht0 :)
  have id : t.id = g.team := beq_iff_eq.1 (List.find?_some ht :)
  have run : execGroupPreempt s = .next (s1.drainTeam t0.id) := by
    unfold execGroupPreempt
    simp only [hg, ht0]
    rfl
  rw [run, State.drainTeam, id0, ht]
  simp only [s2, id]

theorem execGroupRestore_of_spot {v : Saved} {core : Nat} {sp : Spot} {s1 : State}
    (hv : s.saved.find? (fun (x : Saved) => x.team.id == s.ev.obj) = some v) (hl : s.launch? v.team.die v.team.launch = some l)
    (single : l.clusterSize ≤ 1) (ok : s.savedOk v l = true) (picked : s.pickCore l.die (v.need l) [] = some (core, sp))
    (awake : s.coresAwake [core] = (true, s1)) : execGroupRestore s = .next (s1.restoreTeam v core sp) := by
  have unit : s.savedUnit l v = [v] := if_pos single
  have saved : s.unitSaved l v = true := by rw [State.unitSaved, decide_eq_true single, Bool.true_or]
  have spots : s.pickUnit l [(v.team.cidx, v.need l)] [] = some [(core, sp)] := by
    rw [State.pickUnit, if_pos single]
    exact congrArg (Option.map _) picked
  have restored : s.restoreUnit l v [] = some (s1.restoreTeam v core sp) := by
    unfold State.restoreUnit
    simp only [unit, saved, ok, spots, awake, List.any_cons, List.any_nil, List.map_cons, List.map_nil, Bool.not_true, Bool.or_self,
      Bool.false_eq_true, if_false]
    rfl
  unfold execGroupRestore
  simp only [hv, hl, restored, Option.getD_some]

end FrontEnd

/-- Settles O46: each event, its conditions met, makes the change that its rules give. -/
theorem frontEndEvents : Obligations.FrontEndEvents := by
  intro s l die
  refine ⟨fun bs s1 noBytes aligned read => execLaunchTake_of_packet noBytes aligned read,
    fun pr pb cb s1 s2 s3 pair producer consumer first second => execPairTake_of_read pair producer consumer first second,
    fun s1 one here unit served serve => execTeamPlace_of_one one here unit served serve,
    fun r rest k b hl ring _ _ entry keyed stored => execPoolRecordBin_of_bin hl ring entry keyed stored,
    fun n code p r rs bound lt old => execPoolBinAgeDue_of_aged bound lt old,
    fun c core sp s1 one served picked awake => execPoolGroupForm_of_one one served picked awake, rfl, rfl,
    fun cores ts one here risk reserves victims => execAtRiskTest_of_one one here risk reserves victims,
    fun some_ short => execStallHint_of_short some_ short, fun g h one => State.hintOf_one one, ?_, ?_, ?_,
    fun v core sp s1 hv hl single ok picked awake => execGroupRestore_of_spot hv hl single ok picked awake⟩
  · intro hl after spliced stage idle quiet splice s1 l1
    have run : exec .launchComplete s = .next (s.completeLaunch l) := by
      show execLaunchComplete s = _
      unfold execLaunchComplete
      simp only [show s.launch? s.ev.obj s.ev.sub = some l from hl]
    rw [run, State.completeLaunch_ends hl after spliced stage idle quiet splice]
  · intro hl after spliced free s1
    have run := execConsumerDeferredTake_of_ready hl after spliced free
    exact ⟨fun plain => run.trans (congrArg _ (State.takeDeferred_plain plain)),
      fun bs s2 pool status read => run.trans (congrArg _ (State.takeDeferred_pool pool status read))⟩
  · intro g t0 t hg ht0 whole mine s1 ht s2
    exact execGroupPreempt_of_team hg ht0 ht

end Sys2Proof.Machine

namespace Sys2Proof.Machine

open Sys2Proof

/-! ### Writes of engines at their homes -/

theorem HomeFrame.engineWrite (s : State) (gid : Option Nat) (pa : Nat) (bs : List Byte) (origin : Nat) :
    HomeFrame s (s.engineWrite gid pa bs origin) := by
  unfold State.engineWrite
  exact .foldl _ (fun u ln => .writeAtHome u ln _ rfl) _ s

theorem HomeFrame.tenantWrite (s : State) (tenant a : Nat) (bs : List Byte) (origin : Nat) :
    HomeFrame s (s.tenantWrite tenant a bs origin).2 := by
  unfold State.tenantWrite
  split
  · exact .refl s
  · exact List.foldlRecOn (motive := fun x : State × List Byte => HomeFrame s x.1) _ _ (.refl s) fun x hx p _ =>
      hx.trans (.engineWrite x.1 none p.1 _ origin)

theorem HomeFrame.cameras {s t : State} (h : HomeFrame s t) : t.cameras = s.cameras := (congrArg State.cameras h.rest :)

/-! ### The texture port (O48) -/

section TexturePort

variable {s : State} {t : Team} {q : TexReq}

theorem State.endFill_tex (s : State) (team line : Nat) : (s.endFill team line).tex = s.tex :=
  (apply_ite State.tex _ _ _).trans (ite_self _)

theorem State.writeRecord_tex (s : State) (q : TexReq) (vals : List Nat) (stat : W64) :
    (s.writeRecord q vals stat).tex =
      updWhere (fun (x : TexReq) => x.team == q.team) (fun _ => { q with stat := some stat }) s.tex :=
  congrArg (updWhere (fun (x : TexReq) => x.team == q.team) (fun _ => { q with stat := some stat }))
    (State.endFill_tex (s.modTeam q.team _) q.team (field q.val 17 0 / 128))

theorem execTextureRequestServe_of_stat {w : W64} (ht : s.team? s.ev.obj = some t)
    (hq : s.tex.find? (fun (x : TexReq) => x.team == t.id) = some q) (goes : q.wait = false) (stat : q.stat = some w) :
    execTextureRequestServe s = .next (s.finishTex t q w) := by
  have listed : s.tex.any (fun (x : TexReq) => x.team == t.id) = true :=
    List.any_eq_true.2 ⟨q, List.mem_of_find?_eq_some hq, List.find?_some (p := fun x : TexReq => x.team == t.id) hq⟩
  unfold execTextureRequestServe
  simp only [ht, listed, if_true, hq, goes, stat, Option.isNone_some, Bool.false_eq_true, if_false]

theorem execTextureRequestServe_without_base (ht : s.team? s.ev.obj = some t) (one : s.tex = [q]) (team : q.team = t.id)
    (goes : q.wait = false) (stat : q.stat = none) (failed : q.failed = 0) (base : t.texbase = 0) :
    execTextureRequestServe s = .next
      ((s.writeRecord q [] (texStatus q 1 0 [])).finishTex t { q with stat := some (texStatus q 1 0 []) } (texStatus q 1 0 [])) := by
  have here : (q.team == t.id) = true := beq_iff_eq.2 team
  have listed : s.tex.any (fun (x : TexReq) => x.team == t.id) = true := by rw [one, List.any_cons, here, Bool.true_or]
  have found : s.tex.find? (fun (x : TexReq) => x.team == t.id) = some q := by rw [one, List.find?_cons_of_pos (p := fun x : TexReq => x.team == t.id) here]
  have served : s.serveTex t q = s.writeRecord q [] (texStatus q 1 0 []) := by
    unfold State.serveTex
    simp only [failed, base, bne_self_eq_false, beq_self_eq_true, Bool.false_eq_true, if_false, if_true]
  have after : (s.writeRecord q [] (texStatus q 1 0 [])).tex.find? (fun (x : TexReq) => x.team == t.id) =
      some { q with stat := some (texStatus q 1 0 []) } := by
    have changed : updWhere (fun (x : TexReq) => x.team == q.team) (fun _ => { q with stat := some (texStatus q 1 0 []) }) [q] =
        [{ q with stat := some (texStatus q 1 0 []) }] := congrArg (fun x => [x]) (if_pos (beq_self_eq_true _))
    rw [State.writeRecord_tex, one, changed]
    exact List.find?_cons_of_pos (p := fun x : TexReq => x.team == t.id) here
  unfold execTextureRequestServe
  simp only [ht, listed, if_true, found, goes, stat, served, after, Option.isNone_none, Bool.false_eq_true, if_false]

end TexturePort

/-! ### Cameras and sessions (O48) -/

section Cameras

variable {s : State} {c : Camera}

theorem execSplatApply_of_first {sp : Splat} (h : s.splats.find? (fun (x : Splat) => x.die == s.ev.obj) = some sp) :
    execSplatApply s = .next ((({ s with splats := s.splats.erase sp }.modCamera sp.camera (fun c =>
      c.applyAt sp s.time)).complete sp.gid s.time).engineDone sp.team sp.queue sp.taken) := by
  unfold execSplatApply
  simp only [h]
  rfl

theorem execSplatPortEntry_of_first {t : Team} {q : Nat} {e : QEntry} {s1 : State} (ht : s.team? s.ev.obj = some t)
    (runs : s.preempting t.id = false) (bound : t.bound? 8 = some q) (took : s.engineTake t.id q true = some (e, s1))
    (empty : (s1.team t.id).splat = []) :
    execSplatPortEntry s = .next (s1.modTeam t.id (fun t => { t with splat := [e] })) := by
  have own : s.team s.ev.obj = t := by
    rw [State.team, ht]
    rfl
  have short : ∀ b : Bool, 0 < (if b then 8 else 4) := fun b => by split <;> decide
  unfold execSplatPortEntry
  simp only [own, runs, bound, took, empty, List.nil_append, List.filter_cons, beq_self_eq_true, Bool.and_self, if_true,
    List.filter_nil, List.length_nil, short, Bool.false_eq_true, if_false]

theorem State.num_of_camera? {n : Nat} (h : s.camera? n = some c) : c.num = n := beq_iff_eq.1 (List.find?_some h :)

theorem State.camera?_modCamera {n : Nat} {F : Camera → Camera} (hF : ∀ c, (F c).num = c.num) (h : s.camera? n = some c) :
    (s.modCamera n F).camera? n = some (F c) := by
  unfold State.camera? State.modCamera
  simp only
  rw [find_updWhere _ _ _ _ fun x => by rw [hF], show s.cameras.find? (fun c => c.num == n) = some c from h]
  exact congrArg some (if_pos (List.find?_some h))

theorem Camera.reconfigure_num (c : Camera) (t : Nat) : (c.reconfigure t).num = c.num := by
  unfold Camera.reconfigure
  split <;> rfl

/-- A frame whose last row has closed on a camera that is on. -/
theorem frameClose_due (cen : c.cen = true) (closed : c.desc.lastClose c.frame ≤ s.time) :
    (!c.cen || decide (s.time < c.desc.lastClose c.frame)) = false := by
  rw [cen, decide_eq_false (Nat.not_lt.2 closed)]
  rfl

theorem execFrameClose_drops (hc : s.camera? s.ev.obj = some c) (cen : c.cen = true)
    (closed : c.desc.lastClose c.frame ≤ s.time) (two : 2 ≤ c.frame) (busy : s.developing c (c.frame - 2) = true) :
    execFrameClose s = .next (s.modCamera c.num (fun x =>
      ({ x.zeroSet c.frame with
         frame := c.frame + 1
         framedrop := satInc x.framedrop }).reconfigure s.time)) := by
  have drops : (decide (2 ≤ c.frame) && s.developing c (c.frame - 2)) = true := by rw [decide_eq_true two, busy]; rfl
  unfold execFrameClose
  simp only [hc, frameClose_due cen closed, drops, Bool.false_eq_true, if_false, if_true]

/-- A camera whose frame `k` is folded. -/
def Camera.folded (c : Camera) (k time : Nat) (f : Fold) : Camera :=
  ({ c.zeroSet k with
     frame := k + 1
     folds := c.folds ++ [f]
     closes := c.closes ++ [c.desc.opens k 0 + c.desc.expo]
     splats := 0
     nandrop := 0
     outdrop := 0
     gapdrop := 0
     framedrop := 0 } : Camera).reconfigure time

theorem execFrameClose_folds (hc : s.camera? s.ev.obj = some c) (cen : c.cen = true)
    (closed : c.desc.lastClose c.frame ≤ s.time) (first : c.frame < 2) (same : c.next = none) :
    Completes (execFrameClose s) (fun t => ∃ c', t.camera? s.ev.obj = some c' ∧
      c'.frame = c.frame + 1 ∧ c'.splats = 0 ∧ c'.gapdrop = 0 ∧
      ∃ f, c'.folds = c.folds ++ [f] ∧ f.frame = c.frame ∧ f.splats = c.splats) := by
  have goes : (decide (2 ≤ c.frame) && s.developing c (c.frame - 2)) = false := by
    rw [decide_eq_false (Nat.not_le.2 first), Bool.false_and]
  have num := State.num_of_camera? hc
  obtain ⟨u, f, n, cameras, frame, splats, run⟩ : ∃ (u : State) (f : Fold) (n : Nat), u.cameras = s.cameras ∧ f.frame = c.frame ∧
      f.splats = c.splats ∧ execFrameClose s = .next (u.modCamera c.num (fun c' => c'.folded c.frame n f)) := by
    have written := HomeFrame.tenantWrite s c.tenant (if c.frame % 2 == 0 then c.desc.plane0 else c.desc.plane1) (c.plane c.frame)
      (foldMark c.num c.frame)
    unfold execFrameClose
    simp only [hc, frameClose_due cen closed, goes, Bool.false_eq_true, if_false]
    refine ⟨(s.tenantWrite c.tenant (if c.frame % 2 == 0 then c.desc.plane0 else c.desc.plane1) (c.plane c.frame)
      (foldMark c.num c.frame)).2.drawNat.2, _, _, written.cameras, ?_, ?_, rfl⟩ <;> rfl
  have here : u.camera? c.num = some c := by
    rw [State.camera?, cameras, num]
    exact hc
  refine ⟨_, run, c.folded c.frame n f, ?_, ?_⟩
  · rw [← num]
    exact State.camera?_modCamera (fun c' => Camera.reconfigure_num _ _) here
  · have plain : c.folded c.frame n f = { c.zeroSet c.frame with
        frame := c.frame + 1
        folds := c.folds ++ [f]
        closes := c.closes ++ [c.desc.opens c.frame 0 + c.desc.expo]
        splats := 0
        nandrop := 0
        outdrop := 0
        gapdrop := 0
        framedrop := 0 } := by
      unfold Camera.folded Camera.reconfigure Camera.zeroSet
      simp only [same]
    rw [plain]
    exact ⟨rfl, rfl, rfl, f, rfl, frame, splats⟩

/-- The state once the record of a fold is written. -/
def State.foldRecorded (s : State) (c : Camera) (x : Fold) (r : List Fold) : State :=
  (s.tenantWrite c.tenant (x.desc.frec + 64 * (x.frame % 2)) (x.record c.num s.time)).2.modCamera c.num (fun c => { c with folds := r })

theorem execFoldEnd_of_over {x : Fold} {r : List Fold} (hc : s.camera? s.ev.obj = some c) (folds : c.folds = x :: r)
    (late : x.at_ ≤ s.time) (written : s.originQueued (foldMark c.num x.frame) = false) :
    ((s.foldRecorded c x r).homeRead c.tenant x.desc.devdesc 128 = none → execFoldEnd s = .next (s.foldRecorded c x r)) ∧
    ∀ tm, (s.foldRecorded c x r).homeRead c.tenant x.desc.devdesc 128 = some tm →
      let s2 := (s.foldRecorded c x r).homeLoads c.tenant x.desc.devdesc 128
      let bs := developDesc tm (x.desc.frec + 64 * (x.frame % 2)) (s2.time + x.desc.devdl)
      execFoldEnd s = .next (s2.push [.event .launchTake
        { obj := (bs.getD 0x1D 0).toNat % 2, sub := c.tenant, bytes := bs, nats := [c.num, x.frame] }]) := by
  have due : (decide (s.time < x.at_) || s.originQueued (foldMark c.num x.frame)) = false := by
    rw [decide_eq_false (Nat.not_lt.2 late), written]
    rfl
  unfold execFoldEnd
  simp only [hc, folds, due, Bool.false_eq_true, if_false]
  have state : ((s.tenantWrite c.tenant (x.desc.frec + 64 * (x.frame % 2)) (x.record c.num s.time)).2.modCamera c.num
      (fun c => { c with folds := r })) = s.foldRecorded c x r := rfl
  rw [state]
  exact ⟨fun none_ => by rw [none_], fun tm read => by rw [read]⟩

end Cameras

section Sessions

variable {s : State} {x : Session}

theorem State.session_modSession {n : Nat} {F : Session → Session} (hF : ∀ y, (F y).num = y.num)
    (h : s.sessions.find? (fun (y : Session) => y.num == n) = some x) :
    (s.modSession n F).sessions.find? (fun (y : Session) => y.num == n) = some (F x) := by
  unfold State.modSession
  simp only
  rw [find_updWhere _ _ _ _ fun y => by rw [hF], h]
  exact congrArg some (if_pos (List.find?_some h))

/-- The session that an encoder finds once it has published nothing and worked off some entries. -/
theorem State.session_workOff (hx : s.sessions.find? (fun (y : Session) => y.num == x.num) = some x) (publish : x.publish = []) :
    ∃ y : Session, ((s.publishRing x).workOff x).sessions.find? (fun (y : Session) => y.num == x.num) = some y ∧
      y.entries = x.entries ∧ y.frame = x.frame ∧ y.frameEntries = x.frameEntries := by
  have ring : s.publishRing x = s.modSession x.num (fun y => { y with publish := y.publish.drop 0 }) := by
    unfold State.publishRing
    rw [publish]
    rfl
  have published := State.session_modSession (F := fun y => { y with publish := y.publish.drop 0 }) (fun _ => rfl) hx
  rw [ring]
  exact ⟨_, State.session_modSession (s := (s.modSession x.num (fun y => { y with publish := y.publish.drop 0 })).drawNat.2)
    (F := fun y => { y with buffered := y.buffered -
      (s.modSession x.num (fun y => { y with publish := y.publish.drop 0 })).drawNat.1 % (y.buffered + 1) }) (fun _ => rfl) published,
    rfl, rfl, rfl⟩

theorem State.engineTake_sessions {team q : Nat} {counts : Bool} {e : QEntry} {s1 : State}
    (h : s.engineTake team q counts = some (e, s1)) : s1.sessions = s.sessions := by
  unfold State.engineTake at h
  dsimp only at h
  split at h
  · cases h
  · cases h
    exact List.foldlRecOn (motive := fun u : State => u.sessions = s.sessions) _ _ rfl fun _ hu _ _ => hu

theorem execEncLineTake_of_partial {team q : Nat} {e : QEntry} {s1 : State}
    (hx : s.sessions.find? (fun (x : Session) => x.num == s.ev.obj) = some x) (publish : x.publish = [])
    (source : ((s.publishRing x).workOff x).encSource x.num = some (team, q))
    (took : ((s.publishRing x).workOff x).engineTake team q false = some (e, s1))
    (short : x.entries.length + 1 < x.frameEntries) :
    Completes (execEncLineTake s) (fun t => ∃ y, t.sessions.find? (fun (x : Session) => x.num == s.ev.obj) = some y ∧
      y.entries = x.entries ++ [e.val] ∧ y.frame = x.frame) := by
  have num : x.num = s.ev.obj := beq_iff_eq.1 (List.find?_some hx :)
  obtain ⟨y, hy, entries, frame, size⟩ := State.session_workOff (s := s) (x := x) (by rw [num]; exact hx) publish
  have here : s1.sessions.find? (fun (y : Session) => y.num == x.num) = some y := by
    rw [State.engineTake_sessions took]
    exact hy
  have taken := State.session_modSession (F := fun y => { y with entries := y.entries ++ [e.val], buffered := y.buffered + 1 })
    (fun _ => rfl) here
  have unfinished : ¬ y.frameEntries ≤ (y.entries ++ [e.val]).length := by
    rw [size, entries, List.length_append, List.length_singleton]
    omega
  have run : execEncLineTake s = .next (s1.modSession x.num (fun y =>
      { y with entries := y.entries ++ [e.val], buffered := y.buffered + 1 })) := by
    unfold execEncLineTake
    simp only [hx, source, took, taken]
    exact congrArg Host.Outcome.next (if_neg unfinished)
  rw [num] at taken run
  exact ⟨_, run, _, taken, congrArg (· ++ [e.val]) entries, frame⟩

end Sessions

/-- Settles O48: each event, its conditions met, makes the change that its rules give. -/
theorem texturePortCamerasAndSessions : Obligations.TexturePortCamerasAndSessions := by
  intro s
  refine ⟨fun t q w ht hq goes stat => execTextureRequestServe_of_stat ht hq goes stat,
    fun t q ht one team goes stat failed base => execTextureRequestServe_without_base ht one team goes stat failed base,
    fun sp h => execSplatApply_of_first h,
    fun t q e s1 ht runs bound took empty => execSplatPortEntry_of_first ht runs bound took empty,
    fun c hc cen closed two busy => execFrameClose_drops hc cen closed two busy,
    fun c hc cen closed first same => execFrameClose_folds hc cen closed first same, ?_,
    fun x team q e s1 hx publish source took short => execEncLineTake_of_partial hx publish source took short⟩
  intro c x r hc folds late written va s1
  exact execFoldEnd_of_over hc folds late written

end Sys2Proof.Machine

namespace Sys2Proof.Machine

open Sys2Proof

/-! ### The packets of a host queue: what a packet comes to, by its checks, the barrier and its effect (21 R371) -/

section Packets

variable {s s1 : State} {q : HostQueue} {op : Nat} {uses : List (Nat × Nat)}
  {check : State → HostQueue → List Byte → Option Halt × State} {act : State → HostQueue → List Byte → PacketEnd}
  {reach : State → HostQueue → List Byte → State}

/-- What a checked packet comes to: it waits at the barrier, or takes its effect. -/
def State.packetTaken (s : State) (q : HostQueue) (pk : List Byte) (act : State → HostQueue → List Byte → PacketEnd)
    (reach : State → HostQueue → List Byte → State) : State :=
  if s.barred q pk then (reach s q pk).queueWait q pk
  else match act s q pk with
    | .halt h s => s.haltQueue q h
    | .wait s => s.queueWait q pk
    | .busy line s => s.modQueue q.num (fun q => { q with st := .run, now := some pk, busy := some line })
    | .done s => s.packetDone q pk

theorem State.runPacket_of_checked (here : PacketHere s q op uses) (checked : check s q (s.packet q) = (none, s1)) :
    s.runPacket op check act reach = s1.packetTaken q (s.packet q) act reach := by
  obtain ⟨queue, ⟨live, now, busy⟩, ⟨code, known⟩, clean⟩ := here
  unfold State.runPacket State.packetTaken
  simp only [queue, live, now, busy, Option.getD_none, code, known, clean, checked, Option.isNone_none, Bool.not_true,
    Bool.and_false, Bool.false_eq_true, if_false, if_true, bne_self_eq_false] <;> rfl

theorem State.runPacket_of_refused {h : Halt} (here : PacketHere s q op uses)
    (checked : check s q (s.packet q) = (some h, s1)) : s.runPacket op check act reach = s1.haltQueue q h := by
  obtain ⟨queue, ⟨live, now, busy⟩, ⟨code, known⟩, clean⟩ := here
  unfold State.runPacket
  simp only [queue, live, now, busy, Option.getD_none, code, known, clean, checked, Option.isNone_none, Bool.not_true,
    Bool.and_false, Bool.false_eq_true, if_false, if_true, bne_self_eq_false]

theorem State.runPacket_of_busy {line : Nat} {pk : List Byte} (queue : s.queue? s.ev.obj = some q) (busy : q.busy = some line)
    (now : q.now = some pk) : s.runPacket op check act reach =
      if (s.home line).queue.any (fun w => w.origin == q.mark) then s else s.packetDone q pk := by
  unfold State.runPacket
  simp only [queue, busy, now, Option.getD_some]

theorem State.runPacket_of_unknown (queue : s.queue? s.ev.obj = some q) (live : q.live = true) (now : q.now = none)
    (busy : q.busy = none) (unknown : packetUses (fieldAt (s.packet q) 0 1) = none) :
    s.runPacket op check act reach = s.haltQueue q .unknownOp := by
  unfold State.runPacket
  simp only [queue, live, now, busy, Option.getD_none, unknown, Bool.not_true, Bool.false_eq_true, if_false]

theorem State.runPacket_of_reserved (queue : s.queue? s.ev.obj = some q) (live : q.live = true) (now : q.now = none)
    (busy : q.busy = none) (known : packetUses (fieldAt (s.packet q) 0 1) = some uses) (code : fieldAt (s.packet q) 0 1 = op)
    (unclean : packetReservedOk op uses (s.packet q) = false) :
    s.runPacket op check act reach = s.haltQueue q .reservedNz := by
  unfold State.runPacket
  simp only [queue, live, now, busy, Option.getD_none, code ▸ known, code, unclean, Option.isNone_none, Bool.not_true,
    Bool.not_false, Bool.and_true, Bool.false_eq_true, if_false, if_true, bne_self_eq_false]

theorem State.packetTaken_of_barred {pk : List Byte} (barred : s.barred q pk = true) :
    s.packetTaken q pk act reach = (reach s q pk).queueWait q pk := if_pos barred

theorem State.packetTaken_of_done {pk : List Byte} (free : s.barred q pk = false) (effect : act s q pk = .done s1) :
    s.packetTaken q pk act reach = s1.packetDone q pk := by
  rw [State.packetTaken, free, effect]
  rfl

theorem State.packetTaken_of_wait {pk : List Byte} (free : s.barred q pk = false) (effect : act s q pk = .wait s1) :
    s.packetTaken q pk act reach = s1.queueWait q pk := by
  rw [State.packetTaken, free, effect]
  rfl

theorem State.packetTaken_of_atHome {line : Nat} {pk : List Byte} (free : s.barred q pk = false)
    (effect : act s q pk = .busy line s1) : s.packetTaken q pk act reach =
      s1.modQueue q.num (fun q => { q with st := .run, now := some pk, busy := some line }) := by
  rw [State.packetTaken, free, effect]
  rfl

/-- A packet that passes its checks and that no barrier holds takes its effect. -/
theorem State.runPacket_of_done {s2 : State} (here : PacketHere s q op uses)
    (checked : check s q (s.packet q) = (none, s1)) (free : s1.barred q (s.packet q) = false)
    (effect : act s1 q (s.packet q) = .done s2) : s.runPacket op check act reach = s2.packetDone q (s.packet q) :=
  (State.runPacket_of_checked here checked).trans (State.packetTaken_of_done free effect)

theorem State.checkDescs_two {s2 s3 : State} {a b : Nat} (first : s2.checkDesc q a = (none, s3))
    (second : s3.checkDesc q b = (none, s1)) : s2.checkDescs q [a, b] = (none, s1) := by
  simp only [State.checkDescs, first, second, Option.or_none]

end Packets

/-! ### The packets (21 Table 21-3) -/

section PacketKinds

variable {s s1 : State} {q : HostQueue} {u : List (Nat × Nat)}

theorem execPktLaunch_of_done (here : PacketHere s q 1 u) (checked : s.checkDesc q (fieldAt (s.packet q) 8 8) = (none, s1))
    (free : s1.barred q (s.packet q) = false) :
    execPktLaunch s = .next (State.packetDone { s1 with
      agenda := .event .launchTake { sub := q.tenant, val := w64 (fieldAt (s.packet q) 8 8), aux := q.num + 1 } :: s1.agenda }
      q (s.packet q)) :=
  congrArg Host.Outcome.next (State.runPacket_of_done here checked free rfl)

theorem execPktLaunch_of_barred (here : PacketHere s q 1 u) (checked : s.checkDesc q (fieldAt (s.packet q) 8 8) = (none, s1))
    (barred : s1.barred q (s.packet q) = true) : execPktLaunch s = .next (s1.queueWait q (s.packet q)) :=
  congrArg Host.Outcome.next ((State.runPacket_of_checked here checked).trans (State.packetTaken_of_barred barred))

theorem execPktPair_of_done {pr : List Byte} {s2 s3 : State} (here : PacketHere s q 2 u)
    (allowed : capAllows q.qdata 1 (fieldAt (s.packet q) 8 8) 64 = true)
    (read : s.tenantRead q.tenant (fieldAt (s.packet q) 8 8) 64 = (some pr, s2))
    (first : s2.checkDesc q (fieldAt pr 0 8) = (none, s3)) (second : s3.checkDesc q (fieldAt pr 8 8) = (none, s1))
    (free : s1.barred q (s.packet q) = false) :
    execPktPair s = .next (State.packetDone { s1 with
      agenda := .event .pairTake { sub := q.tenant, val := w64 (fieldAt (s.packet q) 8 8), aux := q.num + 1 } :: s1.agenda }
      q (s.packet q)) := by
  refine congrArg Host.Outcome.next (State.runPacket_of_done (s1 := s1) here ?_ free rfl)
  simp only [allowed, Bool.not_true, Bool.false_eq_true, if_false, read]
  exact State.checkDescs_two first second

section Signal

variable {pa : Nat}

/-- The write of a `SIGNAL` at its home: a store of the payload's value, or an addition of it. -/
def signalWrite (pk : List Byte) (pa : Nat) : WriteOp :=
  if fieldAt pk 24 8 == 0 then .store ((List.range 8).map (fun i => (pa + i, pk.getD (16 + i) 0)))
  else .atom pa 0 2 (w64 (fieldAt pk 16 8))

/-- The state after the write of a `SIGNAL` has been given to its home. -/
def State.signalSent (s : State) (q : HostQueue) (pk : List Byte) (pa : Nat) : State :=
  s.writeAtHome (pa / 128) { op := signalWrite pk pa, origin := q.mark }

/-- The checks of a `SIGNAL` are met. -/
structure SignalChecked (s : State) (q : HostQueue) (s1 : State) (pa : Nat) : Prop where
  allowed : capAllows q.qdata 2 (fieldAt (s.packet q) 8 8) 8 = true
  aligned : fieldAt (s.packet q) 8 8 % 8 = 0
  resolved : s.resolveAccess q.tenant (fieldAt (s.packet q) 8 8) true = (true, s1)
  free : s1.barred q (s.packet q) = false
  mapped : s1.translate q.tenant (fieldAt (s.packet q) 8 8) .write = .ok pa

theorem execPktSignal_of_performed (here : PacketHere s q 3 u) (checked : SignalChecked s q s1 pa)
    (performed : ((s1.signalSent q (s.packet q) pa).home (pa / 128)).queue.any (fun w => w.origin == q.mark) = false) :
    execPktSignal s = .next ((s1.signalSent q (s.packet q) pa).packetDone q (s.packet q)) := by
  obtain ⟨allowed, aligned, resolved, free, mapped⟩ := checked
  refine congrArg Host.Outcome.next (State.runPacket_of_done (s1 := s1) here ?_ free ?_)
  · simp only [allowed, aligned, resolved, Bool.not_true, Bool.false_eq_true, if_false, bne_self_eq_false]
  · simp only [mapped]
    exact if_neg (Bool.eq_false_iff.1 performed)

theorem execPktSignal_of_queued (here : PacketHere s q 3 u) (checked : SignalChecked s q s1 pa)
    (queued : ((s1.signalSent q (s.packet q) pa).home (pa / 128)).queue.any (fun w => w.origin == q.mark) = true) :
    execPktSignal s = .next ((s1.signalSent q (s.packet q) pa).modQueue q.num
      (fun y => { y with st := .run, now := some (s.packet q), busy := some (pa / 128) })) := by
  obtain ⟨allowed, aligned, resolved, free, mapped⟩ := checked
  refine congrArg Host.Outcome.next ((State.runPacket_of_checked (s1 := s1) here ?_).trans
    (State.packetTaken_of_atHome free ?_))
  · simp only [allowed, aligned, resolved, Bool.not_true, Bool.false_eq_true, if_false, bne_self_eq_false]
  · simp only [mapped]
    exact if_pos queued

theorem execPktSignal_of_atHome {line : Nat} {pk : List Byte} (queue : s.queue? s.ev.obj = some q) (busy : q.busy = some line)
    (now : q.now = some pk) : execPktSignal s =
      .next (if (s.home line).queue.any (fun w => w.origin == q.mark) then s else s.packetDone q pk) :=
  congrArg Host.Outcome.next (State.runPacket_of_busy queue busy now)

end Signal

section Wait

variable {bs : List Byte} {s2 : State}

/-- Whether the word that a `WAIT` reads meets its condition. -/
def waitHolds (pk bs : List Byte) : Bool := waitCond (fieldAt pk 24 1) (w64 (leVal bs)) (w64 (fieldAt pk 16 8))

theorem State.waitMet_of_read {pk : List Byte} (read : s.tenantRead q.tenant (fieldAt pk 8 8) 8 = (some bs, s1)) :
    s.waitMet q pk = (some (if waitHolds pk bs then some (w64 (leVal bs)) else none), s1) := by
  unfold State.waitMet
  rw [read]
  rfl

/-- The checks of a `WAIT` are met, and its word can be read. -/
structure WaitChecked (s : State) (q : HostQueue) (s1 : State) (bs : List Byte) (s2 : State) : Prop where
  allowed : capAllows q.qdata 1 (fieldAt (s.packet q) 8 8) 8 = true
  aligned : fieldAt (s.packet q) 8 8 % 8 = 0
  resolved : s.resolveAccess q.tenant (fieldAt (s.packet q) 8 8) false = (true, s1)
  read : s1.tenantRead q.tenant (fieldAt (s.packet q) 8 8) 8 = (some bs, s2)

theorem execPktWait_of_free (here : PacketHere s q 4 u) (checked : WaitChecked s q s1 bs s2)
    (free : s1.barred q (s.packet q) = false) :
    execPktWait s = .next (if waitHolds (s.packet q) bs || !q.seen.isEmpty then s2.packetDone q (s.packet q)
      else s2.queueWait q (s.packet q)) := by
  obtain ⟨allowed, aligned, resolved, read⟩ := checked
  refine congrArg Host.Outcome.next ((State.runPacket_of_checked (s1 := s1) here ?_).trans ?_)
  · simp only [allowed, aligned, resolved, Bool.not_true, Bool.false_eq_true, if_false, bne_self_eq_false]
  · rw [State.packetTaken, free, State.waitMet_of_read read]
    cases waitHolds (s.packet q) bs <;> cases q.seen.isEmpty <;> rfl

theorem execPktWait_of_barred (here : PacketHere s q 4 u) (checked : WaitChecked s q s1 bs s2)
    (barred : s1.barred q (s.packet q) = true) :
    execPktWait s = .next ((if waitHolds (s.packet q) bs then
      s2.modQueue q.num (fun y => { y with seen := y.seen ++ [w64 (leVal bs)] }) else s2).queueWait q (s.packet q)) := by
  obtain ⟨allowed, aligned, resolved, read⟩ := checked
  refine congrArg Host.Outcome.next ((State.runPacket_of_checked (s1 := s1) here ?_).trans
    ((State.packetTaken_of_barred barred).trans ?_))
  · simp only [allowed, aligned, resolved, Bool.not_true, Bool.false_eq_true, if_false, bne_self_eq_false]
  · rw [State.waitMet_of_read read]
    cases waitHolds (s.packet q) bs <;> rfl

end Wait

section Kill

theorem execPktKill_of_live {l : Launch} (here : PacketHere s q 5 u) (free : s.barred q (s.packet q) = false)
    (found : s.launch? (fieldAt (s.packet q) 16 8) (fieldAt (s.packet q) 8 8) = some l) (alone : l.spliced = false)
    (own : l.tenant = q.tenant) (live : l.ended = false) (stays : s.endsNow l = false) :
    execPktKill s = .next ((s.abortLaunch l.die l.num 9).packetDone q (s.packet q)) := by
  refine congrArg Host.Outcome.next (State.runPacket_of_done (s1 := s) here rfl free ?_)
  simp only [found, alone, own, live, stays, bne_self_eq_false, Bool.or_self, Bool.false_eq_true, if_false]

theorem execPktKill_of_none (here : PacketHere s q 5 u) (free : s.barred q (s.packet q) = false)
    (absent : s.launch? (fieldAt (s.packet q) 16 8) (fieldAt (s.packet q) 8 8) = none) :
    execPktKill s = .next (s.packetDone q (s.packet q)) := by
  refine congrArg Host.Outcome.next (State.runPacket_of_done (s1 := s) here rfl free ?_)
  simp only [absent]

end Kill

section Camera

theorem State.cameraPacket_of_read {bs rb pk : List Byte} {s2 : State}
    (read : s.tenantRead q.tenant (fieldAt pk 16 8) 104 = (some bs, s1))
    (granted : Sparse.get 0 s1.grants (fieldAt pk 8 1) = q.tenant + 1) (ok : cameraDescOk q.tenant bs = true)
    (response : s1.tenantRead q.tenant (CameraDesc.ofBytes bs).resp
      (4 * ((CameraDesc.ofBytes bs).c * (CameraDesc.ofBytes bs).s)) = (some rb, s2)) :
    s.cameraPacket q pk = (some (CameraDesc.ofBytes bs, fieldAt bs 5 1 % 2 == 1, wordsOf rb), s2) := by
  have given : s1.mediaGranted (fieldAt pk 8 1) q.tenant = true := beq_iff_eq.2 granted
  unfold State.cameraPacket
  simp only [read, given, ok, response, Bool.not_true, Bool.or_self, Bool.false_eq_true, if_false]

theorem execPktCamera_of_running {x y : CameraDesc × Bool × List W32} {s2 : State} {c : Camera} (here : PacketHere s q 6 u)
    (allowed : capAllows q.qdata 1 (fieldAt (s.packet q) 16 8) 104 = true)
    (checked : s.cameraPacket q (s.packet q) = (some x, s1)) (free : s1.barred q (s.packet q) = false)
    (again : s1.cameraPacket q (s.packet q) = (some y, s2)) (camera : s2.camera? (fieldAt (s.packet q) 8 1) = some c)
    (running : c.cen = true) :
    execPktCamera s = .next ((s2.modCamera (fieldAt (s.packet q) 8 1)
      (fun c => { c with next := some y })).packetDone q (s.packet q)) := by
  refine congrArg Host.Outcome.next (State.runPacket_of_done (s1 := s1) here ?_ free ?_)
  · simp only [allowed, checked, Bool.not_true, Bool.false_eq_true, if_false]
  · simp only [again, camera, running, if_true]

theorem execPktCamera_of_bad (here : PacketHere s q 6 u)
    (allowed : capAllows q.qdata 1 (fieldAt (s.packet q) 16 8) 104 = true)
    (checked : s.cameraPacket q (s.packet q) = (none, s1)) : execPktCamera s = .next (s1.haltQueue q .argBad) := by
  refine congrArg Host.Outcome.next (State.runPacket_of_refused (s1 := s1) here ?_)
  simp only [allowed, checked, Bool.not_true, Bool.false_eq_true, if_false]

end Camera

/-- The session that a `SESSION` packet describes. -/
def sessionOf (q : HostQueue) (pk : List Byte) : Session :=
  { num := fieldAt pk 8 1, tenant := q.tenant, hevc := fieldAt pk 9 1 % 2 == 1, w := fieldAt pk 16 2,
    h := fieldAt pk 18 2, camera := fieldAt pk 10 1, encdl := fieldAt pk 24 8, ring := fieldAt pk 32 8, bytes := fieldAt pk 40 8 }

theorem execPktSession_of_done (here : PacketHere s q 7 u)
    (allowed : capAllows q.qdata 2 (fieldAt (s.packet q) 32 8) (fieldAt (s.packet q) 40 8) = true)
    (free : s.barred q (s.packet q) = false) (granted : Sparse.get 0 s.grants (256 + fieldAt (s.packet q) 8 1) = q.tenant + 1)
    (ok : sessionOk (fieldAt (s.packet q) 16 2) (fieldAt (s.packet q) 18 2) (fieldAt (s.packet q) 40 8) = true) :
    execPktSession s = .next ((({ s with sessions := s.sessions.filter (fun (z : Session) =>
      z.num != fieldAt (s.packet q) 8 1) ++ [sessionOf q (s.packet q)] } : State).openRingOf
        (sessionOf q (s.packet q))).packetDone q (s.packet q)) := by
  have given : s.mediaGranted (256 + fieldAt (s.packet q) 8 1) q.tenant = true := beq_iff_eq.2 granted
  refine congrArg Host.Outcome.next (State.runPacket_of_done (s1 := s) here ?_ free rfl)
  simp only [allowed, given, ok, Bool.not_true, Bool.false_eq_true, if_false, Bool.and_self, if_true]

theorem execQueueWatchdog_of_due {t : Nat} (queue : s.queue? s.ev.obj = some q) (waits : q.st = .wait t)
    (enabled : s.qwdog ≠ 0) (due : t + 8 * s.qwdog ≤ s.ticks) :
    execQueueWatchdog s = .next (s.haltQueue q .watchdog) := by
  have fires : (s.qwdog != 0 && decide (t + 8 * s.qwdog ≤ s.ticks)) = true := by
    rw [decide_eq_true due, bne_iff_ne.2 enabled]
    rfl
  unfold execQueueWatchdog
  simp only [queue, waits, fires, if_true]

end PacketKinds

/-- Settles O49: each packet whose checks pass takes its effect or waits, and a bad one halts its queue. -/
theorem hostPacketsTakeEffect : Obligations.HostPacketsTakeEffect := by
  intro s s1 q
  refine ⟨fun u here checked free => execPktLaunch_of_done here checked free,
    fun u here checked barred => execPktLaunch_of_barred here checked barred,
    fun u h here checked => congrArg Host.Outcome.next (State.runPacket_of_refused here checked),
    fun u pr s2 s3 here allowed read first second free => execPktPair_of_done here allowed read first second free,
    fun u pa here allowed aligned resolved free mapped =>
      ⟨execPktSignal_of_performed here ⟨allowed, aligned, resolved, free, mapped⟩,
        execPktSignal_of_queued here ⟨allowed, aligned, resolved, free, mapped⟩⟩,
    fun line pk queue busy now => execPktSignal_of_atHome queue busy now,
    fun u bs s2 here allowed aligned resolved free read => execPktWait_of_free here ⟨allowed, aligned, resolved, read⟩ free,
    fun u bs s2 here allowed aligned resolved barred read =>
      execPktWait_of_barred here ⟨allowed, aligned, resolved, read⟩ barred,
    fun u l here free found alone own live stays => execPktKill_of_live here free found alone own live stays,
    fun u here free absent => execPktKill_of_none here free absent,
    fun u bs rb s2 here allowed read granted ok response => State.cameraPacket_of_read read granted ok response,
    fun u x d cen resp s2 c here allowed checked free again camera running =>
      execPktCamera_of_running here allowed checked free again camera running,
    fun u here allowed checked => execPktCamera_of_bad here allowed checked,
    fun u here allowed free granted ok => execPktSession_of_done here allowed free granted ok,
    fun t queue waits enabled due => execQueueWatchdog_of_due queue waits enabled due,
    fun queue live now busy unknown => congrArg Host.Outcome.next (State.runPacket_of_unknown queue live now busy unknown), ?_⟩
  rintro queue live now busy ⟨u, known, unclean⟩ code
  exact congrArg Host.Outcome.next (State.runPacket_of_reserved queue live now busy known code unclean)

end Sys2Proof.Machine

namespace Sys2Proof.Machine

open Sys2Proof

/-! ### Messages that a session admits: their effect, and the acknowledgement (21 R380, R381) -/

section Messages

variable {s : State} {x : Ehps}

theorem Accepted.notSeen (h : Accepted s x) : x.seqs.find? (fun y => y.1 == s.ev.ehp.seq) = none :=
  List.find?_eq_none.2 fun y hy same => h.new y hy (beq_iff_eq.1 same)

/-- An accepted message of a role that is allowed takes its effect and is acknowledged with its reply. -/
theorem State.protected_of_accepted (h : Accepted s x) {role : Role → Bool} {act : State → Ehps → List Byte × State}
    (allowed : role x.role = true) : s.protected_ role act = (act s x).2.acked x s.ev.ehp.seq (act s x).1 := by
  have recent : ¬ s.ev.ehp.seq + 1024 ≤ x.top := Nat.not_le.2 h.recent
  unfold State.protected_
  simp only [h.here, h.valid, allowed, Bool.not_true, Bool.or_self, Bool.false_eq_true, if_false, h.notSeen, recent]
  rfl

section Operator

variable (h : Accepted s x) (operator : x.role = .operator)

include h operator

theorem State.protected_of_operator {act : State → Ehps → List Byte × State} :
    s.protected_ isOperator act = (act s x).2.acked x s.ev.ehp.seq (act s x).1 :=
  State.protected_of_accepted h (by rw [operator]; rfl)

variable (ready : s.step = .ready)

include ready

/-- What an operator's message does to the state stands in the acknowledged state. -/
theorem State.operatorDoes_of_accepted {f : State → State} {t : State} (effect : f s = t) :
    s.operatorDoes f = t.acked x s.ev.ehp.seq [] := by
  rw [State.operatorDoes, ready, ← effect]
  exact (if_neg (by decide)).trans (State.protected_of_operator h operator (act := fun s _ => ([], f s)))

/-! ### Queues (21 R369 to R372) -/

theorem execQctlCreate_of_accepted (num : s.ev.obj < 2 ^ 20) (low : 4 ≤ s.ev.aux) (high : s.ev.aux ≤ 20)
    (aligned : s.ev.val.toNat % (64 * 2 ^ s.ev.aux) = 0) (unused : s.queue? s.ev.obj = none) :
    execQctlCreate s = .next (State.acked { s.drawWord.2 with queues := s.queues ++ [
      { num := s.ev.obj, tenant := s.ev.sub, log2 := s.ev.aux,
        ringCap := { tag := true, otype := 1, perm := 1, len := 64 * 2 ^ s.ev.aux, base := s.ev.val.toNat }
        stateCap := { tag := true, otype := 2, perm := 3, len := 64, base := s.drawWord.1.toNat }
        qdata := { s.ev.cap with tag := true, otype := 0 } }] } x s.ev.ehp.seq []) := by
  refine congrArg Host.Outcome.next (State.operatorDoes_of_accepted h operator ready (if_neg ?_))
  simp only [unused, aligned, Option.isSome_none, bne_self_eq_false, Bool.or_false, Bool.or_eq_true, decide_eq_true_eq]
  omega

theorem execDoorbell_of_accepted {q : HostQueue} (queue : s.queue? s.ev.obj = some q) :
    execDoorbell s = .next ((s.ring q s.ev.val.toNat).acked x s.ev.ehp.seq []) := by
  have run : execDoorbell s = .next (s.protected_ (fun r => match r with
    | .operator => true
    | .tenant t => (s.queue? s.ev.obj).any (fun q => q.tenant == t)) (fun s' _ => ([], match s'.queue? s.ev.obj with
    | none => s'
    | some q => s'.ring q s.ev.val.toNat))) := if_neg (by rw [ready]; decide)
  rw [run, State.protected_of_accepted h (by rw [operator])]
  simp only [queue]

theorem execDoorbell_of_room {q : HostQueue} (queue : s.queue? s.ev.obj = some q) (low : q.ri ≤ s.ev.val.toNat)
    (high : s.ev.val.toNat ≤ q.ri + 2 ^ q.log2) : execDoorbell s = .next (State.acked (s.modQueue q.num (fun y =>
      { y with
        wi := s.ev.val.toNat
        st := if y.st == .empty && y.ri < s.ev.val.toNat then .run else y.st })) x s.ev.ehp.seq []) := by
  rw [execDoorbell_of_accepted h operator ready queue, State.ring,
    if_neg (by simp only [Bool.or_eq_true, decide_eq_true_eq]; omega)]

theorem execDoorbell_of_full {q : HostQueue} (queue : s.queue? s.ev.obj = some q) (full : q.ri + 2 ^ q.log2 < s.ev.val.toNat) :
    execDoorbell s = .next ((s.haltQueue q .indexBad).acked x s.ev.ehp.seq []) := by
  rw [execDoorbell_of_accepted h operator ready queue, State.ring,
    if_pos (by simp only [Bool.or_eq_true, decide_eq_true_eq]; omega)]

/-! ### Management registers (00 R5, 22 R393) -/

theorem execMread_of_port {p : Nat} (port : portAt s.ev.obj = some p) : execMread s = .next (s.acked x s.ev.ehp.seq
    (leOf 8 (((s.ports.find? (fun (y : Port) => y.num == p)).map (fun y => y.status s.ticks (s.relayBit y))).getD 0))) := by
  have run : execMread s = .next (s.protected_ (fun r => match r with
    | .operator => true
    | .tenant t => s.ev.obj < (s.errors.filter (fun (e : ErrorRec) => e.tenant == t)).length) (fun s' x => match x.role with
    | .operator => s'.mgmtRead s.ev.obj
    | .tenant t => ((((s'.errors.filter (fun (e : ErrorRec) => e.tenant == t))[s.ev.obj]?).map ErrorRec.bytes).getD [], s'))) :=
    if_neg (by rw [ready]; decide)
  have value : s.mgmtRead s.ev.obj = (leOf 8 (((s.ports.find? (fun (y : Port) => y.num == p)).map
      (fun y => y.status s.ticks (s.relayBit y))).getD 0), s) := by
    rw [State.mgmtRead, port]
  rw [run, State.protected_of_accepted h (by rw [operator])]
  simp only [operator, value]

theorem execMwrite_of_accepted : execMwrite s = .next (State.acked (match portAt s.ev.obj, settingAt s.ev.obj with
    | some _, _ => if s.ev.val &&& portReserved ≠ 0 then s.report { sev := 1, src := 11 } else s
    | none, some r => s.setSetting r s.ev.val.toNat
    | none, none => s) x s.ev.ehp.seq []) := by
  refine congrArg Host.Outcome.next (State.operatorDoes_of_accepted h operator ready ?_)
  cases portAt s.ev.obj with
  | some p => simp only [bne_iff_ne]
  | none => cases settingAt s.ev.obj <;> rfl

theorem execMwrite_of_reserved {p : Nat} (port : portAt s.ev.obj = some p) (bits : s.ev.val &&& portReserved ≠ 0) :
    execMwrite s = .next ((s.report { sev := 1, src := 11 }).acked x s.ev.ehp.seq []) := by
  rw [execMwrite_of_accepted h operator ready, port]
  simp only [if_pos bits]

theorem execMwrite_of_port {p : Nat} (port : portAt s.ev.obj = some p) (clean : s.ev.val &&& portReserved = 0) :
    execMwrite s = .next (s.acked x s.ev.ehp.seq []) := by
  rw [execMwrite_of_accepted h operator ready, port]
  simp only [if_neg (not_not_intro clean)]

theorem execMwriteBootConfirm_of_trial {i t : Nat} (running : s.running = some i) (trial : s.trialAt = some t)
    (slot : (s.slots.getD i {}).st = .trial) (intime : s.ticks ≤ t + 4800000000000) :
    execMwriteBootConfirm s = .next (State.acked { s with
      slots := modAt (fun y => { y with st := .current })
        (s.slots.map (fun (y : BootSlot) => if y.st == .current then { y with st := .old } else y)) i
      trialAt := none } x s.ev.ehp.seq []) := by
  refine congrArg Host.Outcome.next (State.operatorDoes_of_accepted h operator ready ?_)
  have late : ¬ t + 4800000000000 < s.ticks := Nat.not_lt.2 intime
  simp only [running, trial, slot, late, bne_self_eq_false, decide_false, Bool.or_self, Bool.false_eq_true, if_false]

/-! ### Debug sessions (21 R377) -/

theorem execDebugAttach_of_free (free : s.debugOf s.ev.obj = none) : execDebugAttach s = .next (State.acked { s with
    debugs := s.debugs ++ [(s.ev.ehp.session, s.ev.obj)] } x s.ev.ehp.seq []) := by
  have fresh : s.debugs.contains (s.ev.ehp.session, s.ev.obj) = false := by
    refine Bool.eq_false_iff.2 fun mem => ?_
    have absent := List.find?_eq_none.1 (Option.map_eq_none_iff.1 free) _ (List.contains_iff_mem.1 mem)
    exact absent (beq_self_eq_true _)
  refine congrArg Host.Outcome.next (State.operatorDoes_of_accepted h operator ready ?_)
  simp only [fresh, free, Option.isSome_none, Bool.false_eq_true, if_false]

theorem execDebugAttach_of_other {y : Nat} (other : s.debugOf s.ev.obj = some y)
    (fresh : s.debugs.contains (s.ev.ehp.session, s.ev.obj) = false) : execDebugAttach s = .next (State.acked {
      s.detach s.ev.obj with
      debugs := (s.detach s.ev.obj).debugs ++ [(s.ev.ehp.session, s.ev.obj)] } x s.ev.ehp.seq []) := by
  refine congrArg Host.Outcome.next (State.operatorDoes_of_accepted h operator ready ?_)
  simp only [fresh, other, Option.isSome_some, Bool.false_eq_true, if_false, if_true]

theorem execDebugResume_of_delivered (delivered : s.delivered.contains s.ev.obj = true) :
    execDebugResume s = .next ((State.resumeTrap { s with
      delivered := s.delivered.filter (· != s.ev.obj) } s.ev.obj s.ev.pcs).acked x s.ev.ehp.seq []) :=
  congrArg Host.Outcome.next (State.operatorDoes_of_accepted h operator ready (if_pos delivered))

theorem execDebugResume_of_absent (absent : s.delivered.contains s.ev.obj = false) :
    execDebugResume s = .next (s.acked x s.ev.ehp.seq []) :=
  congrArg Host.Outcome.next (State.operatorDoes_of_accepted h operator ready (if_neg (Bool.eq_false_iff.1 absent)))

theorem execDebugEndGrid_of_delivered (delivered : s.delivered.contains s.ev.obj = true) :
    execDebugEndGrid s = .next ((s.endDelivered s.ev.obj).acked x s.ev.ehp.seq []) :=
  congrArg Host.Outcome.next (State.operatorDoes_of_accepted h operator ready (if_pos delivered))

end Operator

end Messages

section Settings

variable (s : State) (v : Nat)

theorem State.setSetting_plim : s.setSetting .plim v = if 1200 ≤ v ∧ v ≤ 2600 then { s with plim := v } else s := by
  simp only [State.setSetting, Bool.and_eq_true, decide_eq_true_eq]

theorem State.setSetting_idle : s.setSetting .idle v = if 1000 ≤ v ∧ v ≤ 1000000000 then { s with idle := v } else s := by
  simp only [State.setSetting, Bool.and_eq_true, decide_eq_true_eq]

theorem State.setSetting_leaselen (small : v < 2 ^ 16) :
    s.setSetting .leaselen v = if 64 ≤ v then { s with leaselen := w64 v } else s := by
  simp only [State.setSetting, if_neg (Nat.not_le.2 small)]

end Settings

theorem State.detach_of_none {s : State} (t : Nat) (none : s.delivered = []) :
    s.detach t = { s with debugs := s.debugs.filter (fun y => y.2 != t) } := by
  unfold State.detach
  rw [none]
  rfl

/-- Settles O50: an accepted message of the operator takes its effect, and is acknowledged. -/
theorem operatorMessages : Obligations.OperatorMessages := by
  intro s x h operator ready
  have does {f : State → State} : s.operatorDoes f = (f s).acked x s.ev.ehp.seq [] :=
    State.operatorDoes_of_accepted h operator ready rfl
  refine ⟨fun num low high aligned unused => execQctlCreate_of_accepted h operator ready num low high aligned unused,
    congrArg Host.Outcome.next does, congrArg Host.Outcome.next does,
    fun q queue low high => execDoorbell_of_room h operator ready queue low high,
    fun q queue full => execDoorbell_of_full h operator ready queue full,
    fun p port => execMread_of_port h operator ready port,
    fun p port bits => execMwrite_of_reserved h operator ready port bits,
    fun p port clean => execMwrite_of_port h operator ready port clean,
    execMwrite_of_accepted h operator ready,
    fun v => ⟨s.setSetting_plim v, s.setSetting_idle v, s.setSetting_leaselen v⟩,
    congrArg Host.Outcome.next (State.protected_of_operator h operator),
    fun i t running trial slot intime => execMwriteBootConfirm_of_trial h operator ready running trial slot intime,
    fun free => execDebugAttach_of_free h operator ready free,
    fun y other fresh => execDebugAttach_of_other h operator ready other fresh,
    congrArg Host.Outcome.next does,
    fun delivered => execDebugResume_of_delivered h operator ready delivered,
    fun absent => execDebugResume_of_absent h operator ready absent,
    fun delivered => execDebugEndGrid_of_delivered h operator ready delivered,
    State.detach_of_none _,
    congrArg Host.Outcome.next (State.protected_of_operator h operator)⟩

end Sys2Proof.Machine

namespace Sys2Proof.Machine

open Sys2Proof

/-! ### The host link: frames, messages, their acknowledgements and repeats (21 R379 to R382) -/

section HostLink

variable {s : State} {x : Ehps}

theorem frameAccepted_of_long {bs : List Byte} (long : 9216 < bs.length) : frameAccepted bs = false := by
  unfold frameAccepted
  simp only [decide_eq_false (Nat.not_le.2 long), Bool.false_and]

theorem isPfc_of_long {bs : List Byte} (long : 9216 < bs.length) : isPfc bs = false := by
  unfold isPfc
  simp only [decide_eq_false (Nat.not_le.2 long), Bool.false_and]

theorem execDroppedFrame_of_long (long : 9216 < s.ev.bytes.length) :
    execDroppedFrame s = .next { s with frames := s.frames + 1 } := by
  unfold execDroppedFrame
  simp only [frameAccepted_of_long long, isPfc_of_long long, Bool.false_eq_true, if_false]

theorem execImage_of_unknown (unknown : s.session? s.ev.ehp.session = none) :
    execImage s = .next { s with dropped := s.dropped + 1 } := by
  refine congrArg Host.Outcome.next ?_
  unfold State.protected_
  simp only [unknown]
  rfl

theorem execAck_of_admitted {e : Event} (here : s.session? s.ev.ehp.session = some x)
    (admitted : x.admits s.ev.ehp s.ev.bytes = true) (events : s.events = [e]) (session : e.session = s.ev.ehp.session)
    (seq : e.seq = s.ev.ehp.seq) : execAck s = .next { s with events := [] } := by
  unfold execAck
  simp only [here, Option.any_some, admitted, events, session, seq, Bool.not_true, Bool.false_eq_true, if_false,
    List.filter_cons, beq_self_eq_true, Bool.and_self, List.filter_nil]

theorem execAck_of_unknown (unknown : s.session? s.ev.ehp.session = none) :
    execAck s = .next { s with dropped := s.dropped + 1 } := by
  unfold execAck
  simp only [unknown, Option.any_none, Bool.not_false, if_true]
  rfl

section Retransmit

variable {e : Event} (events : s.events = [e]) (seq : e.seq = s.ev.obj) (session : e.session = s.ev.sub)
  (due : e.last + 8000000 ≤ s.ticks)

include events seq session due

theorem execEventRetransmit_again (few : e.sent ≤ 64) : execEventRetransmit s = .next { s with
    events := [{ e with sent := e.sent + 1, last := s.ticks }]
    outbox := s.outbox ++ [.event e.session e.seq e.body] } := by
  have waited : ¬ s.ticks < e.last + 8000000 := Nat.not_lt.2 due
  have open_ : ¬ 64 < e.sent := Nat.not_lt.2 few
  unfold execEventRetransmit
  simp only [events, List.find?_cons, ← seq, ← session, beq_self_eq_true, Bool.and_self, waited, open_, if_false, updWhere,
    List.map_cons, List.map_nil, if_true]

theorem execEventRetransmit_last (many : 64 < e.sent) : execEventRetransmit s = .next { s with events := [] } := by
  have waited : ¬ s.ticks < e.last + 8000000 := Nat.not_lt.2 due
  unfold execEventRetransmit
  simp only [events, List.find?_cons, ← seq, ← session, beq_self_eq_true, Bool.and_self, waited, many, if_false, if_true,
    List.filter_cons, List.filter_nil, Bool.not_true, Bool.false_eq_true]

end Retransmit

section Rdma

variable {r : Region} (pair : s.hostQps.contains s.ev.aux = true)

include pair

theorem execRdmaWrite_of_region {t : Nat} {s1 : State}
    (region : s.region? s.ev.obj s.ev.val.toNat s.ev.bytes.length true = some r)
    (write : s.tenantWrite r.tenant s.ev.val.toNat s.ev.bytes = (some t, s1)) :
    execRdmaWrite s = .next { s1 with outbox := s1.outbox ++ [.rdma []] } := by
  unfold execRdmaWrite
  simp only [pair, region, write, Bool.not_true, Bool.false_eq_true, if_false]

theorem execRdmaWrite_of_none (region : s.region? s.ev.obj s.ev.val.toNat s.ev.bytes.length true = none) :
    execRdmaWrite s = .next { s with outbox := s.outbox ++ [.nak] } := by
  unfold execRdmaWrite
  simp only [pair, region, Bool.not_true, Bool.false_eq_true, if_false]

theorem execRdmaRead_of_region {bs : List Byte} {s1 : State}
    (region : s.region? s.ev.obj s.ev.val.toNat s.ev.sub false = some r)
    (read : s.tenantRead r.tenant s.ev.val.toNat s.ev.sub = (some bs, s1)) :
    execRdmaRead s = .next { s1 with outbox := s1.outbox ++ [.rdma bs] } := by
  unfold execRdmaRead
  simp only [pair, region, read, Bool.not_true, Bool.false_eq_true, if_false]

end Rdma

end HostLink

/-! ### SPDM (21 R384) -/

section Spdm

variable {s : State} {x : Ehps} {n : Nat}

theorem State.spdmSession_of_some (here : s.session? n = some x) : s.spdmSession n = (x, s) := by
  unfold State.spdmSession
  rw [here]

theorem State.known_of_session? (here : s.session? n = some x) : s.ehp.any (fun (y : Ehps) => y.num == n) = true :=
  List.any_eq_true.2 ⟨x, List.mem_of_find?_eq_some here, (List.find?_some here :)⟩

theorem execEhpSpdm_of_request {i : Instr} (here : s.session? s.ev.ehp.session = some x) (clean : s.ev.ehp.clean = true)
    (ready : s.step = .ready) (short : s.ev.bytes.length ≤ 8192) (new : ∀ y ∈ x.seqs, y.1 ≠ s.ev.ehp.seq)
    (recent : x.top < s.ev.ehp.seq + 1024) (request : spdmRequest (fieldAt s.ev.bytes 1 1) = some i)
    (other : i ≠ .keyExchange) : execEhpSpdm s = .next { s.drawNat.2 with
      agenda := .event i { s.ev with obj := s.ev.ehp.session, sub := fieldAt s.ev.bytes 2 1 } :: s.agenda } := by
  have unseen : x.seqs.find? (fun y => y.1 == s.ev.ehp.seq) = none :=
    List.find?_eq_none.2 fun y hy same => new y hy (beq_iff_eq.1 same)
  have inside : ¬ s.ev.ehp.seq + 1024 ≤ x.top := Nat.not_le.2 recent
  have fits : ¬ 8192 < s.ev.bytes.length := Nat.not_lt.2 short
  unfold execEhpSpdm
  simp only [State.spdmSession_of_some here, State.known_of_session? here, clean, ready, fits, unseen, inside, request,
    Bool.not_true, Bool.or_self, decide_false, Bool.false_eq_true, if_false, beq_eq_false_iff_ne.2 other]
  rfl

theorem execGetVersion_of_session (here : s.session? s.ev.obj = some x) :
    execGetVersion s = .next ((s.modEhp s.ev.obj (fun x =>
      { x with
        version := true
        caps := false
        algs := false })).spdmReply 0x04 ([0, 2] ++ leOf 2 0x1200 ++ leOf 2 0x1300)) := by
  unfold execGetVersion
  simp only [State.spdmSession_of_some here]

theorem State.spdmWith_of_ready (here : s.session? s.ev.obj = some x) {ready : Ehps → Bool} (go : State → State)
    (met : (ready x || x.keyed) = true) : s.spdmWith ready go = go s := by
  unfold State.spdmWith
  rw [here]
  exact if_pos met

theorem State.spdmWith_of_early (here : s.session? s.ev.obj = some x) {ready : Ehps → Bool} (go : State → State)
    (early : (ready x || x.keyed) = false) : s.spdmWith ready go = s.spdmError := by
  unfold State.spdmWith
  rw [here]
  exact if_neg (Bool.eq_false_iff.1 early)

/-- A change of a session that keeps its number leaves each session, changed or as it was. -/
theorem State.session?_modEhp {m : Nat} {F : Ehps → Ehps} (hF : ∀ y, (F y).num = y.num) (here : s.session? n = some x) :
    (s.modEhp m F).session? n = some (if x.num == m then F x else x) := by
  unfold State.session? State.modEhp
  simp only
  rw [find_updWhere _ _ _ _ fun y => by rw [hF], show s.ehp.find? (fun y => y.num == n) = some x from here]
  rfl

theorem State.session?_modEhp_same {F : Ehps → Ehps} (hF : ∀ y, (F y).num = y.num) (here : s.session? n = some x) :
    (s.modEhp n F).session? n = some (F x) :=
  (State.session?_modEhp hF here).trans (congrArg some (if_pos (List.find?_some here :)))

/-- An answer goes on record with its session, and leaves each session's role and keys. -/
theorem State.session?_spdmReply (here : s.session? n = some x) (code : Nat) (body : List Byte) :
    ∃ y, (s.spdmReply code body).session? n = some y ∧ y.role = x.role ∧ y.keyed = x.keyed ∧ y.key = x.key := by
  refine ⟨_, State.session?_modEhp (F := fun y => y.note s.ev.ehp.seq _) (fun _ => rfl) here, ?_⟩
  split <;> exact ⟨rfl, rfl, rfl⟩

theorem State.session?_spdmFree (here : s.session? n = some x) (code : Nat) :
    ∃ y, (s.spdmFree code).session? n = some y ∧ y.role = x.role ∧ y.keyed = x.keyed ∧ y.key = x.key :=
  State.session?_spdmReply (s := (s.drawNat.2.drawBytes (s.drawNat.1 % 8189)).2) here code _

theorem execFinish_of_verified (here : s.session? s.ev.obj = some x) (unkeyed : x.keyed = false) (inner : s.ev.obj ≠ 0)
    (verified : s.ev.flag = true) : Completes (execFinish s) (fun t => ∃ y, t.session? s.ev.obj = some y ∧
      y.keyed = true ∧ y.role = x.role ∧ capIs y.key 5 = true) := by
  obtain ⟨key, hkey⟩ : ∃ key : Capability, key = { tag := true, otype := 5, perm := 1, len := 32, base := s.drawWord.1.toNat } :=
    ⟨_, rfl⟩
  have run : execFinish s = .next
      ((s.drawWord.2.modEhp s.ev.obj (fun x => { x with keyed := true, key := key })).spdmFree 0x65) := by
    unfold execFinish
    simp only [here, unkeyed, verified, beq_eq_false_iff_ne.2 inner, Bool.or_self, Bool.false_eq_true, if_false, if_true, hkey]
  obtain ⟨y, hy, role, keyed, held⟩ := State.session?_spdmFree (State.session?_modEhp_same (s := s.drawWord.2)
    (F := fun x => { x with keyed := true, key := key }) (fun _ => rfl) here) 0x65
  refine ⟨_, run, y, hy, keyed, role, ?_⟩
  rw [held, hkey]
  rfl

theorem execKeyExchange_of_ready (unused : s.session? s.ev.obj = none) (inner : s.ev.obj ≠ 0)
    (agreed : s.ehp.any (fun (x : Ehps) => x.num == 0 && x.algs) = true) : Completes (execKeyExchange s) (fun t =>
      ∃ y, t.session? s.ev.obj = some y ∧ y.role = s.ev.role ∧ y.keyed = false) := by
  have free : s.ehp.any (fun (x : Ehps) => x.num == s.ev.obj) = false :=
    List.any_eq_false.2 fun y hy => List.find?_eq_none.1 unused y hy
  obtain ⟨u, hu⟩ : ∃ u : State, u = { s with ehp := s.ehp ++ [
    { num := s.ev.obj, role := s.ev.role, version := true, caps := true, algs := true }] } := ⟨_, rfl⟩
  have run : execKeyExchange s = .next (u.spdmFree 0x64) := by
    unfold execKeyExchange
    simp only [agreed, free, bne_iff_ne.2 inner, Bool.not_false, Bool.and_self, Bool.not_true, Bool.false_eq_true, if_false, hu]
  have joined : u.session? s.ev.obj = some
      { num := s.ev.obj, role := s.ev.role, version := true, caps := true, algs := true } := by
    have absent : s.ehp.find? (fun (x : Ehps) => x.num == s.ev.obj) = none := unused
    simp only [hu, State.session?, List.find?_append, absent, Option.none_or, List.find?_cons, beq_self_eq_true]
  obtain ⟨y, hy, role, keyed, _⟩ := State.session?_spdmFree joined 0x64
  exact ⟨_, run, y, hy, role, keyed⟩

/-! ### The end of a session (21 R377, R384) -/

theorem State.detachAll_of_none (l : List (Nat × Nat)) (none : s.delivered = []) :
    l.foldl (fun (u : State) y => u.detach y.2) s =
      { s with debugs := s.debugs.filter (fun z => l.all (fun y => z.2 != y.2)) } := by
  induction l generalizing s with
  | nil => exact congrArg (fun d => { s with debugs := d }) (List.filter_eq_self.2 fun _ _ => rfl).symm
  | cons y r ih =>
    rw [List.foldl_cons, State.detach_of_none _ none]
    refine (ih (s := { s with debugs := s.debugs.filter (fun z => z.2 != y.2) }) none).trans ?_
    refine congrArg (fun d => { s with debugs := d }) (List.filter_filter.trans ?_)
    simp only [List.all_cons, Bool.and_comm]

theorem execEndSession_of_keyed (here : s.session? s.ev.obj = some x) (keyed : x.keyed = true) (none : s.delivered = []) :
    Completes (execEndSession s) (fun t => t.session? s.ev.obj = .none ∧ (∀ y ∈ t.debugs, y ∈ s.debugs ∧ y.1 ≠ s.ev.obj) ∧
      ∀ e ∈ t.events, e.session ≠ s.ev.obj) := by
  refine ⟨_, congrArg Host.Outcome.next (State.spdmWith_of_ready here _ (by simp only [keyed, Bool.or_self])), ?_, ?_, ?_⟩
  · refine List.find?_eq_none.2 fun y hy same => ?_
    exact bne_iff_ne.1 (List.mem_filter.1 hy).2 (beq_iff_eq.1 same)
  · intro y hy
    have kept := (congrArg State.debugs (State.detachAll_of_none (s := s.spdmReply 0x6C [])
      (s.debugs.filter (fun x => x.1 == s.ev.obj)) none)) ▸ hy
    obtain ⟨old, others⟩ := List.mem_filter.1 kept
    refine ⟨old, fun own => ?_⟩
    have mine : y ∈ s.debugs.filter (fun x => x.1 == s.ev.obj) := List.mem_filter.2 ⟨old, beq_iff_eq.2 own⟩
    exact bne_iff_ne.1 (List.all_eq_true.1 others y mine) rfl
  · intro e he
    exact bne_iff_ne.1 (List.mem_filter.1 he).2

end Spdm

/-- Settles O51: each message of the host link, and each SPDM request in its place, leaves what its rules say. -/
theorem hostLinkAndSpdm : Obligations.HostLinkAndSpdm := by
  intro s x
  refine ⟨rfl, fun long => execDroppedFrame_of_long long, fun unknown => execImage_of_unknown unknown,
    fun e here admitted events session seq => execAck_of_admitted here admitted events session seq,
    fun unknown => execAck_of_unknown unknown,
    fun e events seq session due few => ⟨_, execEventRetransmit_again events seq session due few, rfl, rfl⟩,
    fun e events seq session due many => execEventRetransmit_last events seq session due many,
    fun r t s1 pair region write => execRdmaWrite_of_region pair region write,
    fun r bs s1 pair region read => execRdmaRead_of_region pair region read,
    fun pair region => execRdmaWrite_of_none pair region,
    fun i here clean ready short new recent request other =>
      ⟨_, execEhpSpdm_of_request here clean ready short new recent request other, _, rfl, rfl, rfl, rfl, rfl⟩,
    fun code body => ⟨_, rfl⟩, ?_, fun unused inner agreed => execKeyExchange_of_ready unused inner agreed⟩
  intro here
  have taken {ready : Ehps → Bool} (go : State → State) (met : ready x = true) :
      (Host.Outcome.next (s.spdmWith ready go) : Result) = .next (go s) :=
    congrArg Host.Outcome.next (State.spdmWith_of_ready here go (by rw [met]; rfl))
  refine ⟨execGetVersion_of_session here, fun version => ⟨_, _, rfl, taken _ version⟩, fun caps => taken _ caps,
    fun algs => ⟨taken _ algs, taken _ algs, taken _ algs, _, _, rfl, taken _ algs⟩,
    fun version unkeyed => congrArg Host.Outcome.next (State.spdmWith_of_early here _ (by rw [version, unkeyed]; rfl)),
    fun keyed => ⟨taken _ keyed, fun none => execEndSession_of_keyed here keyed none⟩,
    fun unkeyed inner verified => execFinish_of_verified here unkeyed inner verified⟩

end Sys2Proof.Machine

namespace Sys2Proof.Machine

open Sys2Proof

/-! ### Error records change only the log and what is sent to the host -/

/-- Nothing but the error log, the sessions' event numbers and what is sent to the host differs from `s` in `t`. -/
structure OnlyReports (s t : State) : Prop where
  rest : { t with events := s.events, outbox := s.outbox, ehp := s.ehp, errors := s.errors } = s

theorem OnlyReports.refl (s : State) : OnlyReports s s := ⟨rfl⟩

theorem OnlyReports.trans {s t u : State} (h : OnlyReports s t) (k : OnlyReports t u) : OnlyReports s u :=
  ⟨(congrArg (fun x : State => { x with events := s.events, outbox := s.outbox, ehp := s.ehp, errors := s.errors })
    k.rest).trans h.rest⟩

theorem OnlyReports.sendEvent (s : State) (session : Nat) (body : List Byte) : OnlyReports s (s.sendEvent session body) := by
  unfold State.sendEvent
  split <;> exact ⟨rfl⟩

theorem OnlyReports.sendEvents (l : List Nat) (body : List Byte) (s : State) :
    OnlyReports s (l.foldl (fun (u : State) x => u.sendEvent x body) s) := by
  induction l generalizing s with
  | nil => exact .refl s
  | cons x r ih => exact (OnlyReports.sendEvent s x body).trans (ih _)

theorem OnlyReports.report (s : State) (e : ErrorRec) : OnlyReports s (s.report e) := by
  refine .trans (t := if capIs s.errCap 4 then
    { s with errors := (s.errors ++ [{ e with time := s.time }]).drop ((s.errors.length + 1) - 4096) } else s) ?_
    (.sendEvents _ _ _)
  split <;> exact ⟨rfl⟩

section

variable {s t : State} (h : OnlyReports s t)

include h

theorem OnlyReports.agenda : t.agenda = s.agenda := (congrArg State.agenda h.rest :)

theorem OnlyReports.ports : t.ports = s.ports := (congrArg State.ports h.rest :)

theorem OnlyReports.launches : t.launches = s.launches := (congrArg State.launches h.rest :)

theorem OnlyReports.memory : SameMemory s t :=
  .of_eq (congrArg State.mem h.rest :) (congrArg State.vault h.rest :) (congrArg State.teams h.rest :)

end

theorem State.raiseError_launches (s : State) (e : ErrorRec) (kind loc : Nat) :
    (s.raiseError e kind loc).launches = s.launches := by
  unfold State.raiseError
  dsimp only
  split
  · rfl
  · split <;> exact (OnlyReports.report s _).launches

theorem State.raiseError_memory (s : State) (e : ErrorRec) (kind loc : Nat) : SameMemory s (s.raiseError e kind loc) := by
  unfold State.raiseError
  dsimp only
  split
  · exact .of_eq rfl rfl rfl
  · obtain ⟨mem, vault, stores⟩ := (OnlyReports.report s { e with loc := loc, result := 0 }).memory
    split <;> exact ⟨mem, vault, stores⟩

/-! ### Firmware's work on faults (21 R376) -/

section Faults

variable {s : State} {g : Group}

theorem execFaultResolve_of_head {e : FaultEntry} {r : List FaultEntry} (head : s.faultq.getD s.ev.obj [] = e :: r) :
    execFaultResolve s = .next
      ((State.resolveEntry { s with faultq := setAt s.faultq s.ev.obj r } s.ev.obj e).fillFaults) := by
  unfold execFaultResolve
  simp only [head]

theorem State.resolveGroup_of_unhandled (notPage : g.cause ≠ 6) (notSync : g.cause ≠ 7) (free : s.debugs = []) :
    s.resolveGroup g = s.unhandled g := by
  have nobody : (if s.closing g then none else s.debugOf g.tenant) = none := by
    rw [State.debugOf, free]
    exact ite_self _
  unfold State.resolveGroup
  simp only [beq_eq_false_iff_ne.2 notPage, beq_eq_false_iff_ne.2 notSync, Bool.false_eq_true, if_false, nobody]

theorem execFaultResolve_of_unhandled {r : List FaultEntry} (head : s.faultq.getD s.ev.obj [] = .group g.id :: r)
    (here : s.group? g.id = some g) (stopped : g.stopped = true) (notPage : g.cause ≠ 6) (notSync : g.cause ≠ 7)
    (free : s.debugs = []) : execFaultResolve s = .next
      ((State.unhandled { s with faultq := setAt s.faultq s.ev.obj r } g).fillFaults) := by
  rw [execFaultResolve_of_head head]
  obtain ⟨u, hu⟩ : ∃ u : State, u = { s with faultq := setAt s.faultq s.ev.obj r } := ⟨_, rfl⟩
  have resident : u.group? g.id = some g := by
    rw [hu]
    exact here
  have found : u.anyGroup? g.id = some g := by
    rw [State.anyGroup?, resident]
  have resolved : u.resolveEntry s.ev.obj (.group g.id) = u.unhandled g := by
    unfold State.resolveEntry
    simp only [found, stopped, if_true]
    exact State.resolveGroup_of_unhandled notPage notSync (by rw [hu]; exact free)
  rw [← hu, resolved]

theorem execSyncHoldTimeout_of_due {t : Nat} (held : s.held.find? (fun x => x.1 == s.ev.obj) = some (s.ev.obj, t))
    (here : s.anyGroup? s.ev.obj = some g) (unsynced : s.resynced g = false) (due : t + 80000000000 ≤ s.ticks) :
    execSyncHoldTimeout s = .next (State.unhandled { s with held := s.held.filter (fun y => y.1 != s.ev.obj) } g) := by
  have waited : ¬ s.ticks < t + 80000000000 := Nat.not_lt.2 due
  unfold execSyncHoldTimeout
  simp only [held, here, unsynced, waited, decide_false, Bool.or_self, Bool.false_eq_true, if_false]

end Faults

/-! ### Firmware calls (09 R187, 21 R378) -/

section Calls

variable {s : State} {g : Group} {i dst : Nat} {a v : W64}

theorem lanesOf_one (hi : i < 32) : lanesOf (1#32 <<< i) = [i] :=
  (by decide : ∀ i < 32, lanesOf (1#32 <<< i) = [i]) i hi

/-- The group after the answer to a lane's call for a pair. -/
def Group.answered (g : Group) (i dst : Nat) (v : W64) : Group :=
  { ((g.modLane i (fun l => l.dropCells [.g dst, .g (dst + 1)])).writeG i dst (v.setWidth 32)).writeG i (dst + 1)
      ((v >>> 32).setWidth 32) with wait := .none }

theorem Group.answered_low (hd : dst < 255) : (g.answered i dst v).readG i dst = v.setWidth 32 :=
  (readG_writeG _ _ (by omega) (by omega)).trans ((if_neg (by omega)).trans
    ((readG_writeG _ _ (by omega) (by omega)).trans (if_pos ⟨rfl, rfl⟩)))

theorem Group.answered_high (hd : dst < 255) : (g.answered i dst v).readG i (dst + 1) = (v >>> 32).setWidth 32 :=
  (readG_writeG _ _ (by omega) (by omega)).trans (if_pos ⟨rfl, rfl⟩)

theorem Group.answered_other (hi : i < 32) (hd : dst < 255) {c : RCell} (reg : c.isReg = true) (low : c ≠ .g dst)
    (high : c ≠ .g (dst + 1)) : (g.answered i dst v).readCell i c = g.readCell i c := by
  have misses {r : Nat} (ne : c ≠ .g r) : RCell.hits i (.g r) i c = false := by
    cases c with
    | g r' => exact decide_eq_false fun same => ne (congrArg RCell.g same.2)
    | w r e => rfl
    | p r => rfl
    | k r => rfl
    | q r => rfl
  have valid {r : Nat} (hr : r < 256) : (RCell.g r).isReg = true := decide_eq_true hr
  obtain ⟨g1, h1⟩ : ∃ g1, g1 = g.modLane i (fun l => l.dropCells [.g dst, .g (dst + 1)]) := ⟨_, rfl⟩
  calc (g.answered i dst v).readCell i c
      = ((g1.writeCell i (.g dst) v).writeCell i (.g (dst + 1)) (v >>> 32)).readCell i c := by
        rw [h1]
        cases c <;> rfl
    _ = g1.readCell i c := by
        rw [readCell_writeCell _ _ _ _ hi hi (valid (by omega)) reg, misses high,
          readCell_writeCell _ _ _ _ hi hi (valid (by omega)) reg, misses low]
        rfl
    _ = g.readCell i c := by rw [h1, Group.readCell_modLane]

theorem State.group_answerLane (here : s.group? g.id = some g) :
    ((s.answerLane g.id i dst false 0 v).modGroup g.id (fun g => { g with wait := .none })).group g.id =
      g.answered i dst v := by
  refine State.group_of_group? ((State.group?_modGroup _ g.id (fun g => { g with wait := .none }) fun _ => rfl).trans ?_)
  have dropped := (s.group?_modLane g.id i (fun l => l.dropCells [.g dst, .g (dst + 1)])).trans
    (congrArg (Option.map _) here)
  have written := (State.group?_modGroup (s.modLane g.id i (fun l => l.dropCells [.g dst, .g (dst + 1)])) g.id
    (fun g => (g.writeG i dst (((v.setWidth 32).setWidth 64).setWidth 32)).writeG i (dst + 1) ((v >>> 32).setWidth 32))
    fun _ => rfl).trans (congrArg (Option.map _) dropped)
  refine (congrArg (Option.map _) written).trans (congrArg some ?_)
  unfold Group.answered
  rw [show ((v.setWidth 32).setWidth 64).setWidth 32 = v.setWidth 32 from BitVec.setWidth_setWidth_of_le _ (by decide)]

/-- A group waits for firmware's answer to one lane's call for a pair, and nothing holds the answer back. -/
structure CallWaits (s : State) (g : Group) (i svc dst : Nat) (a : W64) : Prop where
  here : s.group? s.ev.obj = some g
  wait : g.wait = .fwcall (1#32 <<< i) svc dst false 0 [a]
  lane : i < 32
  drained : s.drained g.id = true
  idle : s.engineOwes g.id = false
  back : ∀ l ∈ g.lanes, l.back ≤ s.ticks

theorem execFwcallAnswer_of_one {svc : Nat} (waits : CallWaits s g i svc dst a)
    (answer : s.serviceCall g.tenant svc a = (some v, s)) :
    Completes (execFwcallAnswer s) (fun t => t.group g.id = g.answered i dst v) := by
  obtain ⟨here, wait, lane, drained, idle, back⟩ := waits
  have same : s.group? g.id = some g := by rw [State.id_of_group? here]; exact here
  have returned : g.lanes.any (fun l => s.ticks < l.back) = false :=
    List.any_eq_false.2 fun l hl late => Nat.not_lt.2 (back l hl) (of_decide_eq_true late)
  have answers : s.serviceCalls g.tenant svc [a] = (some [v], s) := by
    simp only [State.serviceCalls, answer]
  refine ⟨(s.answerLane g.id i dst false 0 v).modGroup g.id (fun g => { g with wait := .none }), ?_,
    State.group_answerLane same⟩
  unfold execFwcallAnswer
  simp only [here, wait, drained, idle, returned, answers, lanesOf_one lane, Bool.not_true, Bool.or_self, Bool.false_eq_true,
    if_false, List.zip_cons_cons, List.zip_nil_right, List.foldl_cons, List.foldl_nil]

theorem State.serviceCall_of_unknown {svc : Nat} (notVersion : svc ≠ 0) (notMove : svc ≠ 0x10)
    (unknown : s.services.contains svc = false) (tenant : Nat) (a : W64) :
    s.serviceCall tenant svc a = (some (w64 (2 ^ 64 - 1)), s) := by
  unfold State.serviceCall
  simp only [beq_eq_false_iff_ne.2 notVersion, beq_eq_false_iff_ne.2 notMove, unknown, Bool.and_false, Bool.false_eq_true,
    if_false]

theorem execFwcallAnswer_of_unknown {svc : Nat} (waits : CallWaits s g i svc dst a) (hd : dst < 255) (notVersion : svc ≠ 0)
    (notMove : svc ≠ 0x10) (unknown : s.services.contains svc = false) :
    Completes (execFwcallAnswer s) (fun t => (t.group g.id).wait = .none ∧
      (t.group g.id).readG i dst = 0xFFFFFFFF ∧ (t.group g.id).readG i (dst + 1) = 0xFFFFFFFF ∧
      ∀ c, c.isReg = true → c ≠ .g dst → c ≠ .g (dst + 1) → (t.group g.id).readCell i c = g.readCell i c) := by
  obtain ⟨t, run, after⟩ := execFwcallAnswer_of_one waits (State.serviceCall_of_unknown notVersion notMove unknown _ _)
  refine ⟨t, run, ?_⟩
  dsimp only
  rw [after]
  exact ⟨rfl, (Group.answered_low hd).trans (by decide), (Group.answered_high hd).trans (by decide),
    fun c reg low high => Group.answered_other waits.lane hd reg low high⟩

theorem setWidth_ushiftRight_append (x y : W32) : ((x ++ y) >>> 32).setWidth 32 = x := by
  ext k hk
  rw [BitVec.getElem_setWidth, BitVec.getLsbD_ushiftRight, BitVec.getLsbD_append]
  simp [BitVec.getLsbD_eq_getElem hk]

theorem execFwcallAnswer_of_version (waits : CallWaits s g i 0 dst a) (hd : dst < 255) :
    Completes (execFwcallAnswer s) (fun t => (t.group g.id).wait = .none ∧
      (t.group g.id).readG i dst = w32 s.svn ∧ (t.group g.id).readG i (dst + 1) = Config.fwVersion) := by
  obtain ⟨t, run, after⟩ := execFwcallAnswer_of_one (v := Config.fwVersion ++ w32 s.svn) waits rfl
  refine ⟨t, run, ?_⟩
  dsimp only
  rw [after]
  exact ⟨rfl, (Group.answered_low hd).trans BitVec.setWidth_append_eq_right,
    (Group.answered_high hd).trans (setWidth_ushiftRight_append _ _)⟩

end Calls

/-! ### Failures and tests (08 R166, 21 R388) -/

section Failures

variable {s : State}

theorem execCoreStructureUncorrectable_of_none (none : s.teams = []) :
    Completes (execCoreStructureUncorrectable s) (fun t => t.launches = s.launches ∧ SameMemory s t) := by
  have run : execCoreStructureUncorrectable s = .next (State.raiseError s.drawNat.2 { sev := 1, src := 1, tenant := 0xFFFF } 1
      (s.ev.obj * 4 + s.drawNat.1 % 4)) := by
    have idle : s.drawNat.2.teams = [] := none
    unfold execCoreStructureUncorrectable
    simp only [idle, List.filter_nil, List.foldl_nil, List.map_nil, List.headD_nil]
  exact ⟨_, run, State.raiseError_launches _ _ _ _,
    SameMemory.trans (t := s.drawNat.2) (.of_eq rfl rfl rfl) (State.raiseError_memory _ _ _ _)⟩

theorem execCoreStructureUncorrectable_of_one {t : Team} (one : s.teams = [t]) (core : t.core = s.ev.obj)
    (live : t.finished = none) : execCoreStructureUncorrectable s = .next ((s.drawNat.2.abortLaunch t.die t.launch 2).raiseError
      { sev := 1, src := 1, tenant := t.tenant } 1 (s.ev.obj * 4 + s.drawNat.1 % 4)) := by
  have teams : s.drawNat.2.teams = [t] := one
  unfold execCoreStructureUncorrectable
  simp only [teams, List.filter_cons, core, live, beq_self_eq_true, Option.isNone_none, Bool.and_self, if_true, List.filter_nil,
    List.foldl_cons, List.foldl_nil, List.map_cons, List.map_nil, List.headD_cons]

theorem execTargetedTestDone_of_pass {x : PendingTest}
    (here : s.tests.find? (fun (x : PendingTest) => x.num == s.ev.obj) = some x) (passes : s.ev.flag = true)
    (fresh : x.lasting = false) (empty : x.kind = 1 → s.partGroups x.loc = []) : execTargetedTestDone s = .next { s with
      tests := s.tests.filter (fun (y : PendingTest) => y.num != x.num)
      errors := updWhere (fun (e : ErrorRec) => e.src == testSource x.kind && e.loc == x.loc && e.result == 0)
        (fun e => { e with result := 1, action := 0 }) s.errors } := by
  have runs : (x.kind == 1 && !(s.partGroups x.loc).isEmpty) = false := by
    by_cases one : x.kind = 1
    · rw [empty one]
      exact Bool.and_false _
    · rw [beq_eq_false_iff_ne.2 one]
      rfl
  have first (r : Nat) : [0].contains r = (r == 0) := by
    simp only [List.contains_cons, List.contains_nil, Bool.or_false]
  unfold execTargetedTestDone
  simp only [here, runs, passes, fresh, Bool.not_false, Bool.and_self, Bool.not_true, Bool.false_and, Bool.false_eq_true, if_false,
    State.settleTest, if_true, first]

end Failures

/-- Settles O52: faults, held groups, firmware's answers, failures of structures and their tests go as the rules say. -/
theorem firmwareEvents : Obligations.FirmwareEvents := by
  intro s g
  exact ⟨fun e r head => execFaultResolve_of_head head,
    fun r head here stopped notPage notSync free => execFaultResolve_of_unhandled head here stopped notPage notSync free,
    fun t held here unsynced due => execSyncHoldTimeout_of_due held here unsynced due,
    fun i svc dst a here wait lane hd drained idle back notVersion notMove unknown =>
      execFwcallAnswer_of_unknown ⟨here, wait, lane, drained, idle, back⟩ hd notVersion notMove unknown,
    fun i dst a here wait lane hd drained idle back =>
      execFwcallAnswer_of_version ⟨here, wait, lane, drained, idle, back⟩ hd,
    fun none => execCoreStructureUncorrectable_of_none none,
    fun t one core live _ => execCoreStructureUncorrectable_of_one one core live,
    fun x here passes fresh empty => execTargetedTestDone_of_pass here passes fresh empty⟩

end Sys2Proof.Machine

namespace Sys2Proof.Machine

open Sys2Proof

/-! ### Starts and power (21 R385, R389) -/

section Starts

variable {s : State}

theorem execStartTimeout_of_last {i : Nat} {warm : Bool} (starting : s.step = .starting i warm)
    (last : bootOrder s.slots = [i]) : execStartTimeout s = .next
      { s with
        slots := slotFailed s.slots i
        step := .recovery
        running := none } := by
  unfold execStartTimeout
  simp only [starting, last, List.dropWhile_cons, bne_self_eq_false, Bool.false_eq_true, if_false, List.drop_succ_cons,
    List.drop_zero]
  rfl

theorem execTrialConfirmTimeout_of_late {t : Nat} (trial : s.trialAt = some t) (late : t + 4800000000000 ≤ s.ticks) :
    execTrialConfirmTimeout s = .next { s with trialAt := none } := by
  unfold execTrialConfirmTimeout
  simp only [trial, if_pos late]

theorem execOvertempStop_stops : Completes (execOvertempStop s) (fun t => t.stopped = true ∧ SameMemory s t) := by
  obtain ⟨mem, vault, stores⟩ := (OnlyReports.report s { sev := 2, src := 12, loc := s.ev.obj }).memory
  exact ⟨_, rfl, rfl, mem, vault, stores⟩

/-- A die that is not gated and not over its limits stays ungated: the free value leaves no other step. -/
theorem State.gateStep_of_cool {die : Nat} {hot : Bool} (cool : hot = false) (ungated : s.gate = [0, 0]) (hd : die < 2) :
    s.gateStep die hot = s.drawNat.2 := by
  have kept : setAt s.gate die 0 = s.gate := by
    rw [ungated]
    exact (by decide : ∀ d < 2, setAt [0, 0] d 0 = [0, 0]) die hd
  have zero : s.gate.getD die 0 = 0 := by
    rw [ungated]
    exact (by decide : ∀ d < 2, [0, 0].getD d 0 = 0) die hd
  have step : (if hot then 1 + s.drawNat.1 % 12 else s.drawNat.1 % (s.gate.getD die 0 + 1)) = 0 := by
    rw [cool, zero]
    exact Nat.mod_one _
  have run : s.gateStep die hot = { s.drawNat.2 with
    gate := setAt s.gate die (if hot then 1 + s.drawNat.1 % 12 else s.drawNat.1 % (s.gate.getD die 0 + 1)) } := rfl
  rw [run, step, kept]
  rfl

theorem execPowerSample_of_cool (room : s.avg.length < 100) (cool : ∀ d, s.ev.nats.getD d 0 ≤ 105)
    (within : (s.avg ++ [s.ev.obj]).sum ≤ s.plim * 1000 * (s.avg.length + 1)) (ungated : s.gate = [0, 0]) :
    Completes (execPowerSample s) (fun t => t.avg = s.avg ++ [s.ev.obj] ∧ t.gate = [0, 0] ∧ t.agenda = s.agenda) := by
  obtain ⟨u, hu⟩ : ∃ u : State, u = { s with avg := s.avg ++ [s.ev.obj] } := ⟨_, rfl⟩
  have window : (s.avg ++ [s.ev.obj]).drop (s.avg.length + 1 - 100) = s.avg ++ [s.ev.obj] := by
    rw [Nat.sub_eq_zero_of_le (by omega)]
    rfl
  have noStop : (List.range 2).filter (fun d => 115 ≤ s.ev.nats.getD d 0) = [] :=
    List.filter_eq_nil_iff.2 fun d _ hot => absurd (of_decide_eq_true hot) (by have := cool d; omega)
  have under : decide (s.plim * 1000 * (s.avg ++ [s.ev.obj]).length < (s.avg ++ [s.ev.obj]).sum) = false := by
    rw [List.length_append, List.length_singleton]
    exact decide_eq_false (Nat.not_lt.2 within)
  have calm (d : Nat) : (false || decide (105 < s.ev.nats.getD d 0)) = false := decide_eq_false (Nat.not_lt.2 (cool d))
  have run : execPowerSample s = .next (((u.gateStep 0 false).gateStep 1 false).push []) := by
    unfold execPowerSample
    simp only [window, noStop, under, calm, hu, List.map_nil]
  have first : u.gateStep 0 false = u.drawNat.2 := State.gateStep_of_cool rfl (by rw [hu]; exact ungated) (by decide)
  have second : u.drawNat.2.gateStep 1 false = u.drawNat.2.drawNat.2 :=
    State.gateStep_of_cool rfl (by rw [hu]; exact ungated) (by decide)
  rw [first, second, hu] at run
  exact ⟨_, run, rfl, ungated, List.append_nil _⟩

end Starts

/-- Settles O53: a start takes the slots in their order and keeps what the part keeps; time-outs, samples and the stop end as
the rules say. -/
theorem startsAndPower : Obligations.StartsAndPower := by
  intro s
  exact ⟨rfl, rfl, ⟨rfl, rfl, rfl, rfl, rfl, rfl, rfl, rfl, rfl⟩,
    fun i warm starting last => execStartTimeout_of_last starting last,
    fun t trial late => execTrialConfirmTimeout_of_late trial late,
    fun room cool within ungated => execPowerSample_of_cool room cool within ungated, execOvertempStop_stops⟩

end Sys2Proof.Machine

namespace Sys2Proof.Machine

open Sys2Proof

/-! ### The fabric: links and their keys (22 R392 to R402) -/

section Links

variable {s : State} {p : Port}

theorem State.num_of_port? {n : Nat} (h : s.port? n = some p) : p.num = n := beq_iff_eq.1 (List.find?_some h :)

theorem State.port?_modPort {n : Nat} {F : Port → Port} (hF : ∀ y, (F y).num = y.num) (h : s.port? n = some p) :
    (s.modPort n F).port? n = some (F p) := by
  unfold State.port? State.modPort
  simp only
  rw [find_updWhere _ _ _ _ fun x => by rw [hF], show s.ports.find? (fun y => y.num == n) = some p from h]
  exact congrArg some (if_pos (List.find?_some h))

/-- A change of one direction of a port leaves the other. -/
theorem State.port?_modDir {n : Nat} (tx : Bool) (F : LinkDir → LinkDir) (h : s.port? n = some p) :
    ∃ p', (s.modDir n tx F).port? n = some p' ∧ p'.dir tx = F (p.dir tx) ∧ p'.dir (!tx) = p.dir (!tx) := by
  refine ⟨if tx then { p with tx := F p.tx } else { p with rx := F p.rx },
    State.port?_modPort (F := fun p => if tx then { p with tx := F p.tx } else { p with rx := F p.rx }) (fun y => ?_) h, ?_⟩
  · cases tx <;> rfl
  · cases tx <;> exact ⟨rfl, rfl⟩

/-- The receiving end of a port after a flit that it accepts. -/
def Port.accepting (p : Port) (kg : Bool) : Port := { p with fails := 0, rx := p.rx.flit kg }

theorem execFlitReceive_of_accepted (here : s.port? s.ev.obj = some p) (up : p.up = true) (keyed : p.rx.holds s.ev.flag = true)
    (verified : s.ev.flag2 = true) {u : State} (hu : u = s.modPort p.num (fun y => y.accepting s.ev.flag)) :
    execFlitReceive s = .next (((s.ev.reqs.filter (fun r => u.isRemote r.addr)).foldl (fun s r => s.forward p.num r) u).push
      ((s.ev.reqs.filter (fun r => !u.isRemote r.addr)).map (fun r => .event .remoteRequest { reqs := [r] }))) := by
  have taken : s.modPort p.num (fun p => { p with fails := 0, rx := p.rx.flit s.ev.flag }) = u := hu.symm
  unfold execFlitReceive
  simp only [here, up, keyed, verified, Bool.not_true, Bool.and_self, Bool.false_eq_true, if_false, if_true,
    List.partition_eq_filter_filter, taken]
  rfl

/-- The receiving end of a port after a flit that it discards. -/
def Port.rejecting (p : Port) (now : Nat) : Port :=
  { p with
    fails := p.fails + 1
    replays := p.replays.filter (fun t => now < t + 8000000) ++ [now] }

theorem execFlitReceive_of_rejected (here : s.port? s.ev.obj = some p) (up : p.up = true)
    (bad : (p.rx.holds s.ev.flag && s.ev.flag2) = false) : Completes (execFlitReceive s) (fun t =>
      (∃ p', t.port? s.ev.obj = some p' ∧ p'.fails = p.fails + 1) ∧
        t.agenda = s.agenda ++ (if p.fails < 16 then [] else [evWork .linkDown p.num])) := by
  have num := State.num_of_port? here
  have same : s.port? p.num = some p := by rw [num]; exact here
  obtain ⟨u, hu⟩ : ∃ u, u = s.modPort p.num (fun y => y.rejecting s.ticks) := ⟨_, rfl⟩
  have counted : u.port? s.ev.obj = some (p.rejecting s.ticks) := by
    rw [hu, ← num]
    exact State.port?_modPort (fun _ => rfl) same
  have waiting : u.agenda = s.agenda := by rw [hu]; rfl
  obtain ⟨v, hv⟩ : ∃ v, v = u.report { sev := 0, src := 9, loc := p.num } := ⟨_, rfl⟩
  have frame : OnlyReports u v := hv ▸ OnlyReports.report u _
  have run : execFlitReceive s = .next (if p.fails < 16 then v else v.push [evWork .linkDown p.num]) := by
    unfold execFlitReceive
    simp only [here, up, bad, Bool.not_true, Bool.false_eq_true, if_false, hv, hu]
    rfl
  have listed : v.port? s.ev.obj = u.port? s.ev.obj := by rw [State.port?, State.port?, frame.ports]
  refine ⟨_, run, ?_⟩
  split
  · exact ⟨⟨_, listed.trans counted, rfl⟩, by rw [frame.agenda, waiting, List.append_nil]⟩
  · exact ⟨⟨_, listed.trans counted, rfl⟩, congrArg (· ++ _) (frame.agenda.trans waiting)⟩

theorem execRekeyInstallAck_of_installed (here : s.port? s.ev.obj = some p) (installed : (p.dir s.ev.flag).st = .installed) :
    Completes (execRekeyInstallAck s) (fun t => ∃ p', t.port? s.ev.obj = some p' ∧
      p'.dir (!s.ev.flag) = p.dir (!s.ev.flag) ∧ p'.dir s.ev.flag =
        { p.dir s.ev.flag with
          kg := !(p.dir s.ev.flag).g
          since := s.ticks
          from_ := (p.dir s.ev.flag).fseq
          st := .switched }) := by
  obtain ⟨p', port, mine, other⟩ := State.port?_modDir s.ev.flag (fun d => if d.st == .installed then
    { d with kg := !d.g, since := s.ticks, from_ := d.fseq, st := .switched } else d) here
  exact ⟨_, rfl, p', port, other, mine.trans (if_pos (by rw [installed]; rfl))⟩

theorem LinkDir.holds_setBank (d : LinkDir) (kg v : Bool) : (d.setBank kg v).holds kg = v := by
  cases kg <;> rfl

theorem execRekeyOldAcked_of_switched (here : s.port? s.ev.obj = some p) (switched : (p.dir s.ev.flag).st = .switched) :
    Completes (execRekeyOldAcked s) (fun t => ∃ p', t.port? s.ev.obj = some p' ∧ (p'.dir s.ev.flag).st = .steady ∧
      (p'.dir s.ev.flag).g = !(p.dir s.ev.flag).g ∧ (p'.dir s.ev.flag).holds (p.dir s.ev.flag).g = false) := by
  obtain ⟨p', port, mine, _⟩ := State.port?_modDir s.ev.flag (fun d => if d.st == .switched then
    { d.setBank d.g false with g := !d.g, st := .steady } else d) here
  have taken := mine.trans (if_pos (by rw [switched]; rfl))
  refine ⟨_, rfl, p', port, ?_⟩
  rw [taken]
  exact ⟨rfl, rfl, LinkDir.holds_setBank _ _ _⟩

theorem LinkDir.setBank_st (d : LinkDir) (kg v : Bool) : (d.setBank kg v).st = d.st := by cases kg <;> rfl

/-- A steady direction installs its other bank's key, or notes when to try again. -/
theorem execRekeyDue_of_steady (here : s.port? s.ev.obj = some p) (steady : (p.dir s.ev.flag).st = .steady) :
    Completes (execRekeyDue s) (fun t => ∃ p', t.port? s.ev.obj = some p' ∧
      (((p'.dir s.ev.flag).st = .installed ∧ (p'.dir s.ev.flag).holds (!(p.dir s.ev.flag).g) = true) ∨
        ((p'.dir s.ev.flag).st = .steady ∧ (p'.dir s.ev.flag).retry = some (s.ticks + 8000000000)))) := by
  have free : s.drawBool.2.port? s.ev.obj = some p := here
  have run : execRekeyDue s = .next (if s.drawBool.1 then s.drawBool.2.modDir s.ev.obj s.ev.flag (fun d =>
        { d.setBank (!d.g) true with
          st := .installed
          retry := none })
      else s.drawBool.2.modDir s.ev.obj s.ev.flag (fun d => { d with retry := some (s.ticks + 8000000000) })) := by
    unfold execRekeyDue State.rekey
    simp only [here, steady, bne_self_eq_false, Bool.false_eq_true, if_false]
    rfl
  refine ⟨_, run, ?_⟩
  split
  · obtain ⟨p', port, mine, _⟩ := State.port?_modDir s.ev.flag (fun d =>
      { d.setBank (!d.g) true with st := .installed, retry := none }) free
    refine ⟨p', port, .inl ?_⟩
    rw [mine]
    exact ⟨rfl, LinkDir.holds_setBank _ _ _⟩
  · obtain ⟨p', port, mine, _⟩ := State.port?_modDir s.ev.flag (fun d =>
      { d with retry := some (s.ticks + 8000000000) }) free
    refine ⟨p', port, .inr ?_⟩
    rw [mine]
    exact ⟨steady, rfl⟩

theorem execRekeyRetry_of_due {t : Nat} (here : s.port? s.ev.obj = some p) (retry : (p.dir s.ev.flag).retry = some t)
    (due : t ≤ s.ticks) : execRekeyRetry s = .next (s.rekey s.ev.obj s.ev.flag) := by
  unfold execRekeyRetry
  simp only [here, Option.bind_some, retry, if_pos due]

/-! ### Congestion (22 R403) -/

section Hints

variable {b : Backlog} (here : s.port? s.ev.obj = some p)
  (backlog : s.backlogs.find? (fun (b : Backlog) => b.port == s.ev.obj && b.target == s.ev.sub) = some b)

include here backlog

theorem execBacklogHint_of_due (old : b.since + 16000 ≤ s.ticks) (again : b.hint.all (fun t => t + 40000 ≤ s.ticks) = true) :
    Completes (execBacklogHint s) (fun t => (∃ b', t.backlogs.find? (fun (b : Backlog) =>
        b.port == s.ev.obj && b.target == s.ev.sub) = some b' ∧ b'.hint = some s.ticks) ∧
      t.agenda = s.agenda ++ [evWork .stallHint (Config.portDie p.num % 2) s.ev.sub
        (hintTime (s.backlog s.ev.obj s.ev.sub) p.fast)]) := by
  have named : (b.port == s.ev.obj && b.target == s.ev.sub) = true := (List.find?_some backlog :)
  obtain ⟨port, target⟩ := (Bool.and_eq_true _ _).mp named
  have due : b.due s.ticks = true := by rw [Backlog.due, decide_eq_true old, again]; rfl
  obtain ⟨l, hl⟩ : ∃ l, l = updWhere (fun (b : Backlog) => b.port == s.ev.obj && b.target == s.ev.sub)
    (fun b => { b with hint := some s.ticks }) s.backlogs := ⟨_, rfl⟩
  have noted : l.find? (fun (b : Backlog) => b.port == s.ev.obj && b.target == s.ev.sub) =
      some { b with hint := some s.ticks } := by
    rw [hl, find_updWhere _ _ _ _ fun _ => by rfl, backlog]
    exact congrArg some (if_pos named)
  have run : execBacklogHint s = .next (State.push { s with backlogs := l }
      [evWork .stallHint (Config.portDie p.num % 2) b.target (hintTime (s.backlog b.port b.target) p.fast)]) := by
    unfold execBacklogHint
    simp only [here, backlog, due, Bool.not_true, Bool.false_eq_true, if_false, hl]
  rw [beq_iff_eq.1 port, beq_iff_eq.1 target] at run
  exact ⟨_, run, ⟨_, noted, rfl⟩, rfl⟩

theorem execBacklogHint_of_early (early : s.ticks < b.since + 16000) : execBacklogHint s = .next s := by
  have wait : b.due s.ticks = false := by rw [Backlog.due, decide_eq_false (Nat.not_le.2 early)]; rfl
  unfold execBacklogHint
  simp only [here, backlog, wait, Bool.not_false, if_true]

end Hints

end Links

/-! ### Requests of other modules (22 R394 to R399) -/

/-- Memory and the answers sent to other modules are as they were: what a load of another module leaves. -/
structure OnlyFetched (s t : State) : Prop where
  mem : t.mem = s.mem
  vault : t.vault = s.vault
  teams : t.teams = s.teams
  answers : t.answers = s.answers

theorem OnlyFetched.refl (s : State) : OnlyFetched s s := ⟨rfl, rfl, rfl, rfl⟩

theorem OnlyFetched.trans {s t u : State} (h : OnlyFetched s t) (k : OnlyFetched t u) : OnlyFetched s u :=
  ⟨k.mem.trans h.mem, k.vault.trans h.vault, k.teams.trans h.teams, k.answers.trans h.answers⟩

theorem OnlyFetched.foldl {α : Type} {f : State → α → State} (hf : ∀ u x, OnlyFetched u (f u x)) (l : List α) (s : State) :
    OnlyFetched s (l.foldl f s) := by
  induction l generalizing s with
  | nil => exact .refl s
  | cons x r ih => exact (hf s x).trans (ih _)

theorem OnlyFetched.engineLoads (s : State) (pa n : Nat) : OnlyFetched s (s.engineLoads pa n) := by
  unfold State.engineLoads
  split
  · exact .refl s
  · exact .foldl (f := fun (v : State) i => v.txReadConflict (pa / 128 + i) none none) (fun _ _ => ⟨rfl, rfl, rfl, rfl⟩) _ _

theorem OnlyFetched.mscPlace (s : State) (fresh : MscLine) : OnlyFetched s (s.mscPlace fresh) := by
  unfold State.mscPlace
  dsimp only
  split
  · exact ⟨rfl, rfl, rfl, rfl⟩
  · split <;> exact ⟨rfl, rfl, rfl, rfl⟩

theorem OnlyFetched.mscTouch (s : State) (pa hint : Nat) (write whole : Bool) :
    OnlyFetched s (s.mscTouch pa hint write whole) := by
  have counted : OnlyFetched s { s with l1use := s.l1use + 1 } := ⟨rfl, rfl, rfl, rfl⟩
  exact State.mscTouch_cases s pa hint write whole (OnlyFetched s) (.refl s) (fun _ => ⟨rfl, rfl, rfl, rfl⟩)
    fun l => counted.trans (.mscPlace _ l)

theorem OnlyFetched.grant (s : State) (line : Nat) (remote : Bool) : OnlyFetched s (s.grant line remote).2 := by
  unfold State.grant
  dsimp only
  split <;> exact ⟨rfl, rfl, rfl, rfl⟩

theorem OnlyFetched.foldl_snd {α β : Type} {f : β × State → α → β × State} (hf : ∀ x y, OnlyFetched x.2 (f x y).2) (l : List α)
    (x : β × State) : OnlyFetched x.2 (l.foldl f x).2 := by
  induction l generalizing x with
  | nil => exact .refl _
  | cons y r ih => exact (hf x y).trans (ih _)

theorem OnlyFetched.grantLines (s : State) (lines : List Nat) : OnlyFetched s (s.grantLines lines).2 := by
  unfold State.grantLines
  refine OnlyFetched.foldl_snd (fun x ln => ?_) lines (0, s)
  exact OnlyFetched.grant x.2 ln true

/-- A flit that leaves changes only its port. -/
theorem State.sendTo_eq (s : State) (pa : Nat) : (s.sendTo pa).answers = s.answers ∧ (s.sendTo pa).tagsSeen = s.tagsSeen ∧
    SameMemory s (s.sendTo pa) := by
  unfold State.sendTo
  split <;> exact ⟨rfl, rfl, .of_eq rfl rfl rfl⟩

/-- The answer joins the answers; it leaves on a port, and memory is as it was. -/
theorem State.answer_eq (s : State) (r : RemoteReq) (a : RemoteAnswer) : (s.answer r a).answers = s.answers ++ [(r.src, r.tag, a)] ∧
    (s.answer r a).tagsSeen = s.tagsSeen ∧ SameMemory s (s.answer r a) := by
  obtain ⟨u, hu⟩ : ∃ u : State, u = { s with answers := s.answers ++ [(r.src, r.tag, a)] } := ⟨_, rfl⟩
  have sent : s.answer r a = u.sendTo (frameOf r.src r.addr) := by rw [hu]; rfl
  obtain ⟨answers, tags, memory⟩ := u.sendTo_eq (frameOf r.src r.addr)
  have joined : SameMemory s u := by rw [hu]; exact .of_eq rfl rfl rfl
  rw [sent]
  exact ⟨by rw [answers, hu], by rw [tags, hu], joined.trans memory⟩

section Requests

variable {s u : State} {r : RemoteReq} {rs : List RemoteReq}

/-- The state in which a request's source and tag have been noted. -/
def State.noted (s : State) (r : RemoteReq) : State := { s with
  tagsSeen := s.tagsSeen.filter (fun (x : Nat × Nat × Nat) => s.ticks < x.2.2 + 800000) ++ [(r.src, r.tag, s.ticks)] }

theorem execRemoteRequest_of_new (reqs : s.ev.reqs = r :: rs) (new : ∀ x ∈ s.tagsSeen, (x.1, x.2.1) ≠ (r.src, r.tag)) :
    execRemoteRequest s = .next ((s.noted r).performRemote r) := by
  have unseen : (s.tagsSeen.filter (fun (x : Nat × Nat × Nat) => s.ticks < x.2.2 + 800000)).any
      (fun x => x.1 == r.src && x.2.1 == r.tag) = false := by
    refine List.any_eq_false.2 fun x hx same => ?_
    obtain ⟨src, tag⟩ := (Bool.and_eq_true _ _).mp same
    exact new x (List.mem_filter.1 hx).1 (Prod.ext (beq_iff_eq.1 src) (beq_iff_eq.1 tag))
  unfold execRemoteRequest
  simp only [reqs, unseen, Bool.false_eq_true, if_false]
  rfl

theorem execRemoteRequest_of_repeated {n : Nat} (reqs : s.ev.reqs = r :: rs) (seen : s.tagsSeen = [(r.src, r.tag, n)])
    (recent : s.ticks < n + 800000) : execRemoteRequest s = .next s := by
  have kept : s.tagsSeen.filter (fun (x : Nat × Nat × Nat) => s.ticks < x.2.2 + 800000) = s.tagsSeen := by
    rw [seen]
    exact List.filter_cons_of_pos (decide_eq_true recent)
  have named : s.tagsSeen.any (fun x => x.1 == r.src && x.2.1 == r.tag) = true := by
    rw [seen]
    simp only [List.any_cons, beq_self_eq_true, Bool.and_self, Bool.true_or]
  unfold execRemoteRequest
  simp only [reqs, kept, named, if_true]

theorem State.noted_of_none (none : s.tagsSeen = []) : s.noted r = { s with tagsSeen := [(r.src, r.tag, s.ticks)] } := by
  unfold State.noted
  rw [none]
  rfl

theorem State.performRemote_of_refused (synced : u.synced = true) (closed : u.exported r = false) :
    u.performRemote r = u.answer r (.refused 0x02) := by
  unfold State.performRemote
  simp only [synced, closed, Bool.not_true, Bool.not_false, Bool.false_eq_true, if_false, if_true]

/-- A request of a size or a code that is not served. -/
theorem State.performRemote_of_unsupported (synced : u.synced = true) (granted : u.exported r = true)
    (bad : RemoteReq.size r < 4 ∨ 256 < RemoteReq.size r ∨ RemoteReq.defined r = false) :
    u.performRemote r = u.answer r .unsupported := by
  have refused : (decide (RemoteReq.size r < 4) || decide (256 < RemoteReq.size r) || !RemoteReq.defined r) = true := by
    obtain small | large | undefined := bad
    · rw [decide_eq_true small]
      rfl
    · rw [decide_eq_true large, Bool.or_true]
      rfl
    · rw [undefined]
      exact Bool.or_true _
  unfold State.performRemote
  simp only [synced, granted, refused, Bool.not_true, Bool.false_eq_true, if_false, if_true]

/-- A request is let through and has a size that is served; nothing that is poisoned or held back is in its way. -/
structure RequestServed (u : State) (r : RemoteReq) : Prop where
  synced : u.synced = true
  granted : u.exported r = true
  clean : u.poison = []
  free : u.inbox = []
  low : 4 ≤ RemoteReq.size r
  high : RemoteReq.size r ≤ 256

/-- What a request that is served does at its home, by its operation. -/
def State.serveRemote (s : State) (r : RemoteReq) : State :=
  match r.op with
  | .other => s.answer r .unsupported
  | .store bs => s.remoteStore r bs
  | .load _ =>
    if (RemoteReq.lines r).any (fun ln => s.fetchHeld (ln * 128)) then { s with inbox := s.inbox ++ [r] }
    else
      let s := (sectorsOf r.addr (RemoteReq.size r)).foldl (fun s a => s.mscTouch a 0 false)
        (s.engineLoads r.addr (RemoteReq.size r))
      let (e, s) := s.grantLines (RemoteReq.lines r)
      s.answer r (.lease (s.homeBytes r.addr (RemoteReq.size r)) e)
  | .atom op ty v => s.remoteWrite r (.atom r.addr op.toNat ty.toNat v)
  | .cas wide c v => s.remoteWrite r (.cas r.addr wide c v)
  | .join => s.remoteWrite r (.dec r.addr)

theorem State.performRemote_of_served (h : RequestServed u r) (defined : RemoteReq.defined r = true) :
    u.performRemote r = u.serveRemote r := by
  obtain ⟨synced, granted, clean, free, low, high⟩ := h
  have bad : u.badSector [(r.addr, RemoteReq.size r)] = none := by
    rw [State.badSector, clean]
    rfl
  unfold State.performRemote State.serveRemote
  simp only [synced, granted, Nat.not_lt.2 low, Nat.not_lt.2 high, defined, decide_false, Bool.not_true, Bool.or_self,
    Bool.false_eq_true, if_false, free, List.any_nil, bad]
  cases r.op <;> rfl

theorem State.serveRemote_of_load {k : Nat} (load : r.op = .load k)
    (ready : ∀ ln ∈ RemoteReq.lines r, u.fetchHeld (ln * 128) = false) : ∃ e,
      (u.serveRemote r).answers = u.answers ++ [(r.src, r.tag, .lease (u.homeBytes r.addr k) e)] ∧
        SameMemory u (u.serveRemote r) := by
  have size : RemoteReq.size r = k := by rw [RemoteReq.size, load]
  have open_ : (RemoteReq.lines r).any (fun ln => u.fetchHeld (ln * 128)) = false :=
    List.any_eq_false.2 fun ln hln held => Bool.eq_false_iff.1 (ready ln hln) held
  obtain ⟨w, hw⟩ : ∃ w, w = ((sectorsOf r.addr k).foldl (fun s a => State.mscTouch s a 0 false)
    (u.engineLoads r.addr k)).grantLines (RemoteReq.lines r) := ⟨_, rfl⟩
  have frame : OnlyFetched u w.2 := hw ▸ (OnlyFetched.engineLoads u r.addr k).trans
    ((OnlyFetched.foldl (fun v a => OnlyFetched.mscTouch v a 0 false false) _ _).trans (OnlyFetched.grantLines _ _))
  have run : u.serveRemote r = w.2.answer r (.lease (u.homeBytes r.addr k) w.1) := by
    have same : w.2.homeBytes r.addr k = u.homeBytes r.addr k := congrArg (Memory.bytes · r.addr k) frame.mem
    rw [← same, hw, State.serveRemote, load]
    simp only [size, open_, Bool.false_eq_true, if_false]
  obtain ⟨answers, _, memory⟩ := w.2.answer_eq r (.lease (u.homeBytes r.addr k) w.1)
  rw [run]
  exact ⟨w.1, by rw [answers, frame.answers], SameMemory.trans (.of_eq frame.mem frame.vault frame.teams) memory⟩

theorem State.serveRemote_of_heldLoad {k : Nat} (load : r.op = .load k) (free : u.inbox = [])
    (held : ∃ ln ∈ RemoteReq.lines r, u.fetchHeld (ln * 128) = true) : u.serveRemote r = { u with inbox := [r] } := by
  have waits : (RemoteReq.lines r).any (fun ln => u.fetchHeld (ln * 128)) = true := List.any_eq_true.2 held
  rw [State.serveRemote, load]
  simp only [waits, if_true, free, List.nil_append]

/-- A store that lies in one line is one write at its home. -/
theorem State.remoteStore_of_oneLine {bs : List Byte} (some_ : 0 < bs.length) (fits : r.addr % 128 + bs.length ≤ 128) :
    u.remoteStore r bs = u.writeAtHome (r.addr / 128)
      { op := .store ((List.range bs.length).map (fun i => (r.addr + i, bs.getD i 0))), reply := some (r.src, r.tag) } := by
  obtain ⟨cells, hcells⟩ : ∃ cells : List (Nat × Byte),
      cells = (List.range bs.length).map (fun i => (r.addr + i, bs.getD i 0)) := ⟨_, rfl⟩
  have inLine : ∀ c ∈ cells, c.1 / 128 = r.addr / 128 := by
    intro c hc
    obtain ⟨i, hi, rfl⟩ := List.mem_map.1 (hcells ▸ hc)
    have := List.mem_range.1 hi
    show (r.addr + i) / 128 = r.addr / 128
    omega
  have lines : (cells.map (fun c => c.1 / 128)).eraseDups = [r.addr / 128] := by
    obtain ⟨n, hn⟩ := Nat.exists_eq_succ_of_ne_zero (Nat.pos_iff_ne_zero.1 some_)
    have length : cells.length = n + 1 := by rw [hcells, List.length_map, List.length_range, hn]
    have all : cells.map (fun c => c.1 / 128) = List.replicate (n + 1) (r.addr / 128) :=
      List.eq_replicate_iff.2 ⟨by rw [List.length_map, length], by
        intro x hx
        obtain ⟨c, hc, rfl⟩ := List.mem_map.1 hx
        exact inLine c hc⟩
    rw [all, List.replicate_succ, List.eraseDups_cons]
    have rest : (List.replicate n (r.addr / 128)).filter (fun b => !b == r.addr / 128) = [] :=
      List.filter_eq_nil_iff.2 fun b hb other => by
        rw [List.eq_of_mem_replicate hb, beq_self_eq_true] at other
        exact absurd other (by decide)
    rw [rest]
    rfl
  have whole : cells.filter (fun c => c.1 / 128 == r.addr / 128) = cells :=
    List.filter_eq_self.2 fun c hc => beq_iff_eq.2 (inLine c hc)
  unfold State.remoteStore
  simp only [← hcells, lines, List.foldl_cons, List.foldl_nil, whole, List.getLast?_singleton, beq_self_eq_true, if_true]

end Requests

/-! ### Scale-out ports (22 R404, R405) -/

section ScaleOut

variable {s : State} {q : QueuePair} (here : s.qps.find? (fun (q : QueuePair) => q.num == s.ev.obj) = some q)

include here

theorem execScaleoutDoorbell_of_room (room : s.ev.val.toNat - q.prod ≤ 2 ^ q.log2) :
    execScaleoutDoorbell s = .next (s.startRequests q.num (s.ev.val.toNat - q.prod)) := by
  unfold execScaleoutDoorbell
  simp only [here, if_neg (Nat.not_lt.2 room)]

theorem execWorkRequestComplete_of_write {x : WorkReq} {l : List WorkReq} {k : Nat} (live : q.error = false)
    (started : q.started = x :: l) (port : s.qpPort q.num = some k) (write : fieldAt x.bytes 0 8 = 1) :
    execWorkRequestComplete s = .next ((s.modQp q.num (fun q =>
      { q with
        cons := q.cons + 1
        started := q.started.drop 1
        wrote := none })).signalAt q.tenant (fieldAt x.bytes 0x20 8)) := by
  unfold execWorkRequestComplete
  simp only [here, live, port, started, write, Option.isNone_some, Bool.or_self, Bool.false_eq_true, if_false,
    beq_self_eq_true, if_true]

theorem execWorkRequestComplete_of_down (port : s.qpPort q.num = none) : execWorkRequestComplete s = .next s := by
  unfold execWorkRequestComplete
  simp only [here, port, Option.isNone_none, Bool.or_true, if_true]

theorem execRemoteErrorNak_of_started (live : q.error = false) (started : q.started ≠ []) :
    execRemoteErrorNak s = .next (s.qpError q) := by
  unfold execRemoteErrorNak
  simp only [here, live, List.isEmpty_eq_false_iff.2 started, Bool.or_self, Bool.false_eq_true, if_false]

end ScaleOut

/-- Settles O54: links, keys, flits, requests of other modules, hints and the scale-out ports go as the rules say. -/
theorem fabricEvents : Obligations.FabricEvents := by
  intro s p q r
  refine ⟨rfl, rfl, fun here up keyed verified => execFlitReceive_of_accepted here up keyed verified rfl,
    fun here up bad => execFlitReceive_of_rejected here up bad,
    fun here installed => execRekeyInstallAck_of_installed here installed,
    fun here switched => execRekeyOldAcked_of_switched here switched,
    fun here steady => execRekeyDue_of_steady here steady,
    fun t here retry due => execRekeyRetry_of_due here retry due,
    fun b here backlog => ⟨execBacklogHint_of_due here backlog, execBacklogHint_of_early here backlog⟩, ?_,
    fun rs n reqs seen recent => execRemoteRequest_of_repeated reqs seen recent, ?_, ?_,
    fun here => ⟨execScaleoutDoorbell_of_room here,
      fun x l k live started port write => execWorkRequestComplete_of_write here live started port write,
      fun _ port => execWorkRequestComplete_of_down here port,
      fun live started => execRemoteErrorNak_of_started here live started⟩⟩
  · intro rs reqs none synced closed
    obtain ⟨answers, tags, memory⟩ := (s.noted r).answer_eq r (.refused 0x02)
    refine ⟨_, (execRemoteRequest_of_new reqs (by rw [none]; nofun)).trans
      (congrArg Host.Outcome.next (State.performRemote_of_refused synced closed)), answers, ?_, ?_⟩
    · rw [tags, State.noted_of_none none]
    · exact SameMemory.trans (t := s.noted r) (.of_eq rfl rfl rfl) memory
  · intro rs reqs new synced granted clean free low high
    have served : RequestServed (s.noted r) r := ⟨synced, granted, clean, free, low, high⟩
    have run (defined : RemoteReq.defined r = true) : execRemoteRequest s = .next ((s.noted r).serveRemote r) :=
      (execRemoteRequest_of_new reqs new).trans (congrArg Host.Outcome.next (State.performRemote_of_served served defined))
    refine ⟨?_, ?_, ?_, ?_, ?_, ?_, ?_, ?_⟩
    · intro k load ready
      obtain ⟨e, answers, memory⟩ := State.serveRemote_of_load (u := s.noted r) load ready
      exact ⟨_, run (by rw [RemoteReq.defined, load]), e, answers, SameMemory.trans (t := s.noted r) (.of_eq rfl rfl rfl) memory⟩
    · intro k load held
      exact (run (by rw [RemoteReq.defined, load])).trans
        (congrArg Host.Outcome.next (State.serveRemote_of_heldLoad (u := s.noted r) load free held))
    · intro bs store fits
      have size : RemoteReq.size r = bs.length := by rw [RemoteReq.size, store]
      exact (run (by rw [RemoteReq.defined, store])).trans (congrArg Host.Outcome.next
        ((by rw [State.serveRemote, store] : (s.noted r).serveRemote r = (s.noted r).remoteStore r bs).trans
          (State.remoteStore_of_oneLine (by omega) fits)))
    · intro op ty v atom known
      have defined : RemoteReq.defined r = true := by
        rw [RemoteReq.defined, atom]
        exact (Bool.or_eq_true _ _).mpr (known.imp decide_eq_true decide_eq_true)
      exact (run defined).trans (congrArg Host.Outcome.next (by rw [State.serveRemote, atom]; rfl))
    · intro wide c v cas
      exact (run (by rw [RemoteReq.defined, cas])).trans (congrArg Host.Outcome.next (by rw [State.serveRemote, cas]; rfl))
    · intro join
      exact (run (by rw [RemoteReq.defined, join])).trans (congrArg Host.Outcome.next (by rw [State.serveRemote, join]; rfl))
    · intro op ty v atom seven wide
      have undefined : RemoteReq.defined r = false := by
        rw [RemoteReq.defined, atom, seven]
        exact (congrArg (_ || ·) (decide_eq_false (Nat.not_lt.2 wide))).trans (by decide)
      exact (execRemoteRequest_of_new reqs new).trans
        (congrArg Host.Outcome.next (State.performRemote_of_unsupported synced granted (.inr (.inr undefined))))
    · intro other
      exact (run (by rw [RemoteReq.defined, other])).trans (congrArg Host.Outcome.next (by rw [State.serveRemote, other]; rfl))
  · intro rs reqs none synced granted size
    rw [← State.noted_of_none none]
    exact (execRemoteRequest_of_new reqs (by rw [none]; nofun)).trans
      (congrArg Host.Outcome.next (State.performRemote_of_unsupported synced granted (size.imp_right .inl)))

end Sys2Proof.Machine
